-- ==== Sys2Proof/Word.lean ====
section
/-! DEFINITION. The plain words of the model: the widths in which the manual counts (spec/00_scope.md R7:
little-endian fields, bit 0 least significant; a scratchpad word and a code granule are 128 bits). -/
namespace Sys2Proof

/-- One byte. -/
abbrev Byte := BitVec 8

/-- A 128-bit data word: one scratchpad word (R160), the data of one granule of the 144/128 code (R405). -/
abbrev Word128 := BitVec 128

/-- A whole granule of the 144/128 code: 128 data bits and 16 check bits in [143:128] (R405). -/
abbrev Granule := BitVec 144

/-- The 256 bytes of one command slot (R309), byte `i` in bits `[8i+7:8i]`. -/
abbrev SlotWord := BitVec 2048

/-- An FP32 bit pattern (R22, fmt 0x00). -/
abbrev F32 := BitVec 32

end Sys2Proof
end

