-- ==== Sys2Proof/Syntax.lean ====
section
/-! DEFINITION. The commands of Kerur: one constructor per row of spec/opcode_table.json, in the table's order.
A row that is an opcode of R317 stands for the handover write of R310 that hands a slot over with that opcode: its operands are
the port, the slot within the port's set and the header word; the parameters are what the slot holds at that moment (R310).
The header's OWN bit and opcode field are the row's own, whatever `hdr` holds in those bits, and a row that is one form of an
opcode (PREFIX_WITHDRAW, PWR_MODE_SET, …) has that form's flag or op field in the parameters.
Every other row is an event or operation of chapter text, with the operands its rule names. -/
namespace Sys2Proof

/-- The three ports that carry commands (spec/12_host_interface.md R308). -/
inductive Port where
  | host
  | mgmt
  | debug
  deriving DecidableEq, Repr

/-- The counter blocks of the emulated-register window (R304), each with the instance it belongs to. -/
inductive CounterBlock where
  /-- array counter block of a global cluster (R71) -/
  | array (cluster : BitVec 5)
  /-- scratchpad counter block of a global cluster (R190) -/
  | scratchpad (cluster : BitVec 5)
  /-- stream counter block of a global cluster (R227) -/
  | stream (cluster : BitVec 5)
  /-- update counter block of a global stack (R280) -/
  | update (stack : BitVec 5)
  /-- page keeper counter block of a die slice (R136) -/
  | pageKeeper (die : BitVec 3)
  /-- spine counter block of a die slice (R159) -/
  | spine (die : BitVec 3)
  /-- translation counter block of a die slice (R257) -/
  | translation (die : BitVec 3)
  /-- kettle counter block of a port (R303) -/
  | kettle (port : BitVec 2)
  deriving DecidableEq, Repr

/-- One command of the block: one row of the table of operations and events. -/
inductive Instr where
  /-- WINDOW_WRITE (R305). A 4- or 8-byte write to the emulated-register window at an offset without behaviour of its own is stored or ignored; a write of any other size or alignment is discarded and counted. -/
  | windowWrite (port : Port) (offset : BitVec 16) (size : Nat) (value : BitVec 64)
  /-- COUNTER_FREEZE (R71). Writing FREEZE in the CTL register of a counter block holds or releases every counter of that block. -/
  | counterFreeze (blk : CounterBlock) (hold : Bool)
  /-- COUNTER_CLEAR (R71). Writing 1 to CLEAR in the CTL register of a counter block sets every counter of the block, OVF included, to 0. -/
  | counterClear (blk : CounterBlock)
  /-- EVACUATE (R236). Writing EVACUATE in XLT_FARM_CTL moves an ONLINE far module slot to EVACUATING and starts its evacuation. -/
  | evacuate (module : BitVec 4)
  /-- INVALID_OPCODE (R317). A handover that names an opcode not in the table completes REJECTED_INVALID naming opcode. -/
  | invalidOpcode (port : Port) (slot : BitVec 6) (hdr : BitVec 64)
  /-- WAITING_COMMAND_ADMIT (R322). A command that waited in its slot is admitted in handover-queue order once the device state allows it. -/
  | waitingCommandAdmit
  /-- INTERIM_STATUS_REFRESH (R311). At the end of a slot's 10 µs interval, a pending change of the status is written to the slot's interim status. -/
  | interimStatusRefresh (port : Port) (slot : BitVec 6)
  /-- CFG_READ (R329). Returns committed or staged configuration values in the detail area. -/
  | cfgRead (port : Port) (slot : BitVec 6) (hdr : BitVec 64)
  /-- CFG_WRITE (R326). Checks and clamps configuration values and stages them in the port's staging area. -/
  | cfgWrite (port : Port) (slot : BitVec 6) (hdr : BitVec 64)
  /-- CFG_COMMIT (R347). Commits the port's staging area in one step and advances the configuration epoch, draining first for class C fields when DRAIN is set. -/
  | cfgCommit (port : Port) (slot : BitVec 6) (hdr : BitVec 64)
  /-- CFG_DISCARD (R347). CFG_COMMIT with DISCARD empties the port's staging area without committing. -/
  | cfgDiscard (port : Port) (slot : BitVec 6) (hdr : BitVec 64)
  /-- DRAIN_QUIESCENT (R348). When the device becomes quiescent during a DRAIN, the staged values are applied, every cluster takes the new epoch and the state returns to READY. -/
  | drainQuiescent
  /-- CFG_STATUS (R349). Returns cluster epochs or the epoch summary selected by select. -/
  | cfgStatus (port : Port) (slot : BitVec 6) (hdr : BitVec 64)
  /-- SEQ_CREATE (R130). Creates a sequence descriptor, copies its waymark list and allocates its D1 node. -/
  | seqCreate (port : Port) (slot : BitVec 6) (hdr : BitVec 64)
  /-- SEQ_FORK (R148). Creates a destination sequence mapping the source's pages below fork_len, raising each page's refcount. -/
  | seqFork (port : Port) (slot : BitVec 6) (hdr : BitVec 64)
  /-- SEQ_FREE (R131). Removes every page entry of a sequence, quarantines its nodes and frees the descriptor. -/
  | seqFree (port : Port) (slot : BitVec 6) (hdr : BitVec 64)
  /-- SEQ_TRUNCATE (R132). Removes the entries of pages at or above new_length and optionally replaces the waymark list. -/
  | seqTruncate (port : Port) (slot : BitVec 6) (hdr : BitVec 64)
  /-- PREFIX_LOOKUP (R144). Looks up published prefix pages page by page, verifying key words, and with MAP maps the matches into the target sequence. -/
  | prefixLookup (port : Port) (slot : BitVec 6) (hdr : BitVec 64)
  /-- PREFIX_PUBLISH (R145). Publishes pages of a source sequence as new LIVE spine nodes, taking a set reference on each page. -/
  | prefixPublish (port : Port) (slot : BitVec 6) (hdr : BitVec 64)
  /-- PREFIX_WITHDRAW (R156). PREFIX_PUBLISH with WITHDRAW marks the parent node STALE and retires it when its children count is 0. -/
  | prefixWithdraw (port : Port) (slot : BitVec 6) (hdr : BitVec 64)
  /-- KV_DEMOTE (R133). Moves the selected near pages with pin 0 to the far tier. -/
  | kvDemote (port : Port) (slot : BitVec 6) (hdr : BitVec 64)
  /-- KV_PROMOTE (R133). Moves the selected far pages with pin 0 to the near tier. -/
  | kvPromote (port : Port) (slot : BitVec 6) (hdr : BitVec 64)
  /-- KV_RECOMPUTE_LIST (R134). Writes recompute records of DROPPED pages from a cursor to the long reply. -/
  | kvRecomputeList (port : Port) (slot : BitVec 6) (hdr : BitVec 64)
  /-- ATTN_FWD (R98). Runs forward attention over KV pages with masks, splits and the fixed combine tree. -/
  | attnFwd (port : Port) (slot : BitVec 6) (hdr : BitVec 64)
  /-- ATTN_BWD (R99). Runs backward attention producing dQ, dK and dV from recomputed probabilities. -/
  | attnBwd (port : Port) (slot : BitVec 6) (hdr : BitVec 64)
  /-- PROJ (R100). Multiplies activations by projection weights, applies rotary encoding and optionally appends keys and values to KV pages. -/
  | proj (port : Port) (slot : BitVec 6) (hdr : BitVec 64)
  /-- MATMUL (R330). Forms C = A·B or C + A·B with splits, fused operation and optional row reduction. -/
  | matmul (port : Port) (slot : BitVec 6) (hdr : BitVec 64)
  /-- PLAN_LOAD (R212). Checks a plan image section by section and copies it into the plan store. -/
  | planLoad (port : Port) (slot : BitVec 6) (hdr : BitVec 64)
  /-- PLAN_UNLOAD (R212). PLAN_LOAD with UNLOAD removes a loaded plan that no unfinished command uses. -/
  | planUnload (port : Port) (slot : BitVec 6) (hdr : BitVec 64)
  /-- STREAM_ARM (R214). Runs one queue of a plan by itself on a named scratchpad, parking it at the end under PERSIST. -/
  | streamArm (port : Port) (slot : BitVec 6) (hdr : BitVec 64)
  /-- STREAM_REARM (R215). Restarts a PARKED stream at descriptor 0 with new parameters. -/
  | streamRearm (port : Port) (slot : BitVec 6) (hdr : BitVec 64)
  /-- STREAM_HALT (R216). Stops a RUNNING or FAULTED stream at its next tile boundary, writes its resume record and releases its footprint. -/
  | streamHalt (port : Port) (slot : BitVec 6) (hdr : BitVec 64)
  /-- UPD_PROGRAM_LOAD (R264). Checks an update program and writes it into a program slot of every update unit. -/
  | updProgramLoad (port : Port) (slot : BitVec 6) (hdr : BitVec 64)
  /-- UPD_STEP (R270). Runs a loaded update program over every present parameter row on its owning update unit. -/
  | updStep (port : Port) (slot : BitVec 6) (hdr : BitVec 64)
  /-- UPD_ROW_COMMIT (R273). When the last write of a row's group completes, the row is committed, held reads are released and the unit's cursor advances. -/
  | updRowCommit (stack : BitVec 5)
  /-- UPD_MUL (R262). Update operation: ra × rb rounded to FP32. -/
  | updMul (stack : BitVec 5) (rd ra rb rc : BitVec 5)
  /-- UPD_ADD (R262). Update operation: ra + rb rounded to FP32. -/
  | updAdd (stack : BitVec 5) (rd ra rb rc : BitVec 5)
  /-- UPD_FMA (R262). Update operation: ra × rb + rc rounded once. -/
  | updFma (stack : BitVec 5) (rd ra rb rc : BitVec 5)
  /-- UPD_SQRT (R262). Update operation: square root of ra. -/
  | updSqrt (stack : BitVec 5) (rd ra rb rc : BitVec 5)
  /-- UPD_RSQRT (R262). Update operation: reciprocal square root of ra. -/
  | updRsqrt (stack : BitVec 5) (rd ra rb rc : BitVec 5)
  /-- UPD_DIV (R262). Update operation: ra ÷ rb as IEEE division. -/
  | updDiv (stack : BitVec 5) (rd ra rb rc : BitVec 5)
  /-- UPD_MAX (R262). Update operation: the larger of ra and rb, NaN winning. -/
  | updMax (stack : BitVec 5) (rd ra rb rc : BitVec 5)
  /-- UPD_SEL (R262). Update operation: rb when ra > +0.0, otherwise rc. -/
  | updSel (stack : BitVec 5) (rd ra rb rc : BitVec 5)
  /-- UPD_RNDR (R262). Update operation: the value ra takes when stored as the parameter, widened to FP32. -/
  | updRndr (stack : BitVec 5) (rd ra rb rc : BitVec 5)
  /-- LINK_STATUS (R295). Writes a link record for each selected kettle port and optionally acknowledges CHANGED. -/
  | linkStatus (port : Port) (slot : BitVec 6) (hdr : BitVec 64)
  /-- LINK_ATTACH (R293). Moves an OFF kettle port to DETECT with its peer expectations. -/
  | linkAttach (port : Port) (slot : BitVec 6) (hdr : BitVec 64)
  /-- LINK_DETACH (R294). Removes a kettle port from routing, drains it and takes it to OFF, or at once with FORCE. -/
  | linkDetach (port : Port) (slot : BitVec 6) (hdr : BitVec 64)
  /-- FW_LOAD (R363). Verifies a firmware image from host memory and stores it in bank 0 in state LOAD. -/
  | fwLoad (port : Port) (slot : BitVec 6) (hdr : BitVec 64)
  /-- FW_START (R364). Starts the processors from the loaded images and completes when the device reaches READY. -/
  | fwStart (port : Port) (slot : BitVec 6) (hdr : BitVec 64)
  /-- FW_HANDOVER (R376). Verifies new images into the idle banks and replaces running firmware through freeze and the handover record. -/
  | fwHandover (port : Port) (slot : BitVec 6) (hdr : BitVec 64)
  /-- LOG_READ (R382). Copies log records from a serial onward to the long reply. -/
  | logRead (port : Port) (slot : BitVec 6) (hdr : BitVec 64)
  /-- LOG_STATUS (R383). LOG_READ with STATUS writes the firmware status block. -/
  | logStatus (port : Port) (slot : BitVec 6) (hdr : BitVec 64)
  /-- TRACE_CTL_ENABLE (R385). Enables the trace points in the given ID ranges. -/
  | traceCtlEnable (port : Port) (slot : BitVec 6) (hdr : BitVec 64)
  /-- TRACE_CTL_DISABLE (R385). Disables the trace points in the given ID ranges. -/
  | traceCtlDisable (port : Port) (slot : BitVec 6) (hdr : BitVec 64)
  /-- TRACE_CTL_DISABLE_ALL (R385). Disables every trace point. -/
  | traceCtlDisableAll (port : Port) (slot : BitVec 6) (hdr : BitVec 64)
  /-- TRACE_CTL_COUNT (R385). Returns the number of enabled trace IDs. -/
  | traceCtlCount (port : Port) (slot : BitVec 6) (hdr : BitVec 64)
  /-- PWR_MODE_QUERY (R397). Returns the effective and ceiling envelopes and limits, clock step, clusters in K0 and power. -/
  | pwrModeQuery (port : Port) (slot : BitVec 6) (hdr : BitVec 64)
  /-- PWR_MODE_SET (R397). Sets the effective, and from the management port also the ceiling, envelope and junction limit. -/
  | pwrModeSet (port : Port) (slot : BitVec 6) (hdr : BitVec 64)
  /-- PWR_HINT_SET (R396). Replaces a hint entry with a time and cluster count at which work is expected. -/
  | pwrHintSet (port : Port) (slot : BitVec 6) (hdr : BitVec 64)
  /-- PWR_HINT_CLEAR (R396). Removes one hint entry. -/
  | pwrHintClear (port : Port) (slot : BitVec 6) (hdr : BitVec 64)
  /-- PWR_HINT_CLEAR_ALL (R396). Removes every hint entry. -/
  | pwrHintClearAll (port : Port) (slot : BitVec 6) (hdr : BitVec 64)
  /-- HINT_EXPIRY (R396). A hint entry leaves the table when its time passes. -/
  | hintExpiry (index : BitVec 3)
  /-- FAULT_FETCH (R253). Copies the oldest fault records to the long reply and frees their queue slots. -/
  | faultFetch (port : Port) (slot : BitVec 6) (hdr : BitVec 64)
  /-- FAULT_RESOLVE (R254). Invalidates translations of a range, waits for transfers under them, then applies RETRY, NO_MAPPING or ABORT answers to pending faults. -/
  | faultResolve (port : Port) (slot : BitVec 6) (hdr : BitVec 64)
  /-- ERR_FETCH (R420). Copies the oldest unfetched error records to the long reply and marks them fetched. -/
  | errFetch (port : Port) (slot : BitVec 6) (hdr : BitVec 64)
  /-- ERR_FETCH_COUNTERS (R421). ERR_FETCH with COUNTERS writes the error counter block. -/
  | errFetchCounters (port : Port) (slot : BitVec 6) (hdr : BitVec 64)
  /-- ERR_CLEAR (R422). Removes fetched error records up to a serial and optionally clears counts and the lost count. -/
  | errClear (port : Port) (slot : BitVec 6) (hdr : BitVec 64)
  /-- SESSION_OPEN (R336). Opens a session with an address space, kind, flags and ring group. -/
  | sessionOpen (port : Port) (slot : BitVec 6) (hdr : BitVec 64)
  /-- SESSION_ADOPT (R353). SESSION_OPEN with ADOPT reopens an ADOPTABLE session and resumes its held commands. -/
  | sessionAdopt (port : Port) (slot : BitVec 6) (hdr : BitVec 64)
  /-- SESSION_CLOSE (R337). Closes a session, or discards an ADOPTABLE session and its held commands. -/
  | sessionClose (port : Port) (slot : BitVec 6) (hdr : BitVec 64)
  /-- LEASE_RENEW (R350). Renews the host lease, returning a LAPSED lease to HELD. -/
  | leaseRenew (port : Port) (slot : BitVec 6) (hdr : BitVec 64)
  /-- ATTACH (R352). A new driver takes the lease, makes sessions ADOPTABLE, requeues fetched faults and writes the orphan report. -/
  | attach (port : Port) (slot : BitVec 6) (hdr : BitVec 64)
  /-- NOP (R331). Completes at once with the device timebase. -/
  | nop (port : Port) (slot : BitVec 6) (hdr : BitVec 64)
  /-- DEBUG_UNLOCK (R380). A committed FW_DEBUG_CTL of 1 from the management port makes the security core unlock the debug port. -/
  | debugUnlock
  /-- DEBUG_LOCK (R380). A committed FW_DEBUG_CTL of 2 makes the security core lock the debug port. -/
  | debugLock
  /-- ENTDAA (R323). I3C dynamic address assignment of the management port target. -/
  | entdaa (address : BitVec 7)
  /-- RSTDAA (R323). I3C reset of the dynamic address. -/
  | rstdaa
  /-- GETPID (R323). I3C CCC returning the provisional ID. -/
  | getpid
  /-- GETBCR (R323). I3C CCC returning the bus characteristics register. -/
  | getbcr
  /-- GETDCR (R323). I3C CCC returning the device characteristics register. -/
  | getdcr
  /-- GETSTATUS (R323). I3C CCC returning target status. -/
  | getstatus
  /-- GETMXDS (R323). I3C CCC returning maximum data speed. -/
  | getmxds
  /-- I3C_PRIVATE_WRITE (R323). A management private write sets the window offset and writes 4-byte units into the management view, or is discarded. -/
  | i3cPrivateWrite (bytes : List Byte)
  /-- BYPASS (R324). Debug TAP bypass instruction. -/
  | bypass (tdi : Bool)
  /-- IDCODE (R324). Debug TAP instruction returning the ID code with the member code. -/
  | idcode
  /-- DBG_SLOT_CAPTURE (R324). Capture loads the DBG_SLOT data register from the debug slot's mirror. -/
  | dbgSlotCapture
  /-- DBG_SLOT_UPDATE (R324). Update writes the DBG_SLOT register into the debug slot, handing it over when OWN is 1. -/
  | dbgSlotUpdate (scanned : SlotWord)
  /-- COMMAND_PLACE (R338). The scheduler places the lowest-key waiting command on clusters its footprint allows, preempting a victim when needed. -/
  | commandPlace
  /-- PLAN_STEP_START (R60). A cluster begins a plan step once its combine reservations and pinned descriptors are in place, starting with ripple-in. -/
  | planStepStart (cluster : BitVec 5)
  /-- PLAN_STEP_COMMIT (R366). At a step's end the control core writes the step record STAGED and issues the drain of staged stores. -/
  | planStepCommit (cluster : BitVec 5)
  /-- DRAIN_DONE (R366). When the drain sets drain-done, the step record is written DRAINED and the step counts as committed. -/
  | drainDone (cluster : BitVec 5) (record : BitVec 2)
  /-- COMBINE_NODE (R87). A combine node is formed when both child partials are present. -/
  | combineNode (cluster : BitVec 5) (level : BitVec 4) (first : BitVec 10)
  /-- ALLOC_WAIT_SATISFIED (R119). A waiting allocation takes a frame freed by a demotion or drop. -/
  | allocWaitSatisfied
  /-- ALLOC_TIMEOUT (R119). An allocation still waiting after PGK_ALLOC_WAIT fails and the writing command completes ABORTED_FAULT. -/
  | allocTimeout
  /-- MOVE_COMMIT (R123). A demotion or promotion finishes its copy, sets frame and TIER atomically and returns the old frame. -/
  | moveCommit (page : BitVec 32)
  /-- RESTORE_COMPLETE (R125). A restoration ends, clearing RESTORING and releasing the waiting plan step, or leaving the page DROPPED with a DEFERRED record. -/
  | restoreComplete (page : BitVec 32)
  /-- FAR_REMOVAL_REPORT (R128). Each page keeper drops or aborts moves of every page with a far frame on a removed module. -/
  | farRemovalReport (module : BitVec 4)
  /-- ENUMERATED (R236). A far module event makes an EMPTY slot ONLINE with its capacity and width. -/
  | enumerated (event : BitVec 64)
  /-- LINK_DOWN (R236). A far module event makes the slot EMPTY and reports removal to the page keepers. -/
  | linkDown (event : BitVec 64)
  /-- REMOVED (R236). A surprise-removal event makes the slot EMPTY and reports removal to the page keepers. -/
  | removed (event : BitVec 64)
  /-- FAR_EVENT_RESERVED (R237). A reserved or malformed far module event is acknowledged and recorded as FAR_DUPLICATE. -/
  | farEventReserved (event : BitVec 64)
  /-- EVACUATION_END (R239). When no page keeper holds a page on the module, the slot becomes EMPTY with EVAC_DONE set. -/
  | evacuationEnd (module : BitVec 4)
  /-- EVAC_TIMEOUT (R236). XLT_EVAC_TIMEOUT passing in EVACUATING makes the slot EMPTY and reports removal. -/
  | evacTimeout (module : BitVec 4)
  /-- WALK_END (R246). A translation walk ends, filling caches and releasing waiters or moving them to a pending fault and the fault queue. -/
  | walkEnd (die : BitVec 3) (entry : BitVec 6)
  /-- TRANSFER_COMPLETE (R192). A stream transfer completes, delivering its tile in order when all its words are written or accepted. -/
  | transferComplete (core : BitVec 8) (queue : BitVec 3) (index : BitVec 6) (flip : List Granule)
  /-- BASKET_ARRIVAL (R203). A fetched basket of descriptors arrives and is checked. -/
  | basketArrival (core : BitVec 8) (queue : BitVec 3)
  /-- TAGGED_ACCESS_ADMIT (R169). A tagged access blocked on a slot tag is admitted when the tag changes. -/
  | taggedAccessAdmit (core : BitVec 8) (queue : BitVec 3)
  /-- HANG (R172). A stall timer passes the stall budget; the plan step is abandoned and the command completes ABORTED_FAULT. -/
  | hang (core : BitVec 8) (queue : BitVec 3)
  /-- ORDINARY_REMOTE_WRITE (R177). An ordinary remote write request writes its words and adds its count to the named arrival counter. -/
  | ordinaryRemoteWrite (src : BitVec 16) (req : Word128) (data : List (Word128 × Bool))
  /-- PRIVILEGED_REMOTE_WRITE (R183). A privileged write is checked against its window and either written and acknowledged or refused. -/
  | privilegedRemoteWrite (src : BitVec 16) (req : Word128) (data : List (Word128 × Bool))
  /-- WRITE_ACK (R176). The sender receives the acknowledgement of an applied privileged write. -/
  | writeAck
  /-- WRITE_NAK (R176). The sender receives a negative acknowledgement of a refused remote write. -/
  | writeNak
  /-- WINDOW_CLOSE_COMPLETE (R183). A CLOSING window whose in-flight writes reach 0 becomes CLOSED and advances its generation. -/
  | windowCloseComplete (core : BitVec 8) (win : BitVec 3)
  /-- WINDOW_REOPEN (R185). A waiting OPEN takes effect once 39 ticks have passed since the window closed. -/
  | windowReopen (core : BitVec 8) (win : BitVec 3)
  /-- HANDOFF_DATA_NOTICE (R187). After the last word of a handoff unit is accepted, a DATA notice is posted to the vector engine. -/
  | handoffDataNotice (core : BitVec 8) (queue : BitVec 3)
  /-- MULTICAST_BROADCAST (R222). A tile fetched into the multicast ring is broadcast to every attached receiver. -/
  | multicastBroadcast (cluster : BitVec 5) (group : BitVec 2)
  /-- MULTICAST_DETACH (R224). A receiver whose hold timer reaches the detach budget is detached and continues by unicast. -/
  | multicastDetach (cluster : BitVec 5) (group : BitVec 2) (receiver : BitVec 3)
  /-- ADD (R201). Stream code: rd = sa + sb. -/
  | add (core : BitVec 8) (queue : BitVec 3) (rd : BitVec 4) (sa sb : BitVec 5)
  /-- SUB (R201). Stream code: rd = sa − sb. -/
  | sub (core : BitVec 8) (queue : BitVec 3) (rd : BitVec 4) (sa sb : BitVec 5)
  /-- MUL (R201). Stream code: low 64 bits of sa × sb. -/
  | mul (core : BitVec 8) (queue : BitVec 3) (rd : BitVec 4) (sa sb : BitVec 5)
  /-- AND (R201). Stream code: bitwise AND. -/
  | and (core : BitVec 8) (queue : BitVec 3) (rd : BitVec 4) (sa sb : BitVec 5)
  /-- OR (R201). Stream code: bitwise OR. -/
  | or (core : BitVec 8) (queue : BitVec 3) (rd : BitVec 4) (sa sb : BitVec 5)
  /-- XOR (R201). Stream code: bitwise XOR. -/
  | xor (core : BitVec 8) (queue : BitVec 3) (rd : BitVec 4) (sa sb : BitVec 5)
  /-- MIN (R201). Stream code: unsigned minimum. -/
  | min (core : BitVec 8) (queue : BitVec 3) (rd : BitVec 4) (sa sb : BitVec 5)
  /-- MAX (R201). Stream code: unsigned maximum. -/
  | max (core : BitVec 8) (queue : BitVec 3) (rd : BitVec 4) (sa sb : BitVec 5)
  /-- ADDI (R201). Stream code: add immediate. -/
  | addi (core : BitVec 8) (queue : BitVec 3) (rd : BitVec 4) (sa : BitVec 5) (imm : BitVec 17)
  /-- MULI (R201). Stream code: multiply by immediate. -/
  | muli (core : BitVec 8) (queue : BitVec 3) (rd : BitVec 4) (sa : BitVec 5) (imm : BitVec 17)
  /-- SHLI (R201). Stream code: shift left by immediate. -/
  | shli (core : BitVec 8) (queue : BitVec 3) (rd : BitVec 4) (sa : BitVec 5) (imm : BitVec 17)
  /-- SHRI (R201). Stream code: logical shift right by immediate. -/
  | shri (core : BitVec 8) (queue : BitVec 3) (rd : BitVec 4) (sa : BitVec 5) (imm : BitVec 17)
  /-- ANDI (R201). Stream code: AND with zero-extended immediate. -/
  | andi (core : BitVec 8) (queue : BitVec 3) (rd : BitVec 4) (sa : BitVec 5) (imm : BitVec 17)
  /-- LDS (R201). Stream code: load 8 bytes of an own scratchpad word, untagged. -/
  | lds (core : BitVec 8) (queue : BitVec 3) (rd : BitVec 4) (sa : BitVec 5) (imm : BitVec 17)
  /-- BZ (R201). Stream code: skip forward when sa is 0. -/
  | bz (core : BitVec 8) (queue : BitVec 3) (rd : BitVec 4) (sa : BitVec 5) (imm : BitVec 17)
  /-- BNZ (R201). Stream code: skip forward when sa is nonzero. -/
  | bnz (core : BitVec 8) (queue : BitVec 3) (rd : BitVec 4) (sa : BitVec 5) (imm : BitVec 17)
  /-- EMIT (R201). Tile operation: moves the tile between a memory address and a scratchpad word. -/
  | emit (core : BitVec 8) (queue : BitVec 3) (rd : BitVec 4) (sa sb : BitVec 5)
  /-- EMPTY (R201). Tile operation: delivers the tile as padding or writes nothing, using the slot. -/
  | empty (core : BitVec 8) (queue : BitVec 3) (rd : BitVec 4) (sa : BitVec 5) (imm : BitVec 17)
  /-- SKIP (R201). Tile operation: the tile counts as delivered with no slot, semaphore or tag action. -/
  | skip (core : BitVec 8) (queue : BitVec 3) (rd : BitVec 4) (sa : BitVec 5) (imm : BitVec 17)
  /-- CWAIT (R201). Stream code: waits until an arrival counter's count reaches a value. -/
  | cwait (core : BitVec 8) (queue : BitVec 3) (rd : BitVec 4) (sa : BitVec 5) (imm : BitVec 17)
  /-- CWAIT_RELEASE (R179). A CWAIT is released in the cycle after its comparison first holds. -/
  | cwaitRelease (core : BitVec 8) (queue : BitVec 3)
  /-- CSET (R201). Stream code: sets an arrival counter's count and clears OVF. -/
  | cset (core : BitVec 8) (queue : BitVec 3) (rd : BitVec 4) (sa : BitVec 5) (imm : BitVec 17)
  /-- CSUB (R201). Stream code: subtracts from an arrival counter's count, not below 0. -/
  | csub (core : BitVec 8) (queue : BitVec 3) (rd : BitVec 4) (sa : BitVec 5) (imm : BitVec 17)
  /-- CARM (R201). Stream code: arms an arrival counter with target, fill range and RELOAD. -/
  | carm (core : BitVec 8) (queue : BitVec 3) (rd : BitVec 4) (sa : BitVec 5) (imm : BitVec 17)
  /-- WOPEN (R201). Stream code: opens a window with base, limit and writer bits. -/
  | wopen (core : BitVec 8) (queue : BitVec 3) (rd : BitVec 4) (sa : BitVec 5) (imm : BitVec 17)
  /-- WCLOSE (R201). Stream code: closes a window. -/
  | wclose (core : BitVec 8) (queue : BitVec 3) (rd : BitVec 4) (sa : BitVec 5) (imm : BitVec 17)
  /-- WWAIT (R201). Stream code: waits until a window is CLOSED. -/
  | wwait (core : BitVec 8) (queue : BitVec 3) (rd : BitVec 4) (sa : BitVec 5) (imm : BitVec 17)
  /-- WWAIT_RELEASE (R202). A WWAIT is released when its window reaches CLOSED. -/
  | wwaitRelease (core : BitVec 8) (queue : BitVec 3)
  /-- SWAIT (R201). Stream code: takes one from a semaphore count, waiting while it is 0. -/
  | swait (core : BitVec 8) (queue : BitVec 3) (rd : BitVec 4) (sa : BitVec 5) (imm : BitVec 17)
  /-- SWAIT_RELEASE (R205). A waiting semaphore take proceeds when a post makes its count nonzero. -/
  | swaitRelease (core : BitVec 8) (queue : BitVec 3)
  /-- SPOST (R201). Stream code: adds one to a semaphore count, over-posts being a fault. -/
  | spost (core : BitVec 8) (queue : BitVec 3) (rd : BitVec 4) (sa : BitVec 5) (imm : BitVec 17)
  /-- VCRED (R201). Stream code: posts a CREDIT handoff notice to a vector engine. -/
  | vcred (core : BitVec 8) (queue : BitVec 3) (rd : BitVec 4) (sa sb : BitVec 5)
  /-- RING_REQ (R16). A die-ring REQ flit carrying request descriptors is received. -/
  | ringReq (die : BitVec 3) (up : Bool) (hdr : BitVec 32) (granules : List Granule)
  /-- RING_DATA (R16). A die-ring DATA flit carrying data words is received. -/
  | ringData (die : BitVec 3) (up : Bool) (hdr : BitVec 32) (granules : List Granule)
  /-- RING_WRITE (R16). A die-ring WRITE flit carrying an address and data words is received. -/
  | ringWrite (die : BitVec 3) (up : Bool) (hdr : BitVec 32) (granules : List Granule)
  /-- RING_ACK (R16). A die-ring ACK flit acknowledges flits received in order. -/
  | ringAck (die : BitVec 3) (up : Bool) (hdr : BitVec 32) (granules : List Granule)
  /-- RING_NAK (R17). A die-ring NAK flit makes the sender replay from the named flit. -/
  | ringNak (die : BitVec 3) (up : Bool) (hdr : BitVec 32) (granules : List Granule)
  /-- RING_CREDIT (R16). A die-ring CREDIT flit returns per-channel credits. -/
  | ringCredit (die : BitVec 3) (up : Bool) (hdr : BitVec 32) (granules : List Granule)
  /-- RING_IDLE (R16). A die-ring IDLE flit is received. -/
  | ringIdle (die : BitVec 3) (up : Bool) (hdr : BitVec 32) (granules : List Granule)
  /-- RING_RESERVED_FLIT (R17). A flit with a reserved type, a failed hcrc or an uncorrectable granule is discarded and NAK sent. -/
  | ringReservedFlit (die : BitVec 3) (up : Bool) (hdr : BitVec 32) (granules : List Granule)
  /-- RING_LINK_DOWN (R17). A flit that fails eight replays takes its die-ring link out of service and reroutes traffic. -/
  | ringLinkDown (die : BitVec 3) (up : Bool)
  /-- KTL_IDLE (R284). A kettle IDLE frame carrying only ack is received. -/
  | ktlIdle (port : BitVec 2) (frame : List Granule)
  /-- DATA_WIN (R301). A kettle DATA_WIN frame is written through a window as a privileged write. -/
  | dataWin (port : BitVec 2) (frame : List Granule)
  /-- DATA_RING (R300). A kettle DATA_RING frame is written into the staging half at its frame index. -/
  | dataRing (port : BitVec 2) (frame : List Granule)
  /-- KTL_CREDIT (R298). A kettle CREDIT frame grants a window or ring credit and is checked for ring sequence and digest. -/
  | ktlCredit (port : BitVec 2) (frame : List Granule)
  /-- DONE (R300). A kettle DONE frame reports a transfer written at the receiver. -/
  | done (port : BitVec 2) (frame : List Granule)
  /-- REFUSE (R301). A kettle REFUSE frame reports a refused window write and aborts the sender's command. -/
  | refuse (port : BitVec 2) (frame : List Granule)
  /-- ECHO (R386). A CTRL ECHO message is answered with ECHO_REPLY. -/
  | echo (port : BitVec 2) (frame : List Granule)
  /-- ECHO_REPLY (R386). A CTRL ECHO_REPLY message is received. -/
  | echoReply (port : BitVec 2) (frame : List Granule)
  /-- CLOCK (R386). A CTRL CLOCK message is logged as a PKG_CLOCK record. -/
  | clock (port : BitVec 2) (frame : List Granule)
  /-- KTL_NAK (R286). A LINK NAK frame makes the sender replay from the named seq. -/
  | ktlNak (port : BitVec 2) (frame : List Granule)
  /-- DETACH (R288). A LINK DETACH frame from the peer takes the port to OFF after its replay buffer drains, sending DETACH_ACK. -/
  | detach (port : BitVec 2) (frame : List Granule)
  /-- DETACH_ACK (R288). A LINK DETACH_ACK frame takes a draining port to OFF. -/
  | detachAck (port : BitVec 2) (frame : List Granule)
  /-- IDENT (R290). A peer's IDENT frame is checked and moves the port to ACTIVE or MISMATCH. -/
  | ident (port : BitVec 2) (frame : List Granule)
  /-- TOPO (R291). A TOPO frame's link map is applied and routes recomputed. -/
  | topo (port : BitVec 2) (frame : List Granule)
  /-- KTL_RESERVED_FRAME (R286). A frame with a reserved type, uncorrectable granule or unexpected seq is discarded and LINK NAK sent. -/
  | ktlReservedFrame (port : BitVec 2) (frame : List Granule)
  /-- KTL_FORWARD (R292). A frame for another package is forwarded by the kettle link units alone. -/
  | ktlForward (port : BitVec 2) (frame : List Granule)
  /-- SIGNAL_DETECT (R288). Signal on at least 8 lanes moves a port from DETECT to TRAIN. -/
  | signalDetect (port : BitVec 2) (lanes : BitVec 16)
  /-- LANE_LOCK (R288). Lane code lock and deskew move a port from TRAIN to IDENT. -/
  | laneLock (port : BitVec 2) (lanes inverted : BitVec 16) (reversed : Bool)
  /-- IDENT_RESEND (R288). In IDENT a port sends an IDENT frame every 1 µs. -/
  | identResend (port : BitVec 2)
  /-- TRAIN_TIMEOUT (R288). 50 ms without lock returns a port to DETECT, the third failure to FAILED. -/
  | trainTimeout (port : BitVec 2)
  /-- IDENT_TIMEOUT (R288). 100 µs without a valid IDENT returns a port to DETECT. -/
  | identTimeout (port : BitVec 2)
  /-- LOCK_LOST (R288). Loss of lane lock moves an ACTIVE port to RETRAIN. -/
  | lockLost (port : BitVec 2)
  /-- REPLAY_LIMIT (R286). A frame failing eight replays moves the port to RETRAIN with a CONTAINED record. -/
  | replayLimit (port : BitVec 2)
  /-- RETRAIN_TIMEOUT (R288). 5 ms in RETRAIN without success moves the port to DETECT as a lost link. -/
  | retrainTimeout (port : BitVec 2)
  /-- DRAIN_TIMEOUT (R288). 1 ms in DRAIN without DETACH_ACK moves the port to OFF. -/
  | drainTimeout (port : BitVec 2)
  /-- RETRAIN_HOLD_EXPIRY (R302). KTL_RETRAIN_HOLD passing in RETRAIN removes the port from routing and aborts commands with lost frames. -/
  | retrainHoldExpiry (port : BitVec 2)
  /-- E2E_TIMEOUT (R300). KTL_E2E_TIMEOUT passing while waiting for a credit, DONE or block completes the command ABORTED_LINK. -/
  | e2eTimeout (slot : BitVec 6)
  /-- SLACK_CHECK (R342). At a step commit or every 10 µs the scheduler estimates a deadline command's slack and records DEADLINE_AT_RISK. -/
  | slackCheck (slot : BitVec 6)
  /-- DEADLINE_MISS (R344). The deadline compare fires; the miss is recorded and DROP_ON_MISS stops the command. -/
  | deadlineMiss (slot : BitVec 6)
  /-- LEASE_EXPIRY (R350). The lease expiry passes and the lease becomes LAPSED, pausing plan steps and host writes. -/
  | leaseExpiry
  /-- GRACE_EXPIRY (R350). The grace period passes and the device and its sessions become ORPHANED. -/
  | graceExpiry
  /-- ADOPTION_WINDOW_EXPIRY (R352). The adoption window passes and every session still ADOPTABLE is discarded. -/
  | adoptionWindowExpiry
  /-- WATCHDOG_KICK (R357). A processor writes its kick register, restarting its watchdog; stray kicks are counted. -/
  | watchdogKick (proc : BitVec 6)
  /-- WATCHDOG_EXPIRY (R357). A watchdog reaching its period without a kick crashes its processor. -/
  | watchdogExpiry (proc : BitVec 6) (pc : BitVec 64)
  /-- TRAP (R357). An unhandled trap, or a trap in the trap handler, crashes the processor. -/
  | trap (proc : BitVec 6) (pc : BitVec 64) (inHandler : Bool)
  /-- HALT_WRITE (R357). An image writing its halt register crashes the processor with cause ASSERT. -/
  | haltWrite (proc : BitVec 6) (pc : BitVec 64)
  /-- LOCAL_MEMORY_UE (R357). An uncorrectable error in firmware local memory crashes the processor with cause MEMORY. -/
  | localMemoryUe (proc : BitVec 6) (pc : BitVec 64)
  /-- CCC_RESTART (R369). A crashed cluster control core is reloaded, restores its record slots and replays from the last commit. -/
  | cccRestart (cluster : BitVec 5)
  /-- SCH_RESTART (R370). A crashed scheduler core is reloaded and rebuilds its tables from the journal, slots and step records. -/
  | schRestart
  /-- PWR_RESTART (R371). A crashed power-management core is reloaded and resumes control from envelope, sensors and counters. -/
  | pwrRestart
  /-- SEC_RESTART (R372). Island hardware resets the crashed security core, which restarts from its retained image and returns the device to READY. -/
  | secRestart
  /-- PROBATION_END (R378). 1 s after a handover, a new image leaves probation. -/
  | probationEnd (kind : BitVec 2)
  /-- ISLAND_POWER_ON (R365). The management island starts, the timebase starts at 0 and the security core ROM enters LOAD. -/
  | islandPowerOn
  /-- CLUSTER_IDLE (R390). A cluster with nothing to run enters K1. -/
  | clusterIdle (cluster : BitVec 5)
  /-- STATE_CHOICE (R395). Power firmware chooses the deepest state whose wake and break-even fit before the next known event. -/
  | stateChoice
  /-- WAKE_START (R395). The armed wake-start compare fires and clusters are woken. -/
  | wakeStart
  /-- WAKE_REQUEST (R393). A wake request brings the needed domains and clusters up, reversing any entry in progress. -/
  | wakeRequest (clusters : BitVec 32) (dieCommonOnly : Bool)
  /-- SELF_REFRESH_GRANT (R390). The package power controller grants or refuses self-refresh of the stacks for entry to K5. -/
  | selfRefreshGrant (granted : Bool)
  /-- SELF_REFRESH_WITHDRAWN (R404). The package withdraws its self-refresh grant and the device wakes to K4. -/
  | selfRefreshWithdrawn
  /-- POWER_SAMPLE (R399). Every 10 µs firmware samples package power and steps cluster clocks to stay within the envelope. -/
  | powerSample (avg100us avg1ms projected : Nat) (busiest : BitVec 32)
  /-- ADAPTATION (R402). Power firmware adapts clock steps, gating, demotion thresholds and multicast group size from measured counters. -/
  | adaptation (busy stall cycles : Nat) (cluster : BitVec 5)
  /-- LIMITER_SAMPLE (R401). Every 1 µs the hardware thermal limiter reads its sensors and caps or stops cluster clocks. -/
  | limiterSample (cluster die : List Nat) (island : Nat) (power1us : Nat)
  /-- SCRUB (R409). A memory-side unit reads a granule of its stack in idle cycles and writes it back corrected or as poison. -/
  | scrub (stack : BitVec 5) (granule : BitVec 48) (flip : Granule)
  /-- ARRAY_PARITY (R65). A parity or uncorrectable accumulator error discards the plan step on that core for replay, three times aborting the command. -/
  | arrayParity (core : BitVec 8) (correctable : Bool)
  /-- LEASE_NEAR_EXPIRY (R350). When a HELD lease has less than a quarter of its period left, the LEASE reason bit sets and the interim status of every firmware-owned slot is refreshed. -/
  | leaseNearExpiry
  /-- STATE_ENTRY_COMPLETE (R389). An entry into K2 to K5, for example the spill into K4, completes and the device or cluster is in the new state. -/
  | stateEntryComplete (cluster : BitVec 5)
  /-- WAKE_COMPLETE (R393). A wake completes with the affected clusters restored to K0 at their clock step, releasing placement, held kettle frames, held far-module events and queued log records. -/
  | wakeComplete
  deriving DecidableEq, Repr

end Sys2Proof
end

