-- ==== Sys2Proof/Machine/Code.lean ====
section
/-! DEFINITION. The 144/128 code of every granule (spec/16_errors.md R405 to R407) and the CRC-8 of die-ring flit
headers (spec/01_organisation.md R16). -/
namespace Sys2Proof.Machine

/-- Multiplication by α in GF(16) under x⁴ + x + 1 (R405). -/
def gfTimesAlpha (x : Nat) : Nat := if x < 8 then x * 2 else (x * 2 - 16) ^^^ 3

/-- Multiplication in GF(16), the bits of `b` taken from the most significant down (R405). -/
def gfMul (a b : Nat) : Nat :=
  let step (acc : Nat) (i : Nat) : Nat := gfTimesAlpha acc ^^^ (if b.testBit i then a else 0)
  step (step (step (step 0 3) 2) 1) 0

/-- A column or syndrome: four elements of GF(16). -/
abbrev GfVec := Nat × Nat × Nat × Nat

/-- The sum of two vectors over GF(16). -/
def gfAdd (x y : GfVec) : GfVec := (x.1 ^^^ y.1, x.2.1 ^^^ y.2.1, x.2.2.1 ^^^ y.2.2.1, x.2.2.2 ^^^ y.2.2.2)

/-- A multiple of a vector over GF(16). -/
def gfScale (e : Nat) (h : GfVec) : GfVec := (gfMul e h.1, gfMul e h.2.1, gfMul e h.2.2.1, gfMul e h.2.2.2)

/-- The pair (a, b) of a data symbol (table of R405). -/
def columnParams (i : Nat) : Nat × Nat :=
  if i ≤ 13 then (i + 2, 0) else if i ≤ 20 then (i - 13, 1) else if i ≤ 27 then (i - 12, 1)
  else if i ≤ 30 then (i - 28, 2) else (4, 2)

/-- The column of a symbol (R405). -/
def column (i : Nat) : GfVec :=
  match i with
  | 32 => (1, 0, 0, 0)
  | 33 => (1, 1, 0, 1)
  | 34 => (1, 0, 1, 8)
  | 35 => (0, 0, 0, 1)
  | i =>
    let (a, b) := columnParams i
    (1, a, b, gfMul a a ^^^ gfMul a b ^^^ gfMul 8 (gfMul b b))

/-- Symbol `i` of a granule, bits [4i+3:4i] (R405). -/
def symbol (g : Granule) (i : Nat) : Nat := (g.extractLsb' (4 * i) 4).toNat

/-- Σ sᵢ·hᵢ over a list of symbols (R405). -/
def syndromeOver (g : Granule) (is : List Nat) : GfVec :=
  is.foldl (fun t i => gfAdd t (gfScale (symbol g i) (column i))) (0, 0, 0, 0)

/-- The check bits of a data word (R406). -/
def checkBits (w : Word128) : BitVec 16 :=
  let t := syndromeOver (w.setWidth 144) (List.range 32)
  let s33 := t.2.1
  let s34 := t.2.2.1
  let s32 := t.1 ^^^ t.2.1 ^^^ t.2.2.1
  let s35 := t.2.2.2 ^^^ t.2.1 ^^^ gfMul 8 t.2.2.1
  BitVec.ofNat 16 (s32 + 16 * s33 + 256 * s34 + 4096 * s35)

/-- What a poisoned granule's check bits differ by (R406). -/
def poisonDelta : BitVec 16 := 0x8101#16

/-- A word with check bits that differ by `d` from those of R406: `d = 0` is the codeword, `poisonDelta` the
poisoned granule. -/
def granuleOf (w : Word128) (d : BitVec 16) : Granule := (checkBits w ^^^ d) ++ w

/-- The encoder (R406). -/
def encodeGranule (w : Word128) (poison : Bool) : Granule := granuleOf w (if poison then poisonDelta else 0)

/-- The data word of a granule. -/
def granuleData (g : Granule) : Word128 := g.extractLsb' 0 128

/-- How far the check bits of a granule are from those of its data word. -/
def granuleDelta (g : Granule) : BitVec 16 := g.extractLsb' 128 16 ^^^ checkBits (granuleData g)

/-- What the decoder finds (R407). -/
inductive CodeOutcome where
  | clean
  | poison
  | corrected (symbol error : Nat)
  | uncorrectable
  deriving DecidableEq, Repr

/-- The decision of R407 on a syndrome. -/
def decideSyndrome (s : GfVec) : CodeOutcome :=
  if s = (0, 0, 0, 0) then .clean
  else if s = (0, 0, 1, 0) then .poison
  else
    let e := if s.1 ≠ 0 then s.1 else s.2.2.2
    match (List.range 36).find? (fun i => gfScale e (column i) == s) with
    | some i => .corrected i e
    | none => .uncorrectable

/-- The decoder's outcome for a granule (R407). -/
def decodeOutcome (g : Granule) : CodeOutcome := decideSyndrome (syndromeOver g (List.range 36))

/-- A granule after the correction of one symbol (R407). -/
def correctSymbol (g : Granule) (i e : Nat) : Granule := g ^^^ (BitVec.ofNat 144 e <<< (4 * i))

/-- What a read delivers of a granule: the data word, and whether it is delivered as poison (R407). -/
def deliverGranule (g : Granule) : Word128 × Bool :=
  match decodeOutcome g with
  | .clean => (granuleData g, false)
  | .poison => (granuleData g, true)
  | .corrected i e => (granuleData (correctSymbol g i e), false)
  | .uncorrectable => (granuleData g, true)

/-- One bit of the CRC-8 with polynomial 0x07 (R16). -/
def crc8Bit (crc : Nat) (b : Bool) : Nat :=
  let top := (crc.testBit 7) != b
  let sh := crc * 2 % 256
  if top then sh ^^^ 7 else sh

/-- The header CRC of a flit, over bits [31:8], most significant first, from 0 (R16). -/
def headerCrc (h : BitVec 32) : Nat :=
  (List.range 24).foldl (fun c i => crc8Bit c (h.getLsbD (31 - i))) 0

end Sys2Proof.Machine
end

