-- ==== Sys2Proof/Machine/Float.lean ====
section
/-! DEFINITION. FP32 arithmetic, exact and rounded once (spec/02_number_formats.md R25, R424; the functions of
spec/04_attention_dataflow.md R73 and spec/10_update_units.md R262). Every operation decodes its arguments to exact
values, computes exactly over the integers and rounds once at the end. -/
namespace Sys2Proof.Machine

/-- An exact extended value: NaN, an infinity, or `(-1)^neg · m · 2^e`. -/
inductive Num where
  | nan
  | inf (neg : Bool)
  | fin (neg : Bool) (m : Nat) (e : Int)
  deriving DecidableEq, Repr

/-- A binary floating-point element format: exponent bits, significand bits, bias, whether infinities exist, the largest
finite magnitude code and the canonical NaN (R22, R25). -/
structure FloatFmt where
  ebits : Nat
  mbits : Nat
  bias : Int
  hasInf : Bool
  maxCode : Nat
  nanCode : Nat
  deriving DecidableEq, Repr

/-- FP32 (R22, fmt 0x00). -/
def fmtFp32 : FloatFmt := ⟨8, 23, 127, true, 0x7F7FFFFF, 0x7FC00000⟩
/-- BF16 (R22, fmt 0x01). -/
def fmtBf16 : FloatFmt := ⟨8, 7, 127, true, 0x7F7F, 0x7FC0⟩
/-- FP16 (R22, fmt 0x02). -/
def fmtFp16 : FloatFmt := ⟨5, 10, 15, true, 0x7BFF, 0x7E00⟩
/-- FP8 E4M3 (R22, fmt 0x03): no infinity, S.1111.111 alone is NaN. -/
def fmtE4m3 : FloatFmt := ⟨4, 3, 7, false, 0x7E, 0x7F⟩
/-- FP8 E5M2 (R22, fmt 0x04). -/
def fmtE5m2 : FloatFmt := ⟨5, 2, 15, true, 0x7B, 0x7E⟩
/-- The MXFP6 element E3M2 (R22, fmt 0x07). -/
def fmtE3m2 : FloatFmt := ⟨3, 2, 3, false, 0x1F, 0⟩
/-- The MXFP6 element E2M3 (R22, fmt 0x08). -/
def fmtE2m3 : FloatFmt := ⟨2, 3, 1, false, 0x1F, 0⟩
/-- The MXFP4 element E2M1 (R22, fmt 0x09). -/
def fmtE2m1 : FloatFmt := ⟨2, 1, 1, false, 0x7, 0⟩

/-- Bits of a whole element of a format. -/
def floatWidth (f : FloatFmt) : Nat := 1 + f.ebits + f.mbits

/-- The exponent of the unit of the subnormal range: `1 - bias - mbits`. -/
def subnormalExp (f : FloatFmt) : Int := 1 - f.bias - f.mbits

/-- The exact value of a magnitude code (the bits below the sign) taken as finite. -/
def magValue (f : FloatFmt) (code : Nat) : Nat × Int :=
  let ex := code / 2 ^ f.mbits
  let frac := code % 2 ^ f.mbits
  if ex = 0 then (frac, subnormalExp f) else (frac + 2 ^ f.mbits, subnormalExp f + (ex - 1 : Nat))

/-- The exact value of an element pattern of a plain format (R22). -/
def decodeFloat (f : FloatFmt) (bits : Nat) : Num :=
  let w := f.ebits + f.mbits
  let neg := bits / 2 ^ w % 2 == 1
  let mag := bits % 2 ^ w
  if mag ≤ f.maxCode then
    let v := magValue f mag
    .fin neg v.1 v.2
  else if f.hasInf && mag == f.maxCode + 1 then .inf neg
  else .nan

/-- `⌊log₂ (n/d)⌋` for positive `n` and `d`. -/
def log2Ratio (n d : Nat) : Int :=
  let g : Int := (Nat.log2 n : Int) - Nat.log2 d
  let ok := if g ≥ 0 then decide (n ≥ d * 2 ^ g.toNat) else decide (n * 2 ^ (-g).toNat ≥ d)
  if ok then g else g - 1

/-- How a discarded remainder is rounded: to nearest with ties to even, stochastically with a 16-bit value `r` (R40),
away from zero (the scale of R29) or towards zero. -/
inductive Rounding where
  | rne
  | stoch (r : Nat)
  | away
  | trunc
  deriving DecidableEq, Repr

/-- Whether the quotient `q` with remainder `rem` over `den` is raised by one. -/
def roundsUp (rd : Rounding) (q rem den : Nat) : Bool :=
  match rd with
  | .rne => decide (2 * rem > den) || (decide (2 * rem = den) && q % 2 == 1)
  | .stoch r => decide (rem * 65536 / den + r ≥ 65536)
  | .away => decide (rem > 0)
  | .trunc => false

/-- `n / d · 2^e` as a quotient and a remainder over a denominator. -/
def scaledQuot (n d : Nat) (e : Int) : Nat × Nat × Nat :=
  let num := if e ≥ 0 then n * 2 ^ e.toNat else n
  let den := if e ≥ 0 then d else d * 2 ^ (-e).toNat
  (num / den, num % den, den)

/-- The magnitude code nearest to `n / d · 2^e` in a format, as if its exponent range had no upper end: a code above
`maxCode` is an overflow. Values below the normal range round at the subnormal step (R24, R424). -/
def magCode (f : FloatFmt) (rd : Rounding) (n d : Nat) (e : Int) : Nat :=
  if n = 0 then 0 else
    let top := log2Ratio n d + e
    let quantum := max (top - f.mbits) (subnormalExp f)
    let (q, rem, den) := scaledQuot n d (e - quantum)
    let sig := if roundsUp rd q rem den then q + 1 else q
    (quantum - subnormalExp f).toNat * 2 ^ f.mbits + sig

/-- The sign bit of a format, set or clear. -/
def signBits (f : FloatFmt) (neg : Bool) : Nat := if neg then 2 ^ (f.ebits + f.mbits) else 0

/-- An arithmetic result `± n/d · 2^e` rounded to FP32 with RNE: an overflow is an infinity and nothing is flushed (R424). -/
def roundF32 (neg : Bool) (n d : Nat) (e : Int) : F32 :=
  let c := magCode fmtFp32 .rne n d e
  BitVec.ofNat 32 (signBits fmtFp32 neg + if c > fmtFp32.maxCode then 0x7F800000 else c)

/-- The canonical FP32 NaN (R25). -/
def f32NaN : F32 := 0x7FC00000#32
/-- +0.0 -/
def f32Zero : F32 := 0#32
/-- 1.0 -/
def f32One : F32 := 0x3F800000#32
/-- −∞ -/
def f32NegInf : F32 := 0xFF800000#32
/-- +∞ -/
def f32PosInf : F32 := 0x7F800000#32
/-- An FP32 infinity of a sign. -/
def f32Inf (neg : Bool) : F32 := if neg then f32NegInf else f32PosInf
/-- An FP32 zero of a sign. -/
def f32ZeroOf (neg : Bool) : F32 := if neg then 0x80000000#32 else 0#32

/-- The exact value of an FP32 pattern. -/
def f32Num (x : F32) : Num := decodeFloat fmtFp32 x.toNat

/-- Whether an FP32 pattern is finite. -/
def f32Finite (x : F32) : Bool :=
  match f32Num x with
  | .fin _ _ _ => true
  | _ => false

/-- Whether an FP32 pattern is a NaN. -/
def f32IsNaN (x : F32) : Bool := f32Num x == .nan

/-- Whether an FP32 pattern is a zero of either sign. -/
def f32IsZero (x : F32) : Bool := x &&& 0x7FFFFFFF#32 == 0#32

/-- An exact value rounded to FP32 (R424, R25). -/
def f32OfNum : Num → F32
  | .nan => f32NaN
  | .inf neg => f32Inf neg
  | .fin neg m e => roundF32 neg m 1 e

/-- An exact sum; ∞ − ∞ is NaN, and an exact cancellation is +0 unless both addends are negative zeros. -/
def numAdd : Num → Num → Num
  | .nan, _ => .nan
  | _, .nan => .nan
  | .inf a, .inf b => if a = b then .inf a else .nan
  | .inf a, _ => .inf a
  | _, .inf b => .inf b
  | .fin na ma ea, .fin nb mb eb =>
    let e := min ea eb
    let a : Int := (ma * 2 ^ (ea - e).toNat : Nat)
    let b : Int := (mb * 2 ^ (eb - e).toNat : Nat)
    let s := (if na then -a else a) + (if nb then -b else b)
    if s = 0 then .fin (na && nb) 0 0 else .fin (decide (s < 0)) s.natAbs e

/-- An exact product; 0 × ∞ is NaN (R25). -/
def numMul : Num → Num → Num
  | .nan, _ => .nan
  | _, .nan => .nan
  | .inf a, .inf b => .inf (a != b)
  | .inf a, .fin b m _ => if m = 0 then .nan else .inf (a != b)
  | .fin a m _, .inf b => if m = 0 then .nan else .inf (a != b)
  | .fin a m e, .fin b n d => .fin (a != b) (m * n) (e + d)

/-- FP32 addition. -/
def fAdd (a b : F32) : F32 := f32OfNum (numAdd (f32Num a) (f32Num b))

/-- The negation of an FP32 value; a NaN becomes the canonical NaN. -/
def fNeg (a : F32) : F32 := if f32IsNaN a then f32NaN else a ^^^ 0x80000000#32

/-- FP32 subtraction. -/
def fSub (a b : F32) : F32 := fAdd a (fNeg b)

/-- FP32 multiplication. -/
def fMul (a b : F32) : F32 := f32OfNum (numMul (f32Num a) (f32Num b))

/-- FP32 fused multiply-add, rounded once. -/
def fFma (a b c : F32) : F32 := f32OfNum (numAdd (numMul (f32Num a) (f32Num b)) (f32Num c))

/-- IEEE 754 division of FP32 values. -/
def fDiv (a b : F32) : F32 :=
  match f32Num a, f32Num b with
  | .nan, _ => f32NaN
  | _, .nan => f32NaN
  | .inf _, .inf _ => f32NaN
  | .inf x, .fin y _ _ => f32Inf (x != y)
  | .fin x _ _, .inf y => f32ZeroOf (x != y)
  | .fin x m e, .fin y n d =>
    if n = 0 then (if m = 0 then f32NaN else f32Inf (x != y))
    else if m = 0 then f32ZeroOf (x != y)
    else roundF32 (x != y) m n (e - d)

/-- rcp of R73. -/
def fRcp (a : F32) : F32 := fDiv f32One a

/-- A finite or infinite FP32 pattern as an integer that orders it; −0 and +0 share 0. -/
def f32Order (a : F32) : Int :=
  let mag : Int := ((a &&& 0x7FFFFFFF#32).toNat : Int)
  if a.getLsbD 31 then -mag else mag

/-- The larger of two FP32 values: NaN wins, and max(+0, −0) is +0 (R262, R25). -/
def fMax (a b : F32) : F32 :=
  if f32IsNaN a || f32IsNaN b then f32NaN
  else if f32Order a = f32Order b then a &&& b
  else if f32Order a > f32Order b then a else b

/-- `a > +0.0`, false for NaN (R262 SEL). -/
def fPositive (a : F32) : Bool := !f32IsNaN a && decide (f32Order a > 0)

/-- The integer `n` as FP32, RNE. -/
def f32OfNat (n : Nat) : F32 := roundF32 false n 1 0

/-- The signed integer `n` as FP32, RNE. -/
def f32OfInt (n : Int) : F32 := roundF32 (decide (n < 0)) n.natAbs 1 0

/-- Newton's iteration for the integer square root, from above. -/
def isqrtLoop (n : Nat) : Nat → Nat → Nat
  | 0, x => x
  | fuel + 1, x =>
    let y := (x + n / x) / 2
    if y < x then isqrtLoop n fuel y else x

/-- `⌊√n⌋`. -/
def isqrt (n : Nat) : Nat := if n = 0 then 0 else isqrtLoop n (Nat.log2 n + 8) (2 ^ (Nat.log2 n / 2 + 1))

/-- √(n·2^e) rounded to FP32: the root is taken with 64 bits below the rounding point and one sticky bit. -/
def fSqrtPos (m : Nat) (e : Int) : F32 :=
  let sh : Nat := if e % 2 = 0 then 160 else 161
  let v := m * 2 ^ sh
  let r := isqrt v
  let sticky := if r * r = v then 0 else 1
  roundF32 false (2 * r + sticky) 1 ((e - sh) / 2 - 1)

/-- SQRT of R262. -/
def fSqrt (a : F32) : F32 :=
  match f32Num a with
  | .nan => f32NaN
  | .inf neg => if neg then f32NaN else f32PosInf
  | .fin neg m e => if m = 0 then f32ZeroOf neg else if neg then f32NaN else fSqrtPos m e

/-- 1/√(m·2^e) rounded to FP32, with 200 bits of the root and a sticky bit. -/
def fRsqrtPos (m : Nat) (e : Int) : F32 :=
  let odd : Nat := if e % 2 = 0 then 0 else 1
  let n := 2 ^ 600
  let d := m * 2 ^ odd
  let r := isqrt (n / d)
  let sticky := if r * r * d = n then 0 else 1
  roundF32 false (2 * r + sticky) 1 (-300 - 1 - (e - odd) / 2)

/-- RSQRT of R262. -/
def fRsqrt (a : F32) : F32 :=
  match f32Num a with
  | .nan => f32NaN
  | .inf neg => if neg then f32NaN else f32Zero
  | .fin neg m e => if m = 0 then f32Inf neg else if neg then f32NaN else fRsqrtPos m e

/-- Fractional bits of the fixed-point numbers in which the functions of R73 are evaluated (log 13). -/
def fixBits : Nat := 640

/-- The product of two fixed-point numbers. -/
def fixMul (a b : Int) : Int := a * b / (2 ^ fixBits : Nat)

/-- `Σ z^(2k+1) / (2k+1)`, the series of artanh, or of arctan when `alt`, over `fuel` terms. -/
def oddSeries (alt : Bool) (z2 : Int) : Nat → Nat → Int → Int
  | 0, _, _ => 0
  | fuel + 1, k, p =>
    let t := p / (2 * k + 1 : Nat)
    (if alt && k % 2 == 1 then -t else t) + oddSeries alt z2 fuel (k + 1) (fixMul p z2)

/-- artanh of a fixed-point number of magnitude at most 1/3. -/
def fixArtanh (z : Int) : Int := oddSeries false (fixMul z z) 220 0 z

/-- arctan of `1/n`. -/
def fixArctanInv (n : Nat) : Int :=
  let z : Int := ((2 ^ fixBits / n : Nat) : Int)
  oddSeries true (fixMul z z) 300 0 z

/-- ln 2 = 2 artanh(1/3). -/
def fixLn2 : Int := 2 * fixArtanh ((2 ^ fixBits / 3 : Nat) : Int)

/-- π by Machin's formula, 16 arctan(1/5) − 4 arctan(1/239). -/
def fixPi : Int := 16 * fixArctanInv 5 - 4 * fixArctanInv 239

/-- `Σ z^k / k!` from the term `t` on. -/
def expSeries (z : Int) : Nat → Nat → Int → Int
  | 0, _, t => t
  | fuel + 1, k, t => t + expSeries z fuel (k + 1) (fixMul t z / (k + 1 : Nat))

/-- `Σ (−1)^k z^(2k) / …`: the alternating series of sine or cosine from the term `t` on, `k` the power it stands for. -/
def trigSeries (z2 : Int) : Nat → Nat → Int → Int
  | 0, _, t => t
  | fuel + 1, k, t => t - trigSeries z2 fuel (k + 2) (fixMul t z2 / ((k + 1) * (k + 2) : Nat))

/-- sine of a fixed-point angle of magnitude below 1. -/
def fixSin (r : Int) : Int := trigSeries (fixMul r r) 70 1 r

/-- cosine of a fixed-point angle of magnitude below 1. -/
def fixCos (r : Int) : Int := trigSeries (fixMul r r) 70 0 ((2 ^ fixBits : Nat) : Int)

/-- A fixed-point value times `2^k`, rounded to FP32. -/
def f32OfFix (v : Int) (k : Int) : F32 := roundF32 (decide (v < 0)) v.natAbs 1 (k - fixBits)

/-- exp2 of R73. -/
def fExp2 (a : F32) : F32 :=
  match f32Num a with
  | .nan => f32NaN
  | .inf neg => if neg then f32Zero else f32PosInf
  | .fin neg m e =>
    let v : Int := ((scaledQuot m 1 (e + fixBits)).1 : Int)
    let x := if neg then -v else v
    let one : Int := ((2 ^ fixBits : Nat) : Int)
    let k := x / one
    if k ≥ 128 then f32PosInf
    else if k < -160 then f32Zero
    else f32OfFix (expSeries (fixMul (x % one) fixLn2) 150 0 one) k

/-- log2 of R73. -/
def fLog2 (a : F32) : F32 :=
  match f32Num a with
  | .nan => f32NaN
  | .inf neg => if neg then f32NaN else f32PosInf
  | .fin neg m e =>
    if m = 0 then f32NegInf
    else if neg then f32NaN
    else
      let top : Int := Nat.log2 m
      let one : Int := ((2 ^ fixBits : Nat) : Int)
      let t : Int := ((scaledQuot m 1 (fixBits - top)).1 : Int)
      let z := (t - one) * one / (t + one)
      let frac := 2 * fixArtanh z * one / fixLn2
      f32OfFix ((top + e) * one + frac) 0

/-- The quadrant and the reduced angle in [−π/4, π/4] of a positive argument `m·2^e` (R73: the exact FP32 argument). -/
def reduceAngle (m : Nat) (e : Int) : Nat × Int :=
  let half := fixPi / 2
  let v : Int := ((scaledQuot m 1 (e + fixBits)).1 : Int)
  let n := (v + half / 2) / half
  (n.toNat % 4, v - n * half)

/-- sine or cosine of the angle in quadrant `q` with remainder `r`. -/
def quadrantSin (q : Nat) (r : Int) : Int :=
  match q % 4 with
  | 0 => fixSin r
  | 1 => fixCos r
  | 2 => -fixSin r
  | _ => -fixCos r

/-- sin of R73. -/
def fSin (a : F32) : F32 :=
  match f32Num a with
  | .nan => f32NaN
  | .inf _ => f32NaN
  | .fin neg m e =>
    if m = 0 then f32ZeroOf neg
    else
      let (q, r) := reduceAngle m e
      let s := quadrantSin q r
      f32OfFix (if neg then -s else s) 0

/-- cos of R73. -/
def fCos (a : F32) : F32 :=
  match f32Num a with
  | .nan => f32NaN
  | .inf _ => f32NaN
  | .fin _ m e =>
    if m = 0 then f32One
    else
      let (q, r) := reduceAngle m e
      f32OfFix (quadrantSin (q + 1) r) 0

/-- LOG2E of R73. -/
def f32Log2E : F32 := 0x3FB8AA3B#32
/-- LN2 of R73. -/
def f32Ln2 : F32 := 0x3F317218#32

end Sys2Proof.Machine
end

