-- ==== Sys2Proof/Machine/Operands.lean ====
section
/-! DEFINITION. Operand forms: the stored formats, their packing, block scales, conversions, padding, array modes,
precision passes and stochastic rounding (spec/02_number_formats.md R22 to R40, R424 to R426). -/
namespace Sys2Proof.Machine

/-! ### The format control word (R31) -/

/-- fmt, bits [4:0]. -/
def fcwFmt (w : BitVec 16) : Nat := (w.extractLsb' 0 5).toNat
/-- blk, bits [8:7]. -/
def fcwBlk (w : BitVec 16) : Nat := (w.extractLsb' 7 2).toNat
/-- stype, bit 9. -/
def fcwStype (w : BitVec 16) : Bool := w.getLsbD 9
/-- rnd, bit 10: stochastic rounding on store. -/
def fcwRnd (w : BitVec 16) : Bool := w.getLsbD 10
/-- pad_sel, bits [12:11]. -/
def fcwPad (w : BitVec 16) : Nat := (w.extractLsb' 11 2).toNat

/-- Elements per block of a blk code (R31). -/
def blockElems (blk : Nat) : Nat :=
  match blk with
  | 0 => 32
  | 1 => 16
  | 2 => 64
  | _ => 128

/-- Whether a fmt code has block scales: 0x05 to 0x0A (R22). -/
def hasBlocks (fmt : Nat) : Bool := decide (5 ≤ fmt ∧ fmt ≤ 10)

/-- Whether a fmt code is an MX format: 0x05 to 0x09 (R22). -/
def isMx (fmt : Nat) : Bool := decide (5 ≤ fmt ∧ fmt ≤ 9)

/-- The element format of a fmt code (R22); INT8-ZP and REM16 have none and answer FP32's. -/
def elemFmt (fmt : Nat) : FloatFmt :=
  match fmt with
  | 1 => fmtBf16
  | 2 => fmtFp16
  | 3 => fmtE4m3
  | 4 => fmtE5m2
  | 5 => fmtE4m3
  | 6 => fmtE5m2
  | 7 => fmtE3m2
  | 8 => fmtE2m3
  | 9 => fmtE2m1
  | _ => fmtFp32

/-- Bits of one stored element (R22). -/
def elemBits (fmt : Nat) : Nat := if fmt = 10 then 8 else if fmt = 11 then 16 else floatWidth (elemFmt fmt)

/-- Bytes of `n` stored elements (R23). -/
def elemBytes (fmt n : Nat) : Nat := elemBits fmt * n / 8

/-- Scale bytes of one block: 1, or 4 for INT8-ZP, 0 without block scales (R23, R106). -/
def scaleBytes (fmt : Nat) : Nat := if fmt = 10 then 4 else if hasBlocks fmt then 1 else 0

/-- A failing field of a checked word: its bit range, the check code of R320 and the value found. -/
structure FieldError where
  hi : Nat
  lo : Nat
  check : Nat
  found : Nat
  limit : Nat
  deriving DecidableEq, Repr

/-- Who takes the words of a stream, for the checks of R29, R32 and R33: a store, a KV stream, whether the consumer's format has infinities, and
whether the field must have pad_sel ZERO (R330). -/
structure FcwUse where
  store : Bool
  kv : Bool
  infOk : Bool
  noPad : Bool := false
  deriving DecidableEq, Repr

/-- The check of a format control word in the order of R425, stopping at the first failure. -/
def fcwCheck (u : FcwUse) (w : BitVec 16) : Option FieldError :=
  let f := fcwFmt w
  if w.extractLsb' 13 3 ≠ 0#3 then some ⟨15, 13, 8, (w.extractLsb' 13 3).toNat, 0⟩
  else if w.extractLsb' 5 2 ≠ 0#2 then some ⟨6, 5, 8, (w.extractLsb' 5 2).toNat, 0⟩
  else if f > 10 ∨ (f = 10 ∧ u.kv = false) then some ⟨4, 0, 6, f, 0⟩
  else if (f ≤ 4 ∧ fcwBlk w ≠ 0) ∨ (f = 10 ∧ fcwBlk w = 1) then some ⟨8, 7, 6, fcwBlk w, 0⟩
  else if fcwStype w ∧ (f ≤ 4 ∨ f = 10 ∨ fcwBlk w ≠ 1) then some ⟨9, 9, 6, 1, 0⟩
  else if fcwPad w ≠ 0 ∧ (u.store ∨ u.noPad) then some ⟨12, 11, 6, fcwPad w, 0⟩
  else if (fcwPad w = 1 ∨ fcwPad w = 2) ∧ u.infOk = false then some ⟨12, 11, 6, fcwPad w, 0⟩
  else if fcwRnd w ∧ u.store = false then some ⟨10, 10, 6, 1, 0⟩
  else none

/-! ### Decoding stored elements (R22, R27 to R29) -/

/-- An element as the load path holds it: the element, its block scale, 1.0 without one, and its poison mark (R34, R45, R64). -/
structure Elem where
  elem : Num
  scale : Num
  poison : Bool
  deriving DecidableEq, Repr

/-- The scale of an operand without block scale (R34, R45). -/
def unitScale : Num := .fin false 1 0

/-- A value without block scale. -/
def plainElem (x : Num) (poison : Bool) : Elem := ⟨x, unitScale, poison⟩

/-- The value that an element stands for, its scale applied exactly (R34). -/
def Elem.val (e : Elem) : Num := numMul e.elem e.scale

/-- +0.0, not poison. -/
def elemZero : Elem := plainElem (.fin false 0 0) false

/-- An element inside an MX block: the patterns of infinities and NaNs outside a block decode as the largest
finite magnitude (R22). -/
def decodeMxElem (f : FloatFmt) (bits : Nat) : Num :=
  let w := f.ebits + f.mbits
  let neg := bits / 2 ^ w % 2 == 1
  let mag := min (bits % 2 ^ w) f.maxCode
  let v := magValue f mag
  .fin neg v.1 v.2

/-- The value of a block scale: E8M0, or E4M3 with its sign bit marking NaN (R27, R28). -/
def decodeScale (stype : Bool) (b : Nat) : Num :=
  if stype then (if b ≥ 128 then .nan else decodeFloat fmtE4m3 b)
  else if b = 255 then .nan else .fin false 1 ((b : Int) - 127)

/-- The value `s × (q − z)` of an INT8-ZP element under its 4-byte scale record (R29). -/
def decodeInt8 (record q : Nat) : Num :=
  let s := decodeFloat fmtFp16 (record % 65536)
  let z := (BitVec.ofNat 8 (record / 65536)).toInt
  let d := (BitVec.ofNat 8 q).toInt - z
  numMul s (.fin (decide (d < 0)) d.natAbs 0)

/-- The exact value of a stored element: `scale` is the block's scale byte or record (R22, R27 to R29). -/
def decodeElem (fcw : BitVec 16) (scale bits : Nat) : Num :=
  let f := fcwFmt fcw
  if f = 10 then decodeInt8 scale bits
  else if isMx f then numMul (decodeMxElem (elemFmt f) bits) (decodeScale (fcwStype fcw) scale)
  else decodeFloat (elemFmt f) bits

/-- A stored element loaded: an MX element and its scale stand apart (R22, R34). -/
def loadElem (fcw : BitVec 16) (scale bits : Nat) (poison : Bool) : Elem :=
  if isMx (fcwFmt fcw) then ⟨decodeMxElem (elemFmt (fcwFmt fcw)) bits, decodeScale (fcwStype fcw) scale, poison⟩
  else plainElem (decodeElem fcw scale bits) poison

/-- Element `i` of a packed row of bytes, little-endian (R23). -/
def packedElem (fmt : Nat) (row : List Byte) (i : Nat) : Nat :=
  let b := elemBits fmt
  let lo := i * b / 8
  let at3 := ((row.getD lo 0).toNat + (row.getD (lo + 1) 0).toNat * 256 + (row.getD (lo + 2) 0).toNat * 65536 +
    (row.getD (lo + 3) 0).toNat * 16777216)
  at3 / 2 ^ (i * b % 8) % 2 ^ b

/-- The bytes of a natural number, little-endian (R7). -/
def natBytes : Nat → Nat → List Byte
  | 0, _ => []
  | n + 1, v => BitVec.ofNat 8 v :: natBytes n (v / 256)

/-- The number that little-endian bytes spell (R7). -/
def bytesNat : List Byte → Nat
  | [] => 0
  | b :: bs => b.toNat + 256 * bytesNat bs

/-- A list cut into pieces of `n`, with `fuel` pieces at most. -/
def chunksOf {α : Type} (n : Nat) : Nat → List α → List (List α)
  | 0, _ => []
  | _ + 1, [] => []
  | fuel + 1, xs => xs.take n :: chunksOf n fuel (xs.drop n)

/-- Element codes packed into bytes (R23): 4-bit codes two to a byte, 6-bit codes four to three bytes. -/
def packElems (fmt : Nat) (codes : List Nat) : List Byte :=
  let b := elemBits fmt
  let per := if b = 4 then 2 else if b = 6 then 4 else 1
  let word (cs : List Nat) : Nat := cs.foldr (fun c acc => c + acc * 2 ^ b) 0
  (chunksOf per codes.length codes).flatMap (fun cs => natBytes (per * b / 8) (word cs))

/-! ### Narrowing (R24, R38 to R40) -/

/-- A value narrowed to a format under R24: saturating, canonical NaN, ∞ kept where the format has it and NaN in E4M3. -/
def narrowCode (f : FloatFmt) (rd : Rounding) (x : Num) : Nat :=
  match x with
  | .nan => f.nanCode
  | .inf neg => if f.hasInf then signBits f neg + f.maxCode + 1 else f.nanCode
  | .fin neg m e => signBits f neg + min (magCode f rd m 1 e) f.maxCode

/-- A quotient `m/d · 2^e` narrowed to a format under R24. -/
def narrowRatio (f : FloatFmt) (rd : Rounding) (neg : Bool) (n d : Nat) (e : Int) : Nat :=
  signBits f neg + min (magCode f rd n d e) f.maxCode

/-- A value converted to a plain format and read back (R24, RNE). -/
def convertTo (f : FloatFmt) (x : Num) : Num := decodeFloat f (narrowCode f .rne x)

/-- Philox4x32-10's multiplication rounds (R39; Salmon, Moraes, Dror and Shaw). -/
def philoxRound (c : Nat × Nat × Nat × Nat) (k : Nat × Nat) : Nat × Nat × Nat × Nat :=
  let p0 := 0xD2511F53 * c.1
  let p1 := 0xCD9E8D57 * c.2.2.1
  let m := 4294967296
  ((p1 / m) ^^^ c.2.1 ^^^ k.1, p1 % m, (p0 / m) ^^^ c.2.2.2 ^^^ k.2, p0 % m)

/-- `n` rounds of Philox with the Weyl key schedule. -/
def philoxRounds : Nat → Nat × Nat × Nat × Nat → Nat × Nat → Nat × Nat × Nat × Nat
  | 0, c, _ => c
  | n + 1, c, k =>
    philoxRounds n (philoxRound c k) ((k.1 + 0x9E3779B9) % 4294967296, (k.2 + 0xBB67AE85) % 4294967296)

/-- Philox4x32-10: the four words of one call (R39). -/
def philox (seed : Nat) (c0 c1 c2 c3 : Nat) : Nat × Nat × Nat × Nat :=
  philoxRounds 10 (c0, c1, c2, c3) (seed % 4294967296, seed / 4294967296 % 4294967296)

/-- The 16-bit value of element `e` of a tile (R40): call `e ≫ 3`, word `(e ≫ 1) & 3`, low half when `e` is even.
`c0` is given without the call index. -/
def srValue (seed c0 c1 c2 c3 e : Nat) : Nat :=
  let w := philox seed (c0 + e / 8) c1 c2 c3
  let x := match e / 2 % 4 with
    | 0 => w.1
    | 1 => w.2.1
    | 2 => w.2.2.1
    | _ => w.2.2.2
  if e % 2 = 0 then x % 65536 else x / 65536

/-- The counter words c0 (without the call index) and c2 of a compute command's store (R39). -/
def srC0 (visit : Nat) : Nat := visit % 65536 * 65536
def srC2 (stream level split : Nat) : Nat := stream % 256 * 65536 + level % 16 * 1024 + split % 1024

/-- The rounding of a store path: RNE, or stochastic with the element's value (R38). -/
def storeRounding (fcw : BitVec 16) (r : Nat) : Rounding := if fcwRnd fcw then .stoch r else .rne

/-! ### Block stores (R27 to R29, R426) -/

/-- Whether an exact value is NaN or infinite. -/
def numSpecial : Num → Bool
  | .fin _ _ _ => false
  | _ => true

/-- Magnitude comparison of finite values: `|a| ≥ |b|`. -/
def numMagGe (a b : Nat × Int) : Bool :=
  let e := min a.2 b.2
  decide (a.1 * 2 ^ (a.2 - e).toNat ≥ b.1 * 2 ^ (b.2 - e).toNat)

/-- The largest magnitude of a block of finite values. -/
def blockAmax (xs : List Num) : Nat × Int :=
  xs.foldl (fun acc x => match x with
    | .fin _ m e => if numMagGe (m, e) acc then (m, e) else acc
    | _ => acc) (0, 0)

/-- emax of R27: the exponent of the largest power of two of an element format. -/
def elemEmax (fmt : Nat) : Int :=
  match fmt with
  | 5 => 8
  | 6 => 15
  | 7 => 4
  | 8 => 2
  | _ => 2

/-- An MX block with an E8M0 scale (R27): the scale byte and the element codes. `rd i` is element `i`'s rounding. -/
def storeE8m0 (fmt : Nat) (rd : Nat → Rounding) (xs : List Num) : Nat × List Nat :=
  let f := elemFmt fmt
  if xs.any numSpecial then (0xFF, xs.map (fun _ => 0))
  else
    let a := blockAmax xs
    if a.1 = 0 then (0x7F, xs.map (narrowCode f .rne))
    else
      let x := max (-127) (min 127 ((Nat.log2 a.1 : Int) + a.2 - elemEmax fmt))
      let scaled := xs.map (fun v => match v with
        | .fin n m e => Num.fin n m (e - x)
        | v => v)
      ((x + 127).toNat, scaled.mapIdx (fun i v => narrowCode f (rd i) v))

/-- The smallest E4M3 code, from 2⁻⁹ to 448, whose value times elem_max is at least amax (R28). -/
def e4m3ScaleFor (elemMax amax : Nat × Int) : Nat :=
  let fits (c : Nat) : Bool :=
    let v := magValue fmtE4m3 c
    numMagGe (v.1 * elemMax.1, v.2 + elemMax.2) amax
  ((List.range 126).map (· + 1)).find? fits |>.getD 0x7E

/-- An MX block with an E4M3 scale (R28). Each quotient is formed in FP32 with RNE and then converted. -/
def storeE4m3 (fmt : Nat) (rd : Nat → Rounding) (xs : List Num) : Nat × List Nat :=
  let f := elemFmt fmt
  if xs.any numSpecial then (0x7F, xs.map (fun _ => 0))
  else
    let a := blockAmax xs
    if a.1 = 0 then (0x38, xs.map (narrowCode f .rne))
    else
      let c := e4m3ScaleFor (magValue f f.maxCode) a
      let s := f32OfNum (.fin false (magValue fmtE4m3 c).1 (magValue fmtE4m3 c).2)
      (c, xs.mapIdx (fun i v => narrowCode f (rd i) (f32Num (fDiv (f32OfNum v) s))))

/-- The integer nearest to `± n/d · 2^e`, ties to even (R29). -/
def rneInt (neg : Bool) (n d : Nat) (e : Int) : Int :=
  let (q, rem, den) := scaledQuot n d e
  let r : Int := (if roundsUp .rne q rem den then q + 1 else q : Nat)
  if neg then -r else r

/-- Clamping to [−128, 127]. -/
def clampInt8 (x : Int) : Int := max (-128) (min 127 x)

/-- The integer nearest to `v ÷ s` for a finite `v` and a positive `s = m·2^e`. -/
def rneDivide (v : Num) (s : Nat × Int) : Int :=
  match v with
  | .fin neg m e => rneInt neg m s.1 (e - s.2)
  | _ => 0

/-- Whether `a < b` for finite values. -/
def numLt (a b : Num) : Bool :=
  match numAdd a (match b with | .fin n m e => .fin (!n) m e | b => b) with
  | .fin neg m _ => neg && decide (m > 0)
  | _ => false

/-- An INT8-ZP block (R29): the 4-byte scale record and the codes. The rnd field has no effect on it. -/
def storeInt8 (xs : List Num) : Nat × List Nat :=
  if xs.any numSpecial then (0x7E00, xs.map (fun _ => 0))
  else
    let zero : Num := .fin false 0 0
    let lo := xs.foldl (fun a x => if numLt x a then x else a) zero
    let hi := xs.foldl (fun a x => if numLt a x then x else a) zero
    let span := numAdd hi (match lo with | .fin n m e => .fin (!n) m e | x => x)
    let (sCode, z) := match span with
      | .fin _ m e =>
        if m = 0 then (0x3C00, (0 : Int))
        else
          let c := min (magCode fmtFp16 .away m 255 e) fmtFp16.maxCode
          let negLo := match lo with | .fin n m e => Num.fin (!n) m e | x => x
          (c, clampInt8 (rneDivide negLo (magValue fmtFp16 c) - 128))
      | _ => (0x3C00, 0)
    let q (v : Num) : Nat := (BitVec.ofInt 8 (clampInt8 (rneDivide v (magValue fmtFp16 sCode) + z))).toNat
    (sCode + (BitVec.ofInt 8 z).toNat * 65536, xs.map q)

/-- One block stored in a block-scaled format: the scale and the codes (R27 to R29). -/
def storeBlock (fcw : BitVec 16) (rd : Nat → Rounding) (xs : List Num) : Nat × List Nat :=
  if fcwFmt fcw = 10 then storeInt8 xs
  else if fcwStype fcw then storeE4m3 (fcwFmt fcw) rd xs
  else storeE8m0 (fcwFmt fcw) rd xs

/-- What a store path writes for one row of FP32 values: the element codes, and the scale and the poison mark of each
block (R24, R27 to R29, R426). `r i` is the 16-bit random value of element `i`. -/
structure StoredRow where
  codes : List Nat
  scales : List Nat
  scalePoison : List Bool
  deriving DecidableEq, Repr

/-- The store conversion of one row (R24, R27 to R29, R38, R426). A stored FP32 word is the value itself. -/
def storeRow (fcw : BitVec 16) (r : Nat → Nat) (xs : List (F32 × Bool)) : StoredRow :=
  let f := fcwFmt fcw
  if f = 0 then ⟨xs.map (fun x => (f32OfNum (f32Num x.1)).toNat), [], []⟩
  else if hasBlocks f then
    let n := blockElems (fcwBlk fcw)
    let blocks := chunksOf n xs.length xs
    let st := blocks.mapIdx (fun b blk =>
      storeBlock fcw (fun i => storeRounding fcw (r (b * n + i))) (blk.map (fun x => f32Num x.1)))
    ⟨st.flatMap (·.2), st.map (·.1), blocks.map (fun blk => blk.any (·.2))⟩
  else ⟨xs.mapIdx (fun i x => narrowCode (elemFmt f) (storeRounding fcw (r i)) (f32Num x.1)), [], []⟩

/-! ### Padding and array modes (R31, R33, R34) -/

/-- The FP32 value that a padded position stands for (R31, R33). -/
def padValue (fcw : BitVec 16) (value : F32) : F32 :=
  match fcwPad fcw with
  | 0 => f32Zero
  | 1 => f32NegInf
  | 2 => f32PosInf
  | _ => value

/-- How the array takes an operand (R34): the 16-bit formats by conversion, or each element exactly with its scale. -/
inductive ArrayForm where
  | bf16
  | fp16
  | fp8
  | mxfp4
  deriving DecidableEq, Repr

/-- Whether a fmt code is an 8-bit float, MXFP8, MXFP6 or MXFP4. -/
def isNarrowFloat (f : Nat) : Bool := decide (3 ≤ f ∧ f ≤ 9)

/-- The array mode of an operand pair, the first matching row of R34. -/
def arrayForm (a b : Nat) : ArrayForm :=
  if a = 1 ∧ b = 1 then .bf16
  else if a = 2 ∧ b = 2 then .fp16
  else if (a = 1 ∧ b = 2) ∨ (a = 2 ∧ b = 1) then .bf16
  else if a = 0 ∨ b = 0 then .bf16
  else if a = 9 ∧ b = 9 then .mxfp4
  else if isNarrowFloat a ∧ isNarrowFloat b then .fp8
  else if (a = 2 ∧ b ≠ 2) ∨ (b = 2 ∧ a ≠ 2) then .fp16
  else .bf16

/-- Whether the consumer of an operand has infinities, for NEG_INF and POS_INF padding (R33): 16-bit modes have them,
an FP8 pair only in a plain E5M2 operand, MXFP4 never. -/
def operandInfOk (own other : Nat) : Bool :=
  match arrayForm own other with
  | .bf16 => true
  | .fp16 => true
  | .fp8 => own == 4
  | .mxfp4 => false

/-- The format in which a consumer takes an operand of format `own` paired with one of format `other`, where the load path inserts padding
(R33, R34). -/
def operandFmt (own other : Nat) : FloatFmt :=
  match arrayForm own other with
  | .bf16 => fmtBf16
  | .fp16 => fmtFp16
  | .fp8 => if own = 4 ∨ own = 6 ∨ own = 7 then fmtE5m2 else fmtE4m3
  | .mxfp4 => fmtE2m1

/-- Whether a form keeps each element and its block scale apart (R34). -/
def keepsScale : ArrayForm → Bool
  | .fp8 => true
  | .mxfp4 => true
  | .bf16 => false
  | .fp16 => false

/-- An operand value delivered to the array in a form (R34): rounded once to the 16-bit formats, exact otherwise. -/
def toForm (m : ArrayForm) (x : Num) : Num :=
  match m with
  | .bf16 => convertTo fmtBf16 x
  | .fp16 => convertTo fmtFp16 x
  | .fp8 => x
  | .mxfp4 => x

/-! ### Precision passes (R35, R36) -/

/-- The high part of a split FP32 operand. -/
def splitHigh (x : Num) : Num := convertTo fmtBf16 x

/-- The low part: RNE_BF16(a − aₕ), and +0.0 when `a` is not finite. -/
def splitLow (x : Num) : Num :=
  match x, splitHigh x with
  | .fin n m e, .fin hn hm he => convertTo fmtBf16 (numAdd (.fin n m e) (.fin (!hn) hm he))
  | _, _ => .fin false 0 0

/-- The passes an operand pair can use (R36): 3 with two FP32 operands, 2 with one, 1 with none. -/
def maxPasses (a b : Nat) : Nat := (if a = 0 then 1 else 0) + (if b = 0 then 1 else 0) + 1

/-- One product kind of a k-tile: which part of each operand it takes (0 whole, 1 low, 2 high), and whether elements enter with their scales
beside them (R34, R35). -/
structure Product where
  a : Num → Num
  b : Num → Num
  aPart : Nat
  bPart : Nat
  scaled : Bool := false

/-- Whether a product takes the low part of its first or second factor. -/
def Product.aLow (p : Product) : Bool := p.aPart == 1
def Product.bLow (p : Product) : Bool := p.bPart == 1

/-- The products formed for each k-tile, in order (R35): `a` is the stationary operand. -/
def products (passes fa fb : Nat) : List Product :=
  let whole := toForm (arrayForm fa fb)
  match passes with
  | 1 => [⟨whole, whole, 0, 0, keepsScale (arrayForm fa fb)⟩]
  | 2 =>
    if fb = 0 then [⟨whole, splitLow, 0, 1, false⟩, ⟨whole, splitHigh, 0, 2, false⟩]
    else [⟨splitLow, whole, 1, 0, false⟩, ⟨splitHigh, whole, 2, 0, false⟩]
  | _ => [⟨splitLow, splitHigh, 1, 2, false⟩, ⟨splitHigh, splitLow, 2, 1, false⟩, ⟨splitHigh, splitHigh, 2, 2, false⟩]

/-- Whether an exact value is a zero. -/
def numIsZero : Num → Bool
  | .fin _ m _ => m == 0
  | _ => false

/-- A running sum with its poison mark (R37, R64). -/
abbrev Sum := F32 × Bool

end Sys2Proof.Machine
end

