-- ==== Sys2Proof/Config.lean ====
section
/-! DEFINITION. What an implementation fixes (the Hyavo member's parameters, spec/00_scope.md R3) and the model's
free values: opaque constants, with no body, for every value the manual leaves open. -/
namespace Sys2Proof.Config

/-- The parameters in which the members of the Hyavo family differ (R3). -/
structure MemberParams where
  /-- MEMBER code of CMD_ID_MEMBER (R306). -/
  code : Nat
  dies : Nat
  clustersPerDie : Nat
  stacksPerDie : Nat
  nearGiBPerDie : Nat
  channels : Nat
  kettlePorts : Nat
  farTier : Bool
  maxSequences : Nat
  processors : Nat
  deriving DecidableEq, Repr

/-- The member modelled: Kerur (the last column of the table of R3). -/
def kerur : MemberParams where
  code := 4
  dies := 8
  clustersPerDie := 4
  stacksPerDie := 4
  nearGiBPerDie := 384
  channels := 32
  kettlePorts := 4
  farTier := true
  maxSequences := 65536
  processors := 35

/-- Clusters of the member, `dies × clusters per die` (R3, R14). -/
def MemberParams.clusters (m : MemberParams) : Nat := m.dies * m.clustersPerDie

/-- The four fused key digests of R362, SHA-384 values provisioned before the package ships.
Free: the manual states no value (log 6). -/
opaque fusedKeyDigest : Fin 4 → BitVec 384

/-- The revoke bit of each fused key digest (R362). Free (log 6). -/
opaque fusedKeyRevoked : Fin 4 → Bool

/-- The fused minimum security version number of each image kind (R362). Free (log 6). -/
opaque fusedMinSvn : Fin 4 → BitVec 16

/-- The bytes of the I3C identity registers that R323 does not state: the rest of the provisional ID,
the BCR bits it does not name, the DCR, the target status and the maximum data speed. Free (log 7). -/
opaque i3cProvisionalRest : BitVec 48
opaque i3cBcrRest : BitVec 8
opaque i3cDcr : BitVec 8
opaque i3cStatus : Nat → BitVec 16
opaque i3cMaxDataSpeed : BitVec 16

/-- The IDCODE bits that R324 does not state (version, manufacturer and the rest of the part number). Free (log 7). -/
opaque idcodeRest : BitVec 32

/-- A fresh free value for the `n`-th open choice of a run (log 5): nothing constrains it. -/
opaque freeWord : Nat → BitVec 64

/-- Whether the streams of a loaded plan match a compute command that names it, a criterion R101 names and
does not give: the bytes of the plan's image and the command's opcode and parameter area decide. Free (log 8). -/
opaque planMatches : List (BitVec 8) → Nat → BitVec 1536 → Bool

/-- The scheduler's plan estimate of one step at a clock step, in ticks (R342), which no rule gives. Free (log 9). -/
opaque planEstimate : Nat → Nat → Nat

/-- Where the block scales of a block-scaled tensor of a compute command under a standard plan lie: R23 and R195 put them at the scale base
of the stream descriptor, and the commands of R98, R99, R100 and R330 carry none. By the address space and the tensor's base; free, used
modulo 2⁵² (log 10). -/
opaque scaleBase : Nat → Nat → Nat

/-- The host's answer to a long-reply or host-memory write of so many bytes at an address (R315: the host bridge can
refuse): the bytes it accepts. Free, used as `min n`; the host bridge is outside the boundary (log 11). -/
opaque hostAccepts : Nat → Nat → Nat → Nat

/-- The victim a full translation cache replaces: no replacement policy is stated for the translation caches of
chapter 9 (the hamper's is, R231). Free, reduced modulo the cache's size (log 12). -/
opaque cacheVictim : Nat → Nat

/-- The store stream number, 0 to 7, that a standard plan gives an output of a command (R39 names it, no rule states it): the outputs are
numbered o, dQ, C or the projection 0, dK 1, dV 2, the running state of unfinished tiles 3. Free, used modulo 8 (log 34). -/
opaque storeStream : Nat → Nat

/-- The stream queue that a standard plan uses for an operand (R250 records it, no rule states it). Free, used modulo 8 (log 34). -/
opaque standardQueue : Nat → Nat

/-- The padding VALUE of a compute command's load with pad_sel VALUE: the descriptor of R194 carries it and the commands of R98 to R100
carry none. Free (log 34). -/
opaque standardPad : BitVec 32

/-- P2 to P7 of a compute command that runs a loaded plan, by the plan and the parameter's number: R199 takes them from the command, and the
parameter areas of R98 to R100 and R330 have no such field. Free (log 60). -/
opaque planParam : Nat → Nat → BitVec 64

/-- Whether a pass of a loaded plan takes a packed tile on the other axis (R47), by the plan's descriptor: the image of R209 to R211 has no
field for a tile's packing axis or a pass's axis. Free (log 61). -/
opaque otherAxis : BitVec 512 → Bool

/-- Where the control core places what it delivers into a command's words of a core (KV tiles, query rows, running state): R208 names what a
standard plan keeps in its lane and states no places, and no field of a loaded plan names those of its KV descriptors. By the command's slot,
the core and a number of the piece; free, used modulo the words the command has there (log 19). -/
opaque lanePlace : Nat → Nat → List Nat → Nat

/-- The initial tags that a loaded plan gives the granules it uses, by the number of the free value: R173 has them, and the image of R209
to R211 has no field for them (log 31). -/
opaque initialTags : Nat → BitVec 2048

end Sys2Proof.Config
end

