-- ==== Sys2Proof/Machine/State.lean ====
section
/-! DEFINITION. The state of Kerur as plain data, the reasons a step can stop, and the state right after the
management island has started (spec/14_firmware.md R365 step 2). Sparse data is held as a `Table`: key and value pairs with
rising keys, no entry equal to what an unlisted key reads as. -/
namespace Sys2Proof.Machine

/-- The reasons a step can stop with a fault. -/
inductive Fault where
  /-- SCRUB of an address that is no granule of the named stack (R228, R409): raised by `execScrub`. Safe: the hardware
  never scrubs such an address. -/
  | noSuchGranule
  deriving DecidableEq, Repr

/-- The reasons a step can be refused. -/
inductive Refusal where
  /-- An arm of `exec` that has no meaning yet, by the mnemonic of its row: raised by `exec` alone. Safe. -/
  | notModelled (mnemonic : String)
  deriving DecidableEq, Repr

/-- Key and value pairs with strictly rising keys; an unlisted key reads as a default that each use states. -/
abbrev Table (α : Type) := List (Nat × α)

/-- A memory: bytes with strictly rising addresses, an unlisted byte reading 0 (log 1), and for every granule whose check
bits are not those of its data (R406) the difference, by granule address. -/
structure Mem where
  cells : List Host.Cell
  chk : Table (BitVec 16)
  deriving DecidableEq, Repr

/-! ### Host interface, configuration, sessions (spec/12_host_interface.md, spec/13_scheduling.md) -/

/-- CMD_DEV_STATE [7:0] (R307). -/
inductive DevState where
  | load
  | starting
  | ready
  | draining
  | restarting
  | orphaned
  | fwHalt
  deriving DecidableEq, Repr

/-- One entry of a clamp report (R328). -/
structure ClampEntry where
  locator : Nat
  reason : Nat
  hi : Nat
  lo : Nat
  requested : Nat
  applied : Nat
  deriving DecidableEq, Repr

/-- Where an unfinished command stands. -/
inductive Stage where
  /-- past the header checks, its later checks waiting for a translation answer (R249, R319 step 7) -/
  | checking
  /-- admitted, not executing: waiting for placement (R338), or to be carried out at once -/
  | queued
  /-- placed and executing (R311 RUNNING) -/
  | running
  /-- placed and preempted (R339) -/
  | preempted
  /-- a firmware access of the command waits for a translation answer (R249) -/
  | stalled
  /-- its allocation waits for a frame (R119) -/
  | allocating
  /-- its page moves are in progress (R123, R133) -/
  | moving
  /-- CFG_COMMIT held by WAIT (R347) -/
  | waitEpoch
  /-- CFG_COMMIT held by DRAIN (R348) -/
  | draining
  /-- held because it writes host memory while the lease or its session does not allow it (R351, R352) -/
  | waitHost
  /-- FW_START or FW_HANDOVER in progress, FAULT_RESOLVE waiting for its walks -/
  | inProgress
  deriving DecidableEq, Repr

/-- The stall a DEADLINE_MISS record names (R343). -/
inductive StallKind where
  | none
  | fault
  | faultHeld
  | tag
  | preempted
  | restore
  deriving DecidableEq, Repr

/-- One session entry (R333 to R336). -/
inductive SessionState where
  | free
  | opened
  | orphaned
  | adoptable
  deriving DecidableEq, Repr

/-- A session (R333). -/
structure Session where
  state : SessionState
  gen : Nat
  asid : Nat
  interactive : Bool
  autoRecompute : Bool
  ring : Bool
  ringGroup : Nat
  openedAt : Nat
  deriving DecidableEq, Repr

/-- The lease (R350). `off` before the first READY. -/
inductive LeaseState where
  | off
  | held
  | lapsed
  | orphaned
  deriving DecidableEq, Repr

/-- The lease of the host port (R350 to R352), times in ticks. `newPeriod` and `newGrace` are values of SESSION_OPEN that take
effect at the next renewal (R336). -/
structure Lease where
  state : LeaseState
  expiry : Nat
  period : Nat
  grace : Nat
  newPeriod : Nat
  newGrace : Nat
  lapsedAt : Nat
  orphanedAt : Nat
  adoptBy : Option Nat
  suspendedAt : Option Nat
  deriving DecidableEq, Repr

/-- The window, slots and ports (R304 to R324). A slot is keyed by its port and number: host slots 0 to 63,
management slots 64 to 67, the debug slot 68. -/
structure HostIf where
  slots : Table SlotWord
  /-- handovers waiting in arrival order, one entry per slot at most (R322, R370) -/
  handovers : List Nat
  discards : BitVec 64
  admitted : BitVec 64
  rejected : BitVec 64
  mgmtOffset : Nat
  i3cAddress : Option (BitVec 7)
  i3cOut : List Byte
  debugUnlocked : Bool
  /-- the TAP instruction selects DBG_SLOT, IDCODE or BYPASS (R324) -/
  tapIr : BitVec 2
  tapDr : SlotWord
  deriving DecidableEq, Repr

/-- Configuration (R325 to R329, R345 to R349): values keyed by field × 256 + instance; a field not listed has its
default. `history` holds the committed values of each epoch still needed, newest first (R345). -/
structure Cfg where
  committed : Table Nat
  stagedHost : Table Nat
  stagedMgmt : Table Nat
  epoch : BitVec 8
  history : List (BitVec 8 × Table Nat)
  overLimit : Nat
  deriving DecidableEq, Repr

/-! ### Errors and the log (spec/16_errors.md, spec/14_firmware.md R381) -/

/-- One error record (R415), with its fetched mark (R419) and whether it lies in an entry reserved for FATAL records. -/
structure ErrRecord where
  serial : Nat
  time : Nat
  cause : Nat
  severity : Nat
  flags : Nat
  source : Nat
  handler : Nat
  port : Nat
  slot : Nat
  slotSeq : Nat
  cluster : Nat
  unit : Nat
  parent : Nat
  addr : Nat
  info0 : Nat
  info1 : Nat
  count : Nat
  fetched : Bool
  reserved : Bool
  deriving DecidableEq, Repr

/-- One entry of the error counter block (R421). -/
structure ErrCount where
  corrected : Nat
  deferred : Nat
  contained : Nat
  ovfCorrected : Bool
  ovfDeferred : Bool
  ovfContained : Bool
  deriving DecidableEq, Repr

/-- A handler of errors (R412, R413), its records by severity and serial: `hand` is the one in hand, then those whose handling its save area
keeps, of falling severity; `queue` those that wait, in arrival order. -/
structure Handler where
  hand : List (Nat × Nat)
  queue : List (Nat × Nat)
  deriving DecidableEq, Repr

/-- An idle handler. -/
def Handler.reset : Handler := ⟨[], []⟩

/-- What an error report gives: cause, source, the command and cluster it was met for, and the information fields. -/
structure ErrArgs where
  cause : Nat
  source : Nat
  key : Option Nat := none
  cluster : Nat := 0xFF
  unit : Nat := 0xFF
  addr : Nat := 0
  info0 : Nat := 0
  info1 : Nat := 0
  deriving DecidableEq, Repr

/-- A record on its way to its handler: what was reported, the time and the slot sequence at detection, the flags COUNTED and FENCE, and the
occurrences it covers (R415, R416). -/
structure Detected where
  args : ErrArgs
  time : Nat
  slotSeq : Nat
  flags : Nat
  count : Nat
  deriving DecidableEq, Repr

/-- The RAS unit (R411 to R422). -/
structure Ras where
  store : List ErrRecord
  serial : Nat
  lost : Nat
  lostBefore : Bool
  fatals : Nat
  firstFatal : Nat
  counts : Table ErrCount
  /-- times of the counted records of each source, newest first, at most five (R414) -/
  history : Table (List Nat)
  fenced : List Nat
  /-- the handlers with anything in hand, by processor identity, 0xFF the island hardware (R413) -/
  handlers : Table Handler
  /-- processors whose error in their own resources has escalated, to be restarted (R413) -/
  restarts : List Nat
  /-- the records that wait in the collectors of the die slices for a handler that restarts (R423) -/
  collected : List Detected
  deriving DecidableEq, Repr

/-- One log record (R381), its payload the bytes that are not trailing zeros' concern: always 40 bytes. -/
structure LogRecord where
  serial : Nat
  drops : Nat
  time : Nat
  kind : Nat
  source : Nat
  traceId : Nat
  payload : List Byte
  deriving DecidableEq, Repr

/-- The log ring, its writer's queue (R381, R392), and the trace points (R384). -/
structure Log where
  ring : List LogRecord
  queue : List LogRecord
  serial : Nat
  /-- records dropped since the last one that found room -/
  drops : Nat
  /-- the µs in which the writer last wrote, and the records it wrote in it -/
  wroteAt : Nat
  wrote : Nat
  traceOn : BitVec 65536
  deriving DecidableEq, Repr

/-! ### Firmware processors (spec/14_firmware.md) -/

/-- Processor states (R358, R383). -/
inductive ProcState where
  | reset
  | running
  | frozen
  | crashed
  | restarting
  | fenced
  deriving DecidableEq, Repr

/-- One firmware processor (R356 to R358, R383). -/
structure Proc where
  state : ProcState
  lastCause : Nat
  crashes : Nat
  crashTimes : List Nat
  lastCrash : Nat
  stray : Nat
  lastKick : Nat
  /-- whether it has kicked since its last restart (R358) -/
  kicked : Bool
  /-- whether it has crashed, or was fenced, and is not RUNNING again (R357, R313) -/
  down : Bool
  deriving DecidableEq, Repr

/-- What the island keeps of an image in a bank (R361, R362). -/
structure Image where
  version : Nat
  svn : Nat
  abi : Nat
  hov : Nat
  bytes : Nat
  digest : Nat
  deriving DecidableEq, Repr

/-- Firmware: processors by identity, images by kind + 4 × bank, the bank each kind runs from and its probation end. -/
structure Fw where
  procs : Table Proc
  images : Table Image
  runBank : Table Nat
  probation : Table Nat
  /-- the 2 MiB local memory of a processor, as far as its image reaches, by identity (R356) -/
  localMem : Table (List Byte)
  /-- the FW_START or FW_HANDOVER in progress: its slot key -/
  starting : Option Nat
  /-- a replacement image of FW_HANDOVER: kind_mask and when the freeze began (R377) -/
  handover : Option (Nat × Nat)
  deriving DecidableEq, Repr

/-! ### Power (spec/15_power_and_clocks.md) -/

/-- Power and clock state of one cluster (R389, R400, R401): `k` 0 to 3, `step` what firmware has set and `cap` the limiter's
cap, both 0 for 1.25 GHz to 3 for 0.6 GHz. -/
structure ClusterPower where
  k : Nat
  step : Nat
  cap : Nat
  stopped : Bool
  coolSince : Option Nat
  hotSince : Option Nat
  powered : Bool
  deriving DecidableEq, Repr

/-- One PWR_HINT entry (R396): its tick, cluster count and session (0 none). -/
structure Hint where
  at_ : Nat
  clusters : Nat
  session : Nat
  deriving DecidableEq, Repr

/-- Power management (R387 to R404). `device` is 0 while clusters have states of their own, else 4 or 5; `entering` the state being
entered and the state before, for a cluster (0 to 31) or the device (32). -/
structure Pwr where
  clusters : Table ClusterPower
  device : Nat
  entering : Table (Nat × Nat)
  waking : BitVec 32
  wakeDevice : Bool
  /-- the wake under way leaves K4 or K5, not K5 alone (R393) -/
  wakeFull : Bool
  hints : Table (Option Hint)
  envEff : Nat
  envCeil : Nat
  tjEff : Nat
  tjCeil : Nat
  /-- envelope and limit that a SET in LOAD left, effective and ceiling, for FW_START (R397) -/
  atStart : Option (Nat × Nat × Nat × Nat)
  /-- a management SET changed a value and no later host PWR_MODE has completed (R398) -/
  changed : Bool
  wakeStart : Option Nat
  /-- the state whose wake time the wake start allows for (R395) -/
  wakeFor : Nat
  watts : Nat
  powerTrip : Option Nat
  selfRefresh : Bool
  askAgainAt : Nat
  /-- per die: last demotion-threshold commit, and the last allocation wait (R402) -/
  thresholdAt : Table Nat
  lastAllocWait : Table Nat
  /-- per cluster: receiver limit of plan 0 and the times of recent detaches (R402) -/
  receiverLimit : Table Nat
  detachTimes : Table (List Nat)
  /-- per cluster: one tick past the last change of its receiver limit (R402) -/
  receiverAt : Table Nat
  /-- per die: the driver's committed thresholds and the LOW firmware committed last (R402) -/
  demoteBase : Table (Nat × Nat × Nat)
  deriving DecidableEq, Repr

/-! ### Memory and translation (spec/09_memory_and_translation.md) -/

/-- A cached translation entry: a leaf, or a pointer of the walk cache at level 2 (T2) or 1 (T1), tagged by the address
bits it translates (`vbase`, `size`) and its address space (R246). -/
structure XltEntry where
  asid : Nat
  vbase : Nat
  size : Nat
  level : Nat
  entry : BitVec 64
  deriving DecidableEq, Repr

/-- Who made a memory request (R250): origin 0 STREAM, 1 BASKET, 2 UPDATE, 3 COMMAND, with the access wanted. -/
structure Waiter where
  origin : Nat
  key : Nat
  cluster : Nat
  core : Nat
  queue : Nat
  index : Nat
  stack : Nat
  va : Nat
  access : Nat
  deriving DecidableEq, Repr

/-- A miss-table entry (R246). -/
structure MissEntry where
  index : Nat
  asid : Nat
  vpage : Nat
  waiters : List Waiter
  /-- a RETRY walk: the FAULT_RESOLVE command that waits for it -/
  retryFor : Option Nat
  /-- which entry was taken first: walkers take entries oldest first (R246) -/
  order : Nat
  deriving DecidableEq, Repr

/-- Where the record of a pending fault stands (R251, R252, R256). -/
inductive RecordState where
  | held
  | queued
  | fetched
  deriving DecidableEq, Repr

/-- A pending-table entry (R246, R250). -/
structure PendEntry where
  index : Nat
  faultId : Nat
  asid : Nat
  va : Nat
  access : Nat
  cause : Nat
  level : Nat
  first : Waiter
  waiters : List Waiter
  record : RecordState
  requeued : Bool
  time : Nat
  deriving DecidableEq, Repr

/-- A record in the fault queue (R250): the die and pending entry it is of, and its 32 bytes. -/
structure QueuedFault where
  faultId : Nat
  bytes : List Byte
  deriving DecidableEq, Repr

/-- One far module slot (R235, R236): state 0 EMPTY, 1 ONLINE, 2 EVACUATING; `reported` while a removal is reported and the page keepers
have not acted on it (R128). -/
structure FarModule where
  state : Nat
  gen : BitVec 8
  capGib : Nat
  width : Nat
  evacDone : Bool
  evacStart : Nat
  reported : Bool
  deriving DecidableEq, Repr

/-- Translation (R246 to R257). Miss and pending entries are keyed by die × 256 + index. -/
structure Xlt where
  coreCache : Table (List XltEntry)
  dieCache : Table (List XltEntry)
  walkCache : Table (List XltEntry)
  miss : Table (Option MissEntry)
  /-- miss-table entries taken since reset -/
  missCount : Nat
  pend : Table (Option PendEntry)
  /-- requests held in miss registers, with their die and address space, oldest first (R246) -/
  missRegs : List (Nat × Nat × Waiter)
  queue : List QueuedFault
  /-- records written to the ring since reset: where the next goes (R251) -/
  ringAt : Nat
  overflow : Bool
  serials : Table Nat
  /-- held faults in the order their walks ended, by fault_id -/
  heldOrder : List Nat
  farModules : Table FarModule
  /-- far events accepted but held while the die-common domains are off (R237) -/
  farEvents : List (BitVec 64)
  /-- far events acknowledged to the host bridge, and the event serial of the last (R237) -/
  farAcked : Nat
  farAckSerial : BitVec 16
  /-- hampers (R231): lines (PA ÷ 256) cached by set, die × 16384 + PA[21:8], most recently used first -/
  hamper : Table (List Nat)
  deriving DecidableEq, Repr

/-! ### Page keepers and spine indexes (spec/05_kv_pages.md, spec/06_prefix_sharing.md) -/

/-- What a quarantine list holds (R152): a page, a radix node, a set node, a spine node or a key slot. -/
inductive QuarKind where
  | page
  | radixNode
  | setNode
  | spineNode
  | keySlot
  deriving DecidableEq, Repr

/-- An object in quarantine with the reclamation epoch of its entry (R152). -/
structure Quarantined where
  kind : QuarKind
  number : Nat
  epoch : BitVec 8
  deriving DecidableEq, Repr

/-- Why a move runs (R121, R133, R239). -/
inductive MoveReason where
  | automatic
  | command (key : Nat)
  | evacuation (module : Nat)
  deriving DecidableEq, Repr

/-- A move (R123): in progress once `started`, when it has its new frame; until then it waits for one of the 16 moves of its page
keeper (R117). -/
structure Move where
  page : Nat
  toFar : Bool
  newFrame : Nat
  reason : MoveReason
  started : Bool
  deriving DecidableEq, Repr

/-- The use of one die's pools (R427 gives the free index out), each list rising. -/
structure Pools where
  headers : List Nat
  near : List Nat
  far : List Nat
  /-- radix nodes and set nodes share the node pool (R137) -/
  nodes : List Nat
  spineNodes : List Nat
  keySlots : List Nat
  /-- groups of 1,024 far frames gone with a module (R128) -/
  farGone : List Nat
  deriving DecidableEq, Repr

/-- An allocation that waits (R119): the command, its cluster, since when, and whether a page has been dropped for it (R124). -/
structure AllocWait where
  key : Nat
  cluster : Nat
  since : Nat
  dropped : Bool
  /-- the one die it can take a near frame of: a DROPPED page that is written gets its frame on its own die (R120) -/
  only : Option Nat
  /-- the page whose restoration waits (R125) -/
  restore : Option Nat
  /-- what a die keeps for it, out of its pools: the die, a header and a near frame (R119, R129) -/
  held : Option (Nat × Nat × Nat)
  /-- its wait has ended with what is kept (R119) -/
  done : Bool
  deriving DecidableEq, Repr

/-- A restoration in progress (R125): the page, the sequence whose walk met it, the waiting command and its cluster. -/
structure Restore where
  page : Nat
  seq : Nat
  key : Nat
  cluster : Nat
  /-- near frames taken for DROPPED pages that it will write: page and frame (R120, R126) -/
  frames : List (Nat × Nat)
  deriving DecidableEq, Repr

/-- Page keepers, spine indexes and reclamation (R109 to R159). -/
structure Pgk where
  pools : Table Pools
  quarantine : List Quarantined
  moves : List Move
  demoting : Table Bool
  allocWaits : List AllocWait
  restores : List Restore
  /-- cursors KV_RECOMPUTE_LIST replies returned: value, the selection it belongs to, and where the list goes on (R134) -/
  cursors : List (Nat × Nat × Nat)
  /-- reclamation epoch E and the commands admitted since it last advanced (R152) -/
  epoch : BitVec 8
  sinceAdvance : Nat
  /-- near-tier addresses of CODE_UE records that the page keepers have not yet matched against their frames (R127) -/
  bad : List Nat
  /-- the dies on which the last publication stopped POOL or BUCKET_FULL (R159) -/
  poolEmpty : List Nat
  deriving DecidableEq, Repr

/-! ### Scratchpads (spec/07_scratchpad.md). A core is numbered by bits [26:19] of its addresses (R161). -/

/-- An arrival counter (R178). -/
structure ArrivalCounter where
  armed : Bool
  reload : Bool
  fired : Bool
  ovf : Bool
  fillCount : Nat
  fillFirst : Nat
  target : BitVec 32
  count : BitVec 32
  deriving DecidableEq, Repr

/-- A window control block (R181): `state` 0 CLOSED, 1 OPEN, 2 CLOSING. `closedAt` is the full timebase (R185); `openedFor` the slot
key of the command that opened it, plus 1. -/
structure Window where
  state : Nat
  gen : BitVec 8
  wPgk : Bool
  wKtl : Bool
  wFw : Bool
  inFlight : Nat
  limit : BitVec 19
  base : BitVec 19
  closedAt : Nat
  refused : BitVec 32
  openedFor : Nat
  deriving DecidableEq, Repr

/-- An acknowledgement or refusal on its way back to a sender (R176). -/
structure AckMsg where
  src : BitVec 16
  word : Word128
  deriving DecidableEq, Repr

/-- Scratchpads and what stands beside them (R160 to R190): byte address of word `w` of core `c` is `(c·2¹⁹ + w)·16`. -/
structure Spad where
  mem : Mem
  /-- FULL bits of each core's granules (R169) -/
  tags : Table (BitVec 2048)
  /-- arrival counters, core × 64 + counter -/
  arrivals : Table ArrivalCounter
  /-- windows, core × 8 + window -/
  windows : Table Window
  /-- privileged writes admitted and not yet complete, oldest first: source, request and words (R181, R183) -/
  admitted : List (BitVec 16 × Word128 × List (Word128 × Bool))
  /-- semaphore pairs, core × 16 + pair, in the map of R204 -/
  sems : Table (BitVec 64)
  /-- block scales beside the rows of stream tiles, by global scratchpad address of a row's first word (R195, log 38) -/
  scales : Table (List (Byte × Bool))
  /-- multicast buffers, byte address cluster × 2¹⁹ + offset (R222) -/
  multicast : Mem
  /-- ACKs and NAKs not yet returned, oldest first (R176) -/
  acks : List AckMsg
  /-- ACKs and NAKs that have reached their senders, oldest first (R176) -/
  returned : List AckMsg
  /-- an overrun recorded since the last CLEAR, per cluster (R190) -/
  overrun : Table Bool
  /-- words accepted by the package handoff: address, word, poison flag (R187) -/
  handoff : List (Nat × Word128 × Bool)
  /-- handoff notices posted, oldest first (R187), each with where it goes: the vector engine of a CREDIT, the package handoff address
  of a DATA notice's buffer -/
  notices : List (Nat × Word128)
  deriving DecidableEq, Repr

/-! ### Streams (spec/08_streams.md) -/

/-- A loaded plan (R207): where it lies in the plan store and its image's bytes there. -/
structure Plan where
  offset : Nat
  bytes : Nat
  deriving DecidableEq, Repr

/-- What the tile that a queue issues next waits for. -/
inductive QueueWait where
  | none
  /-- the next basket of descriptors (R203) -/
  | basket
  /-- transfers of the tiles issued before, or their delivery (R192) -/
  | transfers
  /-- an instruction of the tile's program at `pc` (R202) -/
  | program
  /-- CWAIT: counter, value -/
  | counter (ctr : Nat) (value : BitVec 64)
  /-- WWAIT -/
  | window (win : Nat)
  /-- WOPEN waiting for R182 -/
  | reopen (win : Nat) (arg : BitVec 64)
  /-- SWAIT, or the take of a descriptor's SEM pair (`sem`) -/
  | semaphore (pair : Nat) (full : Bool) (sem : Bool)
  /-- a tile of the stream that must be released first (R193) -/
  | slot
  /-- a tile that the queue's multicast group delivers (R222) -/
  | group
  /-- the next plan step: a descriptor of the plan's step queue has completed (R209) -/
  | boundary
  /-- a plan's queue whose list has been delivered -/
  | done
  deriving DecidableEq, Repr

/-- How the current tile is moved (R201). -/
inductive TileOp where
  | undecided
  | emit (mem : BitVec 64) (word : Nat)
  | empty
  /-- an LDS of the program met poison (R410) -/
  | poison
  deriving DecidableEq, Repr

/-- One transfer of a tile (R192): its row, its first byte within the row (of the row's scales where `scale` says so) and its bytes; whether it
is in flight or has completed; the translation page on whose fault it waits (R218); whether its row lies in a page of the no-map list
(R220); whether it has still to mark its granule (R169). -/
structure Transfer where
  row : Nat
  byte : Nat
  bytes : Nat
  scale : Bool := false
  sent : Bool := false
  done : Bool := false
  fault : Option Nat := none
  lost : Bool := false
  marks : Option Nat := none
  deriving DecidableEq, Repr

/-- A tile that its queue has issued and not yet delivered (R191): its descriptor with its index, its loop indices, its number within the
descriptor and within the stream, what is done with it, its transfers, and whether a word of it left as poison (R187). -/
structure IssuedTile where
  desc : Nat
  raw : BitVec 512
  loops : List Nat
  tile : Nat
  slot : Nat
  op : TileOp
  transfers : List Transfer
  bad : Bool
  deriving DecidableEq, Repr

/-- A stall timer: ticks it has run, and the budget that was in force when it began (R170, R171). -/
structure Stall where
  ran : Nat
  budget : Nat
  deriving DecidableEq, Repr

/-- Standalone stream states (R217). -/
inductive StreamState where
  | free
  | running
  | faulted
  | parked
  deriving DecidableEq, Repr

/-- One stream queue of one core and its standalone stream (R191 to R221). -/
structure Queue where
  state : StreamState
  gen : BitVec 8
  /-- slot key of the STREAM_ARM or STREAM_REARM that runs it -/
  key : Nat
  session : Nat
  plan : Nat
  persist : Bool
  /-- P0 to P7 -/
  params : List (BitVec 64)
  /-- the descriptors of the basket in hand, in list order, and the index of the first (R203) -/
  basket : List (BitVec 512)
  desc : Nat
  /-- loop indices of levels 0 to 5, and the tile's number within the descriptor and within the stream -/
  loops : List Nat
  tile : Nat
  streamTile : Nat
  released : Nat
  regs : List (BitVec 64)
  pc : Nat
  op : TileOp
  /-- tiles issued and not delivered, oldest first; the fields above and `wait` are those of the tile that is issued next (R193, R202) -/
  issued : List IssuedTile
  /-- words gathered into the queue's next beat, and whether the beat writes (R166, R167) -/
  beat : List Nat
  beatWrite : Bool
  semTaken : Bool
  wait : QueueWait
  /-- the timer of `wait` (R202) -/
  stall : Stall
  /-- the access that a slot tag blocks: its granule, whether it writes, and its timer (R169, R170) -/
  tagWait : Option (Nat × Bool × Stall)
  /-- the timer of a store to the package handoff (R172, R187) -/
  handoff : Option Stall
  /-- a handoff unit is whole and its DATA notice not yet posted (R187) -/
  unitDone : Bool
  /-- no-map list (R220): translation page addresses, oldest first -/
  noMap : List Nat
  noMapHit : Bool
  /-- pages of discarded store rows that are recorded (R220) -/
  noMapRec : List Nat
  poisoned : Bool
  unitTiles : Nat
  unitBytes : Nat
  unitPoison : Bool
  unitFirst : Nat
  /-- the descriptor whose handoff unit is being filled (R187) -/
  unitDesc : Nat
  deriving DecidableEq, Repr

/-- One receiver of a multicast group (R222 to R224). -/
structure Receiver where
  core : Nat
  split : Nat
  taken : Nat
  attached : Bool
  holdSince : Option Nat
  /-- the detach budget in force when the receiver began to hold the group (R224, R345) -/
  budget : Nat := 0
  deriving DecidableEq, Repr

/-- A multicast group of a plan step (R222): tiles it will carry, 0 where the receivers' queue decides; the receivers' queue, none under a
standard plan; the group's ring in the multicast buffer; tiles fetched, and the rows of tiles in the ring that lie in unmapped pages
(R220). -/
structure Group where
  key : Nat
  tiles : Nat
  receivers : List Receiver
  fetched : Nat
  queue : Option Nat
  base : Nat
  slotWords : Nat
  slots : Nat
  lost : List (Nat × List Nat)
  /-- the block scales of the tiles in the ring, by the tile's number, its row and the byte within the row's scales -/
  scales : List ((Nat × Nat × Nat) × List (Byte × Bool)) := []
  deriving DecidableEq, Repr

/-- Streams, plans and groups. Queues are keyed core × 8 + queue, groups cluster × 4 + group. -/
structure Str where
  plans : Table (Option Plan)
  queues : Table Queue
  groups : Table (Option Group)
  deriving DecidableEq, Repr

/-! ### Update units (spec/10_update_units.md) -/

/-- One update unit (R258 to R280): the lane registers hold the element last evaluated. -/
structure UpdUnit where
  key : Option Nat
  cursor : Nat
  faulted : Bool
  slot : Nat
  regs : Table F32
  /-- random value and store format of the element in the lane (R262 RNDR) -/
  fmtP : BitVec 16
  rem : Bool
  rand : Nat
  /-- an operand of the row at the cursor could not be read when the lane was loaded -/
  stale : Bool
  deriving DecidableEq, Repr

/-- Update units by global stack, and the program slots they share (R264). -/
structure Upd where
  units : Table UpdUnit
  programs : Table (List (BitVec 32))
  deriving DecidableEq, Repr

/-! ### Kettle links and the die ring (spec/11_kettle_links.md, spec/01_organisation.md R15 to R17) -/

/-- A frame that waits at a port (R287): its header without seq and ack, for a forwarded frame the port it came by and its seq there,
and the command whose transfer it belongs to. -/
structure KtlWaiting where
  frame : List Granule
  via : Option (Nat × Nat)
  key : Option Nat
  deriving DecidableEq, Repr

/-- A frame in a receive buffer that waits for a wake (R292): its port, and whether its credit is still to be returned there. -/
structure HeldFrame where
  port : Nat
  frame : List Granule
  owed : Bool
  deriving DecidableEq, Repr

/-- The route of a transfer that is forwarded (R291): source and tag; type, destination and the fixed part of its addresses; the address
of its last frame; the port its first frame took. -/
structure KtlRoute where
  src : Nat
  xfer : Nat
  type : Nat
  dst : Nat
  stem : Nat
  last : Nat
  port : Nat
  deriving DecidableEq, Repr

/-- A kettle port (R288, R295, R303). `state` is the STATE code of KTL_PORT_STAT. -/
structure KtlPort where
  state : Nat
  changed : Bool
  trainFails : Nat
  peerPort : Nat
  peerPkg : Nat
  width : Nat
  changedAt : Nat
  reason : Nat
  lanesLocked : BitVec 16
  lanesInverted : BitVec 16
  reversed : Bool
  fecCorr : Nat
  fecUncorr : Nat
  replays : Nat
  peerMode : Nat
  rttNs : Nat
  expectPkg : Nat
  expectPort : Nat
  width8 : Bool
  txSeq : Nat
  rxSeq : Nat
  /-- frames sent and not acknowledged, oldest first (R286) -/
  replayBuf : List (List Granule)
  /-- how often a replay began with a frame of the replay buffer, by its seq (R286) -/
  failedReplays : Table Nat
  routed : Bool
  identSentAt : Nat
  lastIdent : Word128
  /-- DETACH received, its DETACH_ACK waiting for the replay buffer (R288) -/
  ackDetach : Bool
  /-- in DRAIN: DETACH has been sent (R294) -/
  detachSent : Bool
  /-- the LINK_DETACH commands that wait for OFF -/
  detaching : List Nat
  lost : Nat
  /-- frames that wait for the link, for its credits or for room in the replay buffer, oldest first (R287) -/
  waiting : List KtlWaiting
  /-- the acknowledgement sent last -/
  lastAck : Nat
  deriving DecidableEq, Repr

/-- What a ring command waits for: the DONE of a transfer, a peer's credit for a round or an output tile, a round's block or a tile's partial
(R300, R301). -/
inductive RingWait where
  | done (xfer : Nat)
  | credit (n : Nat)
  | block (n : Nat)
  deriving DecidableEq, Repr

/-- A transfer of a ring command over the links (R300, R301). -/
structure KtlTransfer where
  xfer : Nat
  key : Nat
  peer : Nat
  port : Nat
  frames : Nat
  done : Bool
  deriving DecidableEq, Repr

/-- A transfer that arrives: its source package, tag, ring group and round, the port of its first frame and the frames written (R300,
R301). -/
structure Inbound where
  src : Nat
  xfer : Nat
  group : Nat
  round : Nat
  port : Nat
  frames : Nat
  done : Bool
  /-- the window a partial comes through: core, window and generation (R301) -/
  via : Option (Nat × Nat × Nat)
  deriving DecidableEq, Repr

/-- Kettle link units: ports, the link map, each group's ring sequence, transfers in progress, frames sent and frames held for
a wake (R291, R292, R297). -/
structure Ktl where
  ports : Table KtlPort
  linkMap : BitVec 64
  ringSeq : Table (BitVec 16)
  nextXfer : Nat
  transfers : List KtlTransfer
  inbound : List Inbound
  sent : List (Nat × List Granule)
  heldFrames : List HeldFrame
  routes : List KtlRoute
  /-- credits received: source package, payload granule 0 of the CREDIT frame -/
  credits : List (Nat × Word128)
  /-- ECHO_REPLY messages received: source package, body -/
  echoes : List (Nat × List Granule)
  deriving DecidableEq, Repr

/-- One direction of a die-ring link at its receiver (R16, R17): keyed die × 2 + direction (1: the link towards the next die). -/
structure RingLink where
  txSeq : Nat
  replayBuf : List (BitVec 32 × List Granule)
  frontReplays : Nat
  rxSeq : Nat
  nakSent : Bool
  /-- the word of the last CREDIT flit: its layout is not stated (log 25) -/
  credits : Word128
  down : Bool
  deriving DecidableEq, Repr

/-- The die ring: its links, flits sent and flits delivered to their die. -/
structure Ring where
  links : Table RingLink
  sent : List (Nat × BitVec 32 × List Granule)
  inbox : List (Nat × BitVec 32 × List Granule)
  deriving DecidableEq, Repr

/-! ### Commands in progress (spec/12_host_interface.md R311, spec/13_scheduling.md, spec/14_firmware.md R366 to R368) -/

/-- A value with its poison mark (R64). -/
abbrev Marked := F32 × Bool

/-- One row of a partial (R74, R86): running maximum, running sum, poison of the row state, and the output row. A matrix
partial uses the output row alone. -/
structure RowAcc where
  m : F32
  l : F32
  bad : Bool
  o : List Marked
  deriving DecidableEq, Repr

/-- A stationary operand in the cells of a score array: the model's number of it, the axis along which the elements of a cell are packed,
and its cells by array row and column, the elements of one cell side by side along that axis, each with its scale and poison registers
(R45 to R47). Cells that masks gate for a whole step are left out (R51). -/
structure Stationary where
  id : Nat
  axisT : Bool
  cells : List (List Elem)
  deriving DecidableEq, Repr

/-- The registers of one core's score array and its accumulator file (R45, R48, R49, R52 to R54): the active and the shadow set, each cell's
stream latch and sum latch as the last vector of a pass left them, the re-feed buffer with the low and the high half of each streaming vector
of a pass that splits them, and the banks in use, each with the model's number of its output tile and its entries; two at most. All of it is
discarded at the end of a plan step (R60). -/
structure ScoreArray where
  active : Option Stationary
  shadow : Option Stationary
  stream : List (List Elem)
  sums : List (List Sum)
  refeed : List (List Elem × List Elem)
  banks : List (Nat × List (List Sum))
  deriving DecidableEq, Repr

/-- One stored tile of a plan step in step staging (R366, R367): its destination, the distance between its rows, and each row's bytes with
their poison. `kind` 0 MEM, 1 KV, 2 REMOTE, 3 HANDOFF; 4 a MEM store of single bits, each row a mask byte and a value byte. A KV store that
makes tokens valid names its page as number + 1 and its first token (R118). A REMOTE store names its core and its arrival counter; a
handoff notice is staged as an entry without rows, with its destination (R187, R366). -/
structure Staged where
  kind : Nat
  asid : Nat
  dest : Nat
  stride : Nat
  rows : List (List (Byte × Bool))
  page : Nat := 0
  token : Nat := 0
  core : Nat := 0
  ctr : Nat := 0
  notice : Option (Nat × Word128) := none
  deriving DecidableEq, Repr

/-- A load tile that a stream program of a loaded plan declared empty in a plan step: its address, the distance between its rows, its rows and
the bytes of one, and whether it stands for poison (R33, R201, R410). -/
structure EmptyTile where
  base : Nat
  stride : Nat
  rows : Nat
  rowBytes : Nat
  bad : Bool
  deriving DecidableEq, Repr

/-- A command's hold on one cluster (R366): its record slot, the scratchpad lane of a standard plan (R208), the plan step that
runs, what it has staged, its step record and its pin list. -/
structure Hold where
  cluster : Nat
  /-- preempted on this cluster (R339) -/
  paused : Bool
  rslot : Nat
  lane : Nat
  /-- the running plan step, as an index into the steps of the hold -/
  unit : Option Nat
  staged : List Staged
  /-- 0 IDLE, 1 STAGED, 2 DRAINED (R367), 3 while drain-done is set and DRAINED not yet written -/
  recState : Nat
  ckptSeq : Nat
  steps : Nat
  /-- pages pinned, in walk order (R368) -/
  pins : List Nat
  /-- what the walk of the next or running step found, in walk order: sequence, KV head and page index, with page number + 1, or 0 for
  none. A replayed walk takes the pages it holds (R115, R368) -/
  walk : List ((Nat × Nat × Nat) × Nat)
  /-- the P0 entry whose lock a copy-on-write of the command's walk holds: its node and index (R149) -/
  locked : Option (Nat × Nat)
  faulted : Bool
  /-- no-map lists of the queues of the plan step's own accesses, by core × 8 + queue, and the pages of discarded store rows that are recorded
  (R220) -/
  noMap : List (Nat × List Nat)
  noMapRec : List Nat
  parityErrors : Nat
  /-- nodes of combine trees that the cluster's combine unit has formed, by tile, level and lowest split (R43, R87) -/
  nodes : Table (List RowAcc)
  /-- a bank conflict of the command on this cluster is recorded (R167) -/
  conflict : Bool
  /-- partial slots reserved for the running plan step, by the cluster of the combine unit (R87) -/
  slots : Table Nat
  /-- tiles that the streams of a loaded plan have stored in the running plan step (R366) -/
  streamed : List Staged
  /-- load tiles that the streams of a loaded plan have declared empty in the running plan step (R201) -/
  emptied : List EmptyTile
  /-- the queues of a loaded plan as the last commit left them, task × 8 + queue: what a plan step or its replay starts from (R221) -/
  saved : List (Nat × Queue)
  /-- the cores that the running plan step uses (R65) -/
  cores : List Nat
  /-- where fewer cores than tasks are left, a visit runs in several plan steps: the tasks of the visit whose steps have committed, those of the
  staged step, none where it ends its visit, and how many plan steps more than visits the hold has committed (R13, R65, R340) -/
  ran : List Nat
  running : List Nat
  extra : Nat
  /-- a plan step was discarded and has not committed again: no preemption before it has (R375) -/
  replaying : Bool
  deriving DecidableEq, Repr

/-- A command Kerur has taken and not completed. -/
structure Cmd where
  /-- slot key: host slots 0 to 63, management 64 to 67, debug 68 -/
  key : Nat
  opcode : Nat
  order : Nat
  admittedAt : Nat
  stage : Stage
  clamps : List ClampEntry
  steps : Nat
  stepsPlanned : Nat
  startEpoch : BitVec 8
  /-- configuration epoch, once placed (R345) -/
  cfgEpoch : Option (BitVec 8)
  placedAt : Option Nat
  atRisk : Bool
  missed : Bool
  poison : Bool
  conflict : Bool
  /-- completion code with which the command stops at its next boundary (R344) -/
  stop : Option Nat
  /-- a batch command whose key is raised until the batch share is restored (R341) -/
  raised : Bool
  /-- it has asked a running command to yield and is not yet placed; with `stop`, it stops at its first plan-step boundary (R355) -/
  preempting : Bool
  /-- plan steps that the scheduler has seen committed (R342, R370) -/
  reported : Nat
  /-- clusters that it is expected to be placed on (R342) -/
  span : Nat
  /-- the slack that the monitor found last, in ticks (R342, R402) -/
  slack : Option Int
  /-- the finished reply's result, once the work is done (R352) -/
  result : BitVec 64
  lastInterim : Option Nat
  lastStatus : BitVec 32
  /-- compute commands: holds by cluster, partials, fully masked rows (R98) -/
  holds : List Hold
  parts : Table (List RowAcc)
  /-- how often the unfinished sums of a partial have been written back (R39) -/
  backs : Table Nat
  maskedRows : Nat
  /-- partials that stand in slots of combine units: their tasks, with the cluster of the unit (R87) -/
  slotted : List (Nat × Nat)
  /-- ATTN_FWD with packing: the pack entries as they were read at acceptance (R88, R101) -/
  packTable : List Nat
  /-- dropped pages whose restoration for this command failed (R125) -/
  unrestored : List Nat
  /-- DROPPED pages that the command has written back: its writes never copy them (R120) -/
  revived : List Nat
  /-- slots of far modules already recorded for this command (R238) -/
  farSeen : List Nat
  /-- UPD_STEP: rows committed, guarded, left for poison; units that recorded UPD_POISON (R272, R275) -/
  rows : Nat
  guarded : Nat
  poisonRows : Nat
  poisonUnits : List Nat
  /-- the cursors of a preempted UPD_STEP by stack (R278) -/
  cursors : Table Nat
  /-- moves committed and skipped (R133) -/
  moved : Nat
  skipped : Nat
  /-- answers applied and stale, walks outstanding (R254) -/
  applied : Nat
  stale : Nat
  /-- ring commands: ring sequence, digest, the rounds credited or partials taken, and what it waits for with the tick each wait began
  (R298, R300) -/
  ringSeq : Option (BitVec 16)
  digest : BitVec 64
  round : Nat
  ringWaits : List (RingWait × Nat)
  /-- a COMMAND-origin access: NO_MAPPING or ABORT was answered (R255) -/
  abortFault : Bool
  /-- what the command waited for has come: it is carried on at the end of the step -/
  ready : Bool
  deriving DecidableEq, Repr

/-- Kerur. -/
structure State where
  /-- device timebase, in ticks of the 38.4 MHz clock -/
  now : Nat
  dev : DevState
  host : HostIf
  cfg : Cfg
  sessions : Table Session
  lease : Lease
  cmds : List Cmd
  admitSeq : Nat
  /-- the last 100 ms of cluster-time (R341): from a tick on, how many clusters ran a class 1 and a class 2 command, newest first -/
  shares : List (Nat × Nat × Nat)
  ras : Ras
  log : Log
  fw : Fw
  pwr : Pwr
  xlt : Xlt
  pgk : Pgk
  spad : Spad
  str : Str
  upd : Upd
  ktl : Ktl
  ring : Ring
  /-- score arrays by core (R45) -/
  arrays : Table ScoreArray
  /-- event counters and CTL registers of the counter blocks, by window offset (R304) -/
  counters : Table (BitVec 64)
  /-- near and far tier, by physical address (R228) -/
  pmem : Mem
  /-- host memory, by host bus address -/
  hostMem : Mem
  /-- the model's own: the number of the next free value (log 5) -/
  freeCtr : Nat
  /-- commands waiting, first in, first out -/
  pending : List Instr
  deriving DecidableEq, Repr

/-! ### Right after the management island has started (R365 step 2) -/

/-- An empty memory. -/
def Mem.reset : Mem := ⟨[], []⟩

/-- A session entry before its first use: FREE, with generation 1 (R333; log 2). -/
def Session.reset : Session := ⟨.free, 1, 0, false, false, false, 0, 0⟩

/-- 100 ms and 2 s in ticks (R350). -/
def Lease.reset : Lease := ⟨.off, 0, 3840000, 76800000, 0, 0, 0, 0, none, none⟩

/-- A processor in RESET (R358). -/
def Proc.reset : Proc := ⟨.reset, 0, 0, [], 0, 0, 0, false, false⟩

/-- A cluster that power management has not yet powered (R365 step 6): its logic is off (log 3). -/
def ClusterPower.reset : ClusterPower := ⟨3, 0, 0, false, none, none, false⟩

/-- An EMPTY far module slot (R235). -/
def FarModule.reset : FarModule := ⟨0, 0, 0, 0, false, 0, false⟩

/-- No pool object in use. -/
def Pools.reset : Pools := ⟨[], [], [], [], [], [], []⟩

/-- R178 reset. -/
def ArrivalCounter.reset : ArrivalCounter := ⟨false, false, false, false, 0, 0, 0, 0⟩

/-- R181 reset. -/
def Window.reset : Window := ⟨0, 0, false, false, false, 0, 0, 0, 0, 0, 0⟩

/-- A queue without a stream. -/
def Queue.reset : Queue where
  state := .free
  gen := 0
  key := 0
  session := 0
  plan := 0
  persist := false
  params := []
  basket := []
  desc := 0
  loops := []
  tile := 0
  streamTile := 0
  released := 0
  regs := []
  pc := 0
  op := .undecided
  issued := []
  beat := []
  beatWrite := false
  semTaken := false
  wait := .none
  stall := ⟨0, 0⟩
  tagWait := none
  handoff := none
  unitDone := false
  noMap := []
  noMapHit := false
  noMapRec := []
  poisoned := false
  unitTiles := 0
  unitBytes := 0
  unitPoison := false
  unitFirst := 0
  unitDesc := 0

/-- An idle update unit. -/
def UpdUnit.reset : UpdUnit := ⟨none, 0, false, 0, [], 0, false, 0, false⟩

/-- An OFF kettle port (R288, R303). -/
def KtlPort.reset : KtlPort where
  state := 0
  changed := false
  trainFails := 0
  peerPort := 0
  peerPkg := 0
  width := 0
  changedAt := 0
  reason := 0
  lanesLocked := 0
  lanesInverted := 0
  reversed := false
  fecCorr := 0
  fecUncorr := 0
  replays := 0
  peerMode := 0
  rttNs := 0
  expectPkg := 0xFF
  expectPort := 0xFF
  width8 := false
  txSeq := 0
  rxSeq := 0
  replayBuf := []
  failedReplays := []
  routed := false
  identSentAt := 0
  lastIdent := 0
  ackDetach := false
  detachSent := false
  detaching := []
  lost := 0
  waiting := []
  lastAck := 4095

/-- A score array between plan steps (R60). -/
def ScoreArray.reset : ScoreArray := ⟨none, none, [], [], [], []⟩

/-- A die-ring link direction at start. -/
def RingLink.reset : RingLink := ⟨0, [], 0, 0, false, 0, false⟩

/-- An error counter entry (R421). -/
def ErrCount.reset : ErrCount := ⟨0, 0, 0, false, false, false⟩

/-- Kerur right after the management island has started: timebase 0, state LOAD, the debug port locked, every slot host-owned, every
register at the value its field map gives. -/
def State.reset : State where
  now := 0
  dev := .load
  host := ⟨[], [], 0, 0, 0, 0, none, [], false, 0, 0⟩
  cfg := ⟨[], [], [], 0, [(0, [])], 0⟩
  sessions := []
  lease := Lease.reset
  cmds := []
  admitSeq := 0
  shares := []
  ras := ⟨[], 0, 0, false, 0, 0, [], [], [], [], [], []⟩
  log := ⟨[], [], 0, 0, 0, 0, 0⟩
  fw := ⟨[], [], [], [], [], none, none⟩
  pwr := ⟨[], 0, [], 0, false, false, [], 0, 0, 100, 100, none, false, none, 0, 0, none, false, 0, [], [], [], [], [], []⟩
  xlt := ⟨[], [], [], [], 0, [], [], [], 0, false, [], [], [], [], 0, 0, []⟩
  pgk := ⟨[], [], [], [], [], [], [], 0, 0, [], []⟩
  spad := ⟨Mem.reset, [], [], [], [], [], [], Mem.reset, [], [], [], [], []⟩
  str := ⟨[], [], []⟩
  upd := ⟨[], []⟩
  ktl := ⟨[], 0, [], 0, [], [], [], [], [], [], []⟩
  ring := ⟨[], [], []⟩
  arrays := []
  counters := []
  pmem := Mem.reset
  hostMem := Mem.reset
  freeCtr := 0
  pending := []

end Sys2Proof.Machine
end

