-- ==== Sys2Proof/Machine/Ops.lean ====
section
/-! DEFINITION. The named operations over tables, memories, slots, counters, the log and the RAS unit, and the action type in
which the bodies of commands are written. -/
namespace Sys2Proof.Machine

/-! ### Tables -/

/-- The value at a key, `d` when it is not listed. -/
def tget {α : Type} (d : α) : Table α → Nat → α
  | [], _ => d
  | (k', v) :: r, k => if k = k' then v else if k < k' then d else tget d r k

/-- A table with one key set; a value equal to the default `d` is not listed. -/
def tset {α : Type} [DecidableEq α] (d : α) : Table α → Nat → α → Table α
  | [], k, v => if v = d then [] else [(k, v)]
  | (k', v') :: r, k, v =>
    if k < k' then (if v = d then (k', v') :: r else (k, v) :: (k', v') :: r)
    else if k = k' then (if v = d then r else (k, v) :: r)
    else (k', v') :: tset d r k v

/-- The canonical form: keys rise strictly and no entry holds the default. -/
def Table.wf {α : Type} [DecidableEq α] (d : α) (t : Table α) : Bool :=
  t.all (fun e => decide (e.2 ≠ d)) && decide (t.Pairwise (fun a b => a.1 < b.1))

/-- Insertion into a rising list of numbers without repeats. -/
def insertNat (n : Nat) : List Nat → List Nat
  | [] => [n]
  | m :: r => if n < m then n :: m :: r else if n = m then m :: r else m :: insertNat n r

/-- The lowest number not in a rising list, counting from `k` (R427). -/
def lowestFree : Nat → List Nat → Nat
  | k, [] => k
  | k, m :: r => if m = k then lowestFree (k + 1) r else k

/-! ### Memories -/

/-- A byte as stored. -/
def Mem.byte (m : Mem) (a : Nat) : Byte := tget 0 m.cells a

/-- The canonical form of a memory. -/
def Mem.wf (m : Mem) : Bool := Table.wf (α := Byte) 0 m.cells && Table.wf (α := BitVec 16) 0 m.chk

/-- The data word of the granule that starts at a multiple of 16. -/
def Mem.word (m : Mem) (g : Nat) : Word128 :=
  BitVec.ofNat 128 (bytesNat ((List.range 16).map (fun i => m.byte (g + i))))

/-- The whole granule at a granule address (R405, R406). -/
def Mem.granule (m : Mem) (g : Nat) : Granule := granuleOf (m.word g) (tget 0 m.chk g)

/-- What a read of the granule delivers: its word and whether it is poison (R407). -/
def Mem.deliver (m : Mem) (g : Nat) : Word128 × Bool :=
  if tget 0 m.chk g = 0 then (m.word g, false) else deliverGranule (m.granule g)

/-- A byte as delivered, with the poison of its granule. -/
def Mem.read (m : Mem) (a : Nat) : Byte × Bool :=
  if tget 0 m.chk (a / 16 * 16) = 0 then (m.byte a, false)
  else
    let d := m.deliver (a / 16 * 16)
    (d.1.extractLsb' (8 * (a % 16)) 8, d.2)

/-- `n` bytes as delivered. -/
def Mem.reads (m : Mem) (a n : Nat) : List (Byte × Bool) := (List.range n).map (fun i => m.read (a + i))

/-- One stored byte set. -/
def Mem.setByte (m : Mem) (a : Nat) (b : Byte) : Mem := { m with cells := tset 0 m.cells a b }

/-- A whole granule stored, with its check bits. -/
def Mem.setGranule (m : Mem) (g : Nat) (x : Granule) : Mem :=
  let w := granuleData x
  let m' := (List.range 16).foldl (fun m i => m.setByte (g + i) (w.extractLsb' (8 * i) 8)) m
  { m' with chk := tset 0 m'.chk g (granuleDelta x) }

/-- A whole word stored clean or as poison (R406). -/
def Mem.setWord (m : Mem) (g : Nat) (w : Word128) (poison : Bool) : Mem :=
  let m' := (List.range 16).foldl (fun m i => m.setByte (g + i) (w.extractLsb' (8 * i) 8)) m
  { m' with chk := tset 0 m'.chk g (if poison then poisonDelta else 0) }

/-- A write of some bytes of one granule, by offset: the whole granule replaces poison, part of it is merged and keeps poison
(R165, R409). -/
def Mem.mergeGranule (m : Mem) (g : Nat) (bs : List (Nat × Byte)) (poison : Bool) : Mem :=
  let old := m.deliver g
  let w := bs.foldl (fun (w : Word128) e =>
    let v : Word128 := e.2.setWidth 128
    (w &&& ~~~(BitVec.ofNat 128 255 <<< (8 * e.1))) ||| (v <<< (8 * e.1))) old.1
  m.setWord g w (poison || (old.2 && decide (bs.length < 16)))

/-- A run of bytes cut at granules: each granule address with the offsets and bytes that fall in it. -/
def granuleShares (a : Nat) (bs : List Byte) : List (Nat × List (Nat × Byte)) :=
  let o := a % 16
  let g := a / 16
  let head := bs.take (16 - o)
  let rest := chunksOf 16 bs.length (bs.drop (16 - o))
  (head :: rest).mapIdx (fun i c => ((g + i) * 16, c.mapIdx (fun k b => ((if i = 0 then o else 0) + k, b))))

/-- A run of bytes written, all poison or all clean (R165, R409). -/
def Mem.write (m : Mem) (a : Nat) (bs : List Byte) (poison : Bool) : Mem :=
  if bs.isEmpty then m
  else (granuleShares a bs).foldl (fun m e => m.mergeGranule e.1 e.2 poison) m

/-! ### Fields of packets and records -/

/-- `w` bits of a slot from bit `o`. -/
def slotBits (p : SlotWord) (o w : Nat) : Nat := (p.extractLsb' o w).toNat

/-- A field of the header part of a packet: `w` bits at byte offset `o` (R309). -/
def hdrField (p : SlotWord) (o w : Nat) : Nat := slotBits p (8 * o) w

/-- A field of the parameter area, `w` bits at byte offset `o` (R309). -/
def param (p : SlotWord) (o w : Nat) : Nat := slotBits p (8 * (0x40 + o)) w

/-- A single bit of the parameter area. -/
def paramBit (p : SlotWord) (o b : Nat) : Bool := p.getLsbD (8 * (0x40 + o) + b)

/-- A packet with `w` bits at bit `o` replaced. -/
def setBits (p : SlotWord) (o w v : Nat) : SlotWord :=
  let mask : SlotWord := BitVec.ofNat 2048 ((2 ^ w - 1) * 2 ^ o)
  (p &&& ~~~mask) ||| (BitVec.ofNat 2048 (v % 2 ^ w * 2 ^ o))

/-- A packet with bytes written from a byte offset. -/
def setBytes (p : SlotWord) (o : Nat) (bs : List Byte) : SlotWord := setBits p (8 * o) (8 * bs.length) (bytesNat bs)

/-- A 64-bit word with `w` bits at `o`. -/
def bits64 (x : Nat) (o w : Nat) : Nat := x / 2 ^ o % 2 ^ w

/-- The slot key of a port's slot (R308), none when the port has no such slot. -/
def slotKey (p : Port) (n : Nat) : Option Nat :=
  match p with
  | .host => if n < 64 then some n else none
  | .mgmt => if n < 4 then some (64 + n) else none
  | .debug => if n = 0 then some 68 else none

/-- The port of a slot key. -/
def portOf (k : Nat) : Port := if k < 64 then .host else if k < 68 then .mgmt else .debug

/-- Port codes of records (R415). -/
def portCode : Port → Nat
  | .host => 0
  | .mgmt => 1
  | .debug => 2

/-- The slot number within its port's set (R308). -/
def slotNumber (k : Nat) : Nat := if k < 64 then k else if k < 68 then k - 64 else 0

/-- The contents of a slot. -/
def slotAt (s : State) (k : Nat) : SlotWord := tget 0 s.host.slots k

/-- A slot is firmware-owned while its OWN bit is 1 (R308). -/
def slotOwned (s : State) (k : Nat) : Bool := (slotAt s k).getLsbD 63

/-- A slot's contents replaced. -/
def setSlot (s : State) (k : Nat) (p : SlotWord) : State :=
  { s with host := { s.host with slots := tset 0 s.host.slots k p } }

/-- The seq of a slot's header (R309). -/
def slotSeq (s : State) (k : Nat) : Nat := slotBits (slotAt s k) 40 8

/-! ### Time -/

/-- An absolute time in ns as ticks, rounded down (R11). -/
def ticksFloor (ns : Nat) : Nat := ns * 384 / 10000

/-- A duration in ns as ticks, rounded up (R11). -/
def ticksCeil (ns : Nat) : Nat := (ns * 384 + 9999) / 10000

/-- Ticks in ns, rounded down. -/
def nsOfTicks (t : Nat) : Nat := t * 10000 / 384

/-! ### Commands -/

/-- The unfinished command of a slot. -/
def cmdOf (s : State) (k : Nat) : Option Cmd := s.cmds.find? (fun c => c.key == k)

/-- The command of a slot changed. -/
def updCmd (s : State) (k : Nat) (f : Cmd → Cmd) : State :=
  { s with cmds := s.cmds.map (fun c => if c.key = k then f c else c) }

/-- The session entry an ID names, when the generations agree (R333). -/
def sessionOf (s : State) (id : Nat) : Option Session :=
  let e := tget Session.reset s.sessions (id % 256)
  if id / 256 % 256 = e.gen then some e else none

/-- The session a slot's header names. -/
def cmdSession (s : State) (k : Nat) : Nat := slotBits (slotAt s k) 16 16

/-- The address space of a command's session (R241). -/
def cmdAsid (s : State) (k : Nat) : Nat := (tget Session.reset s.sessions (cmdSession s k % 256)).asid

/-! ### Processors -/

/-- A processor's state. -/
def procOf (s : State) (i : Nat) : Proc := tget Proc.reset s.fw.procs i

/-- A processor changed. -/
def setProc (s : State) (i : Nat) (p : Proc) : State :=
  { s with fw := { s.fw with procs := tset Proc.reset s.fw.procs i p } }

/-- Whether a processor is RUNNING. -/
def procRunning (s : State) (i : Nat) : Bool := (procOf s i).state == .running

/-! ### The die-common power of the RAS log writer (R387, R392) -/

/-- The die-common domains are off in K5 alone (R389). -/
def dieCommonOn (s : State) : Bool := s.pwr.device ≠ 5

/-! ### Fenced stacks (R414) -/

/-- Whether a source is fenced (R414). -/
def isFenced (s : State) (source : Nat) : Bool := s.ras.fenced.contains source

/-- The global stack of a near-tier address (R228). -/
def stackOf (pa : Nat) : Nat := pa / 2 ^ 39 * 4 + pa / 4096 % 4

/-- Addresses of one die slice in the order of their stacks, and of the addresses in each: records of one step take their serials in that order
of sources (R417). -/
def byStack (gs : List Nat) : List Nat := (List.range 4).flatMap (fun j => gs.filter (fun g => decide (g / 4096 % 4 = j)))

/-- The fenced stacks that a run of near-tier bytes touches, in ascending order. -/
def fencedStacks (s : State) (pa n : Nat) : List Nat :=
  if s.ras.fenced.all (fun f => decide (f < 0xC080 ∨ f ≥ 0xC0A0)) then []
  else
    let units := (List.range (min 4 ((pa + n - 1) / 4096 - pa / 4096 + 1))).map (fun i => pa / 4096 * 4096 + i * 4096)
    ((byStack units).map stackOf).filter (fun st => isFenced s (0xC080 + st))

/-- A run cut at the 4 KiB units of its stacks. -/
def unitPieces : Nat → Nat → List Byte → List (Nat × List Byte)
  | 0, _, _ => []
  | fuel + 1, pa, bs =>
    if bs.isEmpty then []
    else
      let n := 4096 - pa % 4096
      (pa, bs.take n) :: unitPieces fuel (pa + n) (bs.drop n)

/-- Near-tier bytes as delivered: those of a fenced stack are poison (R414). -/
def nearReads (s : State) (pa n : Nat) : List (Byte × Bool) :=
  let fenced := fencedStacks s pa n
  let bs := s.pmem.reads pa n
  if fenced.isEmpty then bs else bs.mapIdx (fun i b => (b.1, b.2 || fenced.contains (stackOf (pa + i))))

/-- Near-tier bytes written; a fenced stack discards its own (R414). -/
def nearWrite (s : State) (pa : Nat) (bs : List Byte) (poison : Bool) : State :=
  let fenced := fencedStacks s pa bs.length
  let pieces := if fenced.isEmpty then [(pa, bs)]
    else (unitPieces (bs.length / 4096 + 2) pa bs).filter (fun e => !fenced.contains (stackOf e.1))
  { s with pmem := pieces.foldl (fun m e => m.write e.1 e.2 poison) s.pmem }

/-! ### The log (R381) -/

/-- The start of the firmware region of a die (R359). -/
def fwBase (d : Nat) : Nat := d * 2 ^ 39 + 0x5FFC000000

/-- The address of a record slot's pin list (R359). -/
def pinListAddr (g r : Nat) : Nat := fwBase (g / 4) + 0x1000000 + g % 4 * 0x200000 + r * 0x80000

/-- The 64 bytes of a log record (R381). -/
def logBytes (r : LogRecord) : List Byte :=
  natBytes 8 (r.serial % 2 ^ 48 + r.drops * 2 ^ 48) ++ natBytes 8 r.time ++ natBytes 2 r.kind ++ natBytes 2 r.source ++
    natBytes 2 r.traceId ++ natBytes 2 0 ++ (r.payload ++ List.replicate 40 0).take 40

/-- One record into the ring, over the oldest when it holds 65,536, and into its place in the firmware region. -/
def logPlace (s : State) (r : LogRecord) : State :=
  let ring := s.log.ring ++ [r]
  let ring := if ring.length > 65536 then ring.drop 1 else ring
  nearWrite { s with log := { s.log with ring := ring } } (fwBase 0 + 0x2A00000 + r.serial % 65536 * 64) (logBytes r) false

/-- The µs of the timebase. -/
def microsecond (s : State) : Nat := s.now * 10 / 384

/-- The records that the log writer may still write in this µs: 16 in all, none while the die-common domains are off (R381, R392; log 15). -/
def logRoom (s : State) : Nat := if dieCommonOn s then 16 - (if s.log.wroteAt = microsecond s then s.log.wrote else 0) else 0

/-- The oldest `n` queued records written, each with the next serial. -/
def logWrite : Nat → State → State
  | 0, s => s
  | n + 1, s =>
    match s.log.queue with
    | [] => s
    | r :: rest =>
      let wrote := if s.log.wroteAt = microsecond s then s.log.wrote + 1 else 1
      logWrite n (logPlace { s with log := { s.log with
        queue := rest, serial := s.log.serial + 1, wroteAt := microsecond s, wrote := wrote } } { r with serial := s.log.serial })

/-- The queued records that the writer can write now (R381). -/
def logDrain (s : State) : State := logWrite (logRoom s) s

/-- A log record given to the writer's queue of 256; one that finds it full is dropped, and the next that finds room carries the count of
drops (R381). -/
def logAdd (s : State) (kind source traceId : Nat) (payload : List Byte) : State :=
  if s.log.queue.length < 256 then
    let r : LogRecord := ⟨0, min s.log.drops 0xFFFF, s.now, kind, source, traceId, payload⟩
    logDrain { s with log := { s.log with queue := s.log.queue ++ [r], drops := 0 } }
  else { s with log := { s.log with drops := s.log.drops + 1 } }

/-! ### Free values (log 5) -/

/-- The next free value of the run. -/
def freshWord (s : State) : BitVec 64 × State := (Config.freeWord s.freeCtr, { s with freeCtr := s.freeCtr + 1 })

/-! ### Counter blocks (R70 to R72, R304) -/

/-- The window offset of a counter block (R304). -/
def blockBase : CounterBlock → Nat
  | .array c => 0x2000 + c.toNat * 0x80
  | .scratchpad c => 0x3000 + c.toNat * 0x80
  | .stream c => 0x4000 + c.toNat * 0x80
  | .update u => 0x5000 + u.toNat * 0x80
  | .pageKeeper d => 0x0800 + d.toNat * 0x80
  | .spine d => 0x0C00 + d.toNat * 0x80
  | .translation d => 0x1000 + d.toNat * 0x80
  | .kettle k => 0x0400 + k.toNat * 0x80

/-- A register of a counter block as stored. -/
def ctrReg (s : State) (off : Nat) : BitVec 64 := tget 0 s.counters off

/-- FREEZE of the block at `base` (R71). -/
def ctrFrozen (s : State) (base : Nat) : Bool := (ctrReg s base).getLsbD 1

/-- A count that holds at 2⁶³ − 1 with OVF set (R70). -/
def satCount (x : BitVec 64) (n : Nat) : BitVec 64 :=
  let c := x.toNat % 2 ^ 63 + n
  if c ≥ 2 ^ 63 then BitVec.ofNat 64 (2 ^ 64 - 1) else BitVec.ofNat 64 (c + (if x.getLsbD 63 then 2 ^ 63 else 0))

/-- SCH_ARR_RIPPLES: two counts in one register (R71). -/
def satRipples (x : BitVec 64) (behind all : Nat) : BitVec 64 :=
  let a := x.toNat % 2 ^ 32 + all
  let b := x.toNat / 2 ^ 32 % 2 ^ 31 + behind
  let ovf := x.getLsbD 63 || decide (a ≥ 2 ^ 32) || decide (b ≥ 2 ^ 31)
  BitVec.ofNat 64 (min a (2 ^ 32 - 1) + min b (2 ^ 31 - 1) * 2 ^ 32 + (if ovf then 2 ^ 63 else 0))

/-- The trace source and the writer of a counter block's unit (R381, R384): none for blocks without trace points. -/
def traceSource (base : Nat) : Option (Nat × Nat) :=
  let i := base % 0x1000 / 0x80
  match base / 0x1000 with
  | 4 => some (4, 0xC040 + i)
  | 5 => some (9, 0xC080 + i)
  | 1 => some (7, 0xC060 + i)
  | 0 =>
    if base ≥ 0x0C00 then some (6, 0xC068 + (base - 0x0C00) / 0x80)
    else if base ≥ 0x0800 then some (5, 0xC020 + (base - 0x0800) / 0x80)
    else some (8, 0xC010 + (base - 0x0400) / 0x80)
  | _ => none

/-- One TRACE record; its five arguments are free values (R384). -/
def traceRecord (s : State) (writer id : Nat) : State :=
  let args := (List.range 5).flatMap (fun i => natBytes 8 (Config.freeWord (s.freeCtr + i)).toNat)
  logAdd { s with freeCtr := s.freeCtr + 5 } 0x0100 writer id args

/-- A TRACE record for each of `n` counts, when the point of a counter is enabled (R384). -/
def traceFire (s : State) (base reg n : Nat) : State :=
  match traceSource base with
  | none => s
  | some (src, writer) =>
    let id := src * 4096 + reg / 8
    if s.log.traceOn.getLsbD id then Nat.repeat (fun s => traceRecord s writer id) n s else s

/-- `n` counts of an event counter with its trace point, unless FREEZE holds the block (R70, R71, R384). -/
def bump (s : State) (base reg n : Nat) : State :=
  if ctrFrozen s base then s
  else traceFire { s with counters := tset 0 s.counters (base + reg) (satCount (ctrReg s (base + reg)) n) } base reg n

/-- A count of a counter of a cluster's array, scratchpad or stream block. -/
def bumpArr (s : State) (g reg n : Nat) : State := bump s (0x2000 + g * 0x80) reg n
def bumpSpd (s : State) (g reg n : Nat) : State := bump s (0x3000 + g * 0x80) reg n
def bumpStr (s : State) (g reg n : Nat) : State := bump s (0x4000 + g * 0x80) reg n
def bumpUpd (s : State) (u reg n : Nat) : State := bump s (0x5000 + u * 0x80) reg n
def bumpPgk (s : State) (d reg n : Nat) : State := bump s (0x0800 + d * 0x80) reg n
def bumpSpn (s : State) (d reg n : Nat) : State := bump s (0x0C00 + d * 0x80) reg n
def bumpXlt (s : State) (d reg n : Nat) : State := bump s (0x1000 + d * 0x80) reg n
def bumpKtl (s : State) (k reg n : Nat) : State := bump s (0x0400 + k * 0x80) reg n

/-- XLT_FQ_OVF is one package count, kept in the block of die 0, frozen by any block's FREEZE (R257). -/
def bumpFqOvf (s : State) : State :=
  if (List.range 8).any (fun d => ctrFrozen s (0x1000 + d * 0x80)) then s
  else traceFire { s with counters := tset 0 s.counters 0x1068 (satCount (ctrReg s 0x1068) 1) } 0x1000 0x68 1

/-- A discarded window write (R305, R332). -/
def discardWrite (s : State) : State := { s with host := { s.host with discards := satCount s.host.discards 1 } }

/-! ### Error records (R411 to R419) -/

/-- Causes of R418. -/
def causeSeverity (cause : Nat) : Nat :=
  if cause ∈ [0x01, 0x03, 0x05, 0x07, 0x09, 0x14, 0x18, 0x1D, 0x24] then 0
  else if cause ∈ [0x02, 0x11, 0x15, 0x16, 0x17, 0x1A, 0x28] then 1
  else if cause ∈ [0x30, 0x31] then 3
  else 2

/-- Causes counted towards fencing (R414, R418). -/
def causeCounted (cause : Nat) : Bool := cause ∈ [0x02, 0x03, 0x04, 0x08, 0x12]

/-- The entry of the error counter block that counts a source (R421). -/
def errEntry (source : Nat) : Nat :=
  let v := source % 2 ^ 14
  match source / 2 ^ 14 with
  | 0 => v % 256 / 8
  | 2 => 100 + v
  | 3 =>
    if v < 0x14 ∧ v ≥ 0x10 then 80 + (v - 0x10)
    else if v ≥ 0x20 ∧ v < 0x28 then 32 + (v - 0x20)
    else if v ≥ 0x40 ∧ v < 0x60 then v - 0x40
    else if v ≥ 0x60 ∧ v < 0x68 then 32 + (v - 0x60)
    else if v ≥ 0x68 ∧ v < 0x70 then 32 + (v - 0x68)
    else if v ≥ 0x70 ∧ v < 0x78 then 72 + (v - 0x70)
    else if v ≥ 0x80 ∧ v < 0xA0 then 40 + (v - 0x80)
    else if v ≥ 0xB0 ∧ v < 0xC0 then 84 + (v - 0xB0)
    else 135
  | _ => 135

/-- The handler of a source: a processor identity, or 0xFF for island hardware (R412). -/
def handlerOf (source : Nat) : Nat :=
  let v := source % 2 ^ 14
  match source / 2 ^ 14 with
  | 0 => 3 + v % 256 / 8
  | 2 => if v = 0 then 0xFF else 0
  | 3 => if v ≥ 0x40 ∧ v < 0x60 then 3 + (v - 0x40) else if v = 0xA0 then 0xFF else 2
  | _ => 2

/-- The escalation target of a handler (R412). -/
def escalation (h : Nat) : Nat := if h ≥ 3 ∧ h < 0xFF then 2 else if h = 2 then 0 else 0xFF

/-- Whether a processor can handle records: RUNNING, and not to be restarted for an error of its own (R412, R413). -/
def handles (s : State) (h : Nat) : Bool := procRunning s h && !s.ras.restarts.contains h

/-- The processor that handles a record: the first of the handler and its escalation targets that can, else island hardware (R412). -/
def resolveHandler (s : State) (h : Nat) : Nat :=
  if h = 0xFF ∨ handles s h then h
  else
    let h1 := escalation h
    if h1 = 0xFF ∨ handles s h1 then h1
    else
      let h2 := escalation h1
      if h2 = 0xFF ∨ handles s h2 then h2 else 0xFF

/-- A source fenced until the island starts again (R414). -/
def fenceSource (s : State) (source : Nat) : State :=
  { s with ras := { s.ras with fenced := insertNat source s.ras.fenced } }

/-- An occurrence counted in the counter block (R421). -/
def countErr (s : State) (source sev : Nat) : State :=
  let e := tget ErrCount.reset s.ras.counts (errEntry source)
  let e' : ErrCount := match sev with
    | 0 => { e with corrected := min (e.corrected + 1) 0x7FFFFFFF, ovfCorrected := e.ovfCorrected || decide (e.corrected ≥ 0x7FFFFFFF) }
    | 1 => { e with deferred := min (e.deferred + 1) 0x7FFFFFFF, ovfDeferred := e.ovfDeferred || decide (e.deferred ≥ 0x7FFFFFFF) }
    | 2 => { e with contained := min (e.contained + 1) 0x7FFFFFFF, ovfContained := e.ovfContained || decide (e.contained ≥ 0x7FFFFFFF) }
    | _ => e
  { s with ras := { s.ras with counts := tset ErrCount.reset s.ras.counts (errEntry source) e' } }

/-- The first record of a list that satisfies `p` removed. -/
def removeFirst {α : Type} (p : α → Bool) : List α → List α
  | [] => []
  | x :: r => if p x then r else x :: removeFirst p r

/-- Room in the error store for a record of a severity (R419): the store after a displacement, whether a FATAL record was displaced (counted
as lost), and whether the record takes a reserved entry; none when the record is lost. -/
def errRoom (ras : Ras) (sev : Nat) : Option (List ErrRecord × Bool × Bool) :=
  let st := ras.store
  let displace (p : ErrRecord → Bool) (lost : Bool) : Option (List ErrRecord × Bool × Bool) :=
    (st.find? p).map (fun r => (removeFirst p st, lost, r.reserved))
  if (st.filter (fun r => !r.reserved)).length < 1016 then some (st, false, false)
  else match displace (fun r => r.fetched) false, displace (fun r => decide (r.severity < sev)) false with
  | some x, _ => some x
  | none, some x => some x
  | none, none =>
    if sev < 3 then none
    else if (st.filter (fun r => r.reserved)).length < 8 then some (st, false, true)
    else displace (fun r => r.severity == 3 && r.serial != ras.firstFatal) true

/-- A record stored, or lost (R419). A displaced FATAL record counts as lost and the stored record carries LOST_BEFORE. -/
def storeErr (s : State) (r : ErrRecord) : State :=
  match errRoom s.ras r.severity with
  | none => { s with ras := { s.ras with lost := s.ras.lost + 1, lostBefore := true } }
  | some (st, lostOne, reserved) =>
    let lb := s.ras.lostBefore || lostOne
    let r' := { r with serial := s.ras.serial + 1, flags := r.flags + (if lb then 32 else 0), reserved := reserved }
    { s with ras := { s.ras with
        store := st ++ [r']
        serial := s.ras.serial + 1
        lost := s.ras.lost + (if lostOne then 1 else 0)
        lostBefore := false
        fatals := s.ras.fatals + (if r.severity = 3 then 1 else 0)
        firstFatal := if r.severity = 3 ∧ s.ras.firstFatal = 0 then s.ras.serial + 1 else s.ras.firstFatal } }

/-- Causes coalesced over 1 ms (R416). -/
def coalesced (cause : Nat) : Bool := cause ∈ [0x01, 0x05, 0x07]

/-- Whether a stored record takes a further occurrence (R416). -/
def takesOccurrence (now : Nat) (a : ErrArgs) (r : ErrRecord) : Bool :=
  coalesced a.cause && r.cause == a.cause && r.source == a.source && !r.fetched && decide (now < r.time + 38400)

/-- The history of counted records of a source with one more, and whether the five most recent lie within 10 ms (R414). -/
def fencingHistory (s : State) (source : Nat) : List Nat × Bool :=
  let h := (s.now :: tget [] s.ras.history source).take 5
  (h, h.length == 5 && decide (s.now ≤ h.getLastD 0 + 384000))

/-! ### Handlers (R413) -/

/-- A handler. -/
def handlerAt (s : State) (h : Nat) : Handler := tget Handler.reset s.ras.handlers h

/-- What a record meets at its handler: the handler with it, its flags and parent, and whether it found the queue full. -/
structure Arrival where
  handler : Handler
  flags : Nat
  parent : Nat
  full : Bool

/-- A record arrives at a handler: in hand at once, waiting in the queue of 32 (NESTED), or preempting a handling of lower severity (PREEMPT),
for a FATAL one with the saved handlings abandoned; the queue of the island hardware, which has no escalation target, is not bounded (R412,
R413). -/
def Handler.arrive (x : Handler) (island : Bool) (sev serial : Nat) : Arrival :=
  match x.hand with
  | [] => ⟨{ x with hand := [(sev, serial)] }, 0, 0, false⟩
  | (sv, sr) :: _ =>
    if sv < sev then ⟨{ x with hand := (sev, serial) :: (if sev = 3 then [] else x.hand) }, 8, sr, false⟩
    else if x.queue.length < 32 ∨ island then ⟨{ x with queue := x.queue ++ [(sev, serial)] }, 4, sr, false⟩
    else ⟨x, 4, sr, true⟩

/-- The handling in hand ends: a preempted one is resumed, else the queue is served by highest severity, in arrival order among equals. -/
def Handler.serve (x : Handler) : Handler :=
  match x.hand with
  | _ :: y :: r => { x with hand := y :: r }
  | _ =>
    match x.queue.find? (fun e => x.queue.all (fun y => decide (y.1 ≤ e.1))) with
    | some e => ⟨[e], removeFirst (fun y => y == e) x.queue⟩
    | none => Handler.reset

/-- Every handler ends the handling it has in hand. -/
def serveHandlers (s : State) : State :=
  if s.ras.handlers.isEmpty then s
  else { s with ras := { s.ras with handlers := s.ras.handlers.filterMap (fun e =>
    if e.2.serve = Handler.reset then none else some (e.1, e.2.serve)) } }

/-- A FATAL record preempts every handler that has a record in hand; saved handlings are abandoned (R413, R423). -/
def preemptAll (s : State) (serial : Nat) : State :=
  { s with ras := { s.ras with handlers := s.ras.handlers.map (fun e =>
    if e.2.hand.isEmpty ∨ e.2.hand.contains (3, serial) then e else (e.1, { e.2 with hand := [(3, serial)] })) } }

/-- A record just detected. -/
def detect (s : State) (a : ErrArgs) (flags : Nat) : Detected :=
  ⟨a, s.now, (match a.key with | some k => slotSeq s k | none => 0), flags, 1⟩

/-- The unit a record names: what its report gives, else the port, link or stack that is its source (R412, R415). -/
def ErrArgs.unitOf (a : ErrArgs) : Nat :=
  if a.unit ≠ 0xFF then a.unit
  else if 0xC010 ≤ a.source ∧ a.source < 0xC014 then a.source - 0xC010
  else if 0xC070 ≤ a.source ∧ a.source < 0xC078 then a.source - 0xC070
  else if 0xC080 ≤ a.source ∧ a.source < 0xC0A0 then a.source - 0xC080
  else 0xFF

/-- The record of a detection, for a handler with its flags and its parent (R415); it gets its serial where it is stored. -/
def Detected.record (d : Detected) (h flags parent : Nat) : ErrRecord where
  serial := 0
  time := d.time
  cause := d.args.cause
  severity := causeSeverity d.args.cause
  flags := flags
  source := d.args.source
  handler := h
  port := match d.args.key with | some k => portCode (portOf k) | none => 0xFF
  slot := match d.args.key with | some k => slotNumber k | none => 0xFF
  slotSeq := d.slotSeq
  cluster := d.args.cluster
  unit := d.args.unitOf
  parent := parent % 2 ^ 32
  addr := d.args.addr % 2 ^ 64
  info0 := d.args.info0 % 2 ^ 64
  info1 := d.args.info1 % 2 ^ 64
  count := d.count
  fetched := false
  reserved := false

/-- What a record meets at its handler; a FATAL one preempts another handler where its own is idle (R413). -/
def meetHandler (s : State) (h sev serial : Nat) : Arrival :=
  let x := (handlerAt s h).arrive (h == 0xFF) sev serial
  match s.ras.handlers.findSome? (fun e => e.2.hand.head?) with
  | some y => if sev = 3 ∧ x.flags = 0 then { x with flags := 8, parent := y.2 } else x
  | none => x

/-- A record given to its handler and stored (R413, R415, R419): the flags beside those of R413, a parent it escalated from, and whether the
handler's queue was full. A record that is lost has no serial. -/
def fileRecord (s : State) (d : Detected) (h flags parent : Nat) : State × Bool :=
  let sev := causeSeverity d.args.cause
  let serial := if (errRoom s.ras sev).isSome then s.ras.serial + 1 else 0
  let x := meetHandler s h sev serial
  let s := storeErr s (d.record h (flags + x.flags) (if parent = 0 then x.parent else parent))
  let s := { s with ras := { s.ras with handlers := tset Handler.reset s.ras.handlers h x.handler } }
  (if sev = 3 then preemptAll s serial else s, x.full)

/-- A handler's queue was full: a HANDLER record goes to its escalation target, and a firmware processor is to be restarted (R413). -/
def escalate : Nat → State → Nat → State
  | 0, s, _ => s
  | fuel + 1, s, h =>
    let hand := ((handlerAt s h).hand.head?).elim 0 (fun x => x.2)
    let s := if h = 0 then s else { s with ras := { s.ras with restarts := insertNat h s.ras.restarts } }
    let a : ErrArgs := { cause := 0x27, source := 0x8000 + h, cluster := if h ≥ 3 then h - 3 else 0xFF, info1 := hand }
    let t := resolveHandler s (escalation h)
    let (s, full) := fileRecord (countErr s a.source 2) (detect s a 0) t 16 hand
    if full then escalate fuel s t else s

/-- A record goes to the handler of its source, or on to the escalation target (R412, R413). -/
def handRecord (s : State) (x : Detected) : State :=
  let own := handlerOf x.args.source
  let h := resolveHandler s own
  let (s, crowded) := fileRecord s x h (x.flags + (if h ≠ own then 16 else 0)) 0
  if crowded then escalate 3 s h else s

/-- The die slice whose collector takes a source's records: that of a core, of a unit of a cluster or die, or of a cluster control core
(R423). -/
def collectorOf (source : Nat) : Option Nat :=
  let v := source % 2 ^ 14
  match source / 2 ^ 14 with
  | 0 => some (v % 256 / 32)
  | 2 => if v ≥ 3 then some ((v - 3) / 4 % 8) else none
  | _ =>
    if v ≥ 0x20 ∧ v < 0x28 then some (v - 0x20)
    else if v ≥ 0x40 ∧ v < 0x60 then some ((v - 0x40) / 4)
    else if v ≥ 0x60 ∧ v < 0x78 then some (v % 8)
    else if v ≥ 0x80 ∧ v < 0xA0 then some ((v - 0x80) / 4)
    else none

/-- Whether a record waits in a collector: its handler restarts, and fewer than 64 wait there. A FATAL record never waits (R413, R423). -/
def collects (s : State) (source sev : Nat) : Bool :=
  let p := (procOf s (handlerOf source)).state
  decide (sev < 3 ∧ handlerOf source ≠ 0xFF) && (p == .crashed || p == .restarting) &&
    (match collectorOf source with
      | some d => decide ((s.ras.collected.filter (fun x => collectorOf x.args.source == some d)).length < 64)
      | none => false)

/-- A record detected: it waits in a collector, or goes to its handler (R412, R423). -/
def passOn (s : State) (x : Detected) : State :=
  if collects s x.args.source (causeSeverity x.args.cause) then { s with ras := { s.ras with collected := s.ras.collected ++ [x] } }
  else handRecord s x

/-- The records that waited for a handler go to it, or on from it, in the order they came (R423). -/
def releaseCollected (s : State) (h : Nat) : State :=
  let (mine, rest) := s.ras.collected.partition (fun x => handlerOf x.args.source == h)
  mine.foldl handRecord { s with ras := { s.ras with collected := rest } }

/-- A further occurrence of a coalesced cause counted, in the store or in a collector; none where it starts a record of its own (R416). -/
def takeOccurrence (s : State) (a : ErrArgs) : Option State :=
  let more (n : Nat) : Nat := min (n + 1) 0xFFFFFFFF
  let waits (x : Detected) : Bool :=
    coalesced a.cause && x.args.cause == a.cause && x.args.source == a.source && decide (s.now < x.time + 38400)
  if s.ras.store.any (takesOccurrence s.now a) then
    some { s with ras := { s.ras with store := s.ras.store.map (fun r =>
      if takesOccurrence s.now a r then { r with count := more r.count } else r) } }
  else if s.ras.collected.any waits then
    some { s with ras := { s.ras with collected := s.ras.collected.map (fun x => if waits x then { x with count := more x.count } else x) } }
  else none

/-- FW_HALT, with the lease timer suspended (R372). -/
def halt (s : State) : State :=
  { s with dev := .fwHalt, lease := { s.lease with suspendedAt := some (s.lease.suspendedAt.getD s.now) } }

/-- An error reported to the RAS unit (R411 to R419): counted, coalesced or stored, its source fenced when it has failed too
often, but a firmware processor under R358 alone, and FW_HALT entered on a FATAL record. -/
def report (s : State) (a : ErrArgs) : State :=
  let sev := causeSeverity a.cause
  let s := countErr s a.source sev
  match takeOccurrence s a with
  | some s => s
  | none =>
    let counted := causeCounted a.cause
    let (hist, full) := fencingHistory s a.source
    let fences := (counted && full && !isFenced s a.source && a.source / 2 ^ 14 ≠ 2) || a.cause == 0x13
    let x := detect s a ((if counted then 1 else 0) + (if fences then 2 else 0))
    let s := passOn s x
    let s := if counted then { s with ras := { s.ras with history := tset [] s.ras.history a.source hist } } else s
    let s := if fences then fenceSource s a.source else s
    if sev = 3 then halt s else s

/-- The 64 bytes of an error record (R415). -/
def errBytes (r : ErrRecord) : List Byte :=
  natBytes 8 (r.serial % 2 ^ 48) ++ natBytes 8 r.time ++ natBytes 2 r.cause ++ natBytes 1 r.severity ++ natBytes 1 r.flags ++
    natBytes 2 r.source ++ natBytes 1 r.handler ++ natBytes 1 r.port ++ natBytes 1 r.slot ++ natBytes 1 r.slotSeq ++
    natBytes 1 r.cluster ++ natBytes 1 r.unit ++ natBytes 4 r.parent ++ natBytes 8 r.addr ++ natBytes 8 r.info0 ++
    natBytes 8 r.info1 ++ natBytes 8 r.count

/-! ### Actions: the bodies of commands -/

/-- A rejection (R319, R320): the completion code and its report, a result field where the chapter gives one, and the bytes of a plan report
(R213). -/
structure Reject where
  code : Nat
  locator : Nat := 0x40000000
  check : Nat := 10
  hi : Nat := 0
  lo : Nat := 0
  item : Nat := 0xFFFFFFFF
  found : Nat := 0
  limit : Nat := 0
  result : BitVec 64 := 0
  plan : Option (List Byte) := none
  /-- what the check did stands (FW_LOAD, R363; the long reply of R213) -/
  keep : Bool := false
  /-- bytes of the long reply written (R213) -/
  long : Nat := 0

/-- A translation fault of an access (R249): the die whose unit walked, and what R250 records. -/
structure XFault where
  die : Nat
  asid : Nat
  va : Nat
  access : Nat
  cause : Nat
  level : Nat
  core : Nat
  queue : Nat
  /-- the origin of R250 -/
  origin : Nat

/-- Why a body stops before its end. -/
inductive Stop where
  /-- rejected at acceptance: nothing was done (R318 group 0x1) -/
  | reject (r : Reject)
  /-- completes with an abort code; what was done stands (R318 group 0x2) -/
  | abort (code : Nat)
  /-- an access faulted: the access waits (R249) -/
  | fault (f : XFault)
  /-- the command waits in a stage -/
  | park (st : Stage)

/-- An action on the state that can stop, keeping the state it had reached. -/
abbrev Act := EStateM Stop State

/-- A part of the state. -/
def gets {α : Type} (f : State → α) : Act α := do return f (← get)

/-- Rejected with REJECTED_INVALID naming a field (R320). -/
def rejectAt {α : Type} (locator check hi lo found limit : Nat) : Act α :=
  throw (.reject { code := 0x10, locator := locator, check := check, hi := hi, lo := lo, found := found, limit := limit })

/-- Locator of a field of the parameter area: the word it lies in and its bits there (R320); `size` is the word's bytes. -/
def paramLoc (o : Nat) : Nat := 0x10000000 + o

/-- Locator of a configuration field (R320). -/
def configLoc (field inst : Nat) : Nat := 0x20000000 + inst * 0x10000 + field

/-- Locator within a structure of a kind (R320). -/
def structLoc (kind o : Nat) : Nat := 0x30000000 + kind * 0x10000 + o

/-- A check of a parameter field of `w` bits at byte offset `o`, bit `b` of the word there: rejects when `ok` is false. -/
def checkParam (ok : Bool) (o b w check found limit : Nat) : Act Unit :=
  if ok then pure () else rejectAt (paramLoc o) check (b + w - 1) b found limit

/-- A range check of a parameter field with value `v` (R320): the bound it broke is the report's limit. -/
def checkRange (o b w v lo hi : Nat) : Act Unit :=
  checkParam (decide (lo ≤ v ∧ v ≤ hi)) o b w 1 v (if v < lo then lo else hi)

/-- A reserved field of the parameter area must be 0 (R9): `w` bits at bit `b` of the word at offset `o`. -/
def reservedParam (p : SlotWord) (o b w : Nat) : Act Unit :=
  let v := slotBits p (8 * (0x40 + o) + b) w
  checkParam (v == 0) o b w 8 v 0

/-- Every byte of the parameter area at and above `o` is reserved (R309): the first nonzero 64-bit word is named. -/
def reservedFrom (p : SlotWord) (o : Nat) : Act Unit :=
  let lo := o / 8 * 8
  let words := (List.range ((192 - lo) / 8)).map (fun i => lo + 8 * i)
  words.forM (fun w =>
    let skip := if w < o then 8 * (o - w) else 0
    reservedParam p w skip (64 - skip))

/-- Ends the command with an abort code. -/
def abortWith {α : Type} (code : Nat) : Act α := throw (.abort code)

/-- An error reported from a body. -/
def reportAct (a : ErrArgs) : Act Unit := modify (fun s => report s a)

end Sys2Proof.Machine
end

