-- ==== Sys2Proof/Machine/Fields.lean ====
section
/-! DEFINITION. Configuration fields: their table, their values in effect, epochs, and the check and clamp of a value
(spec/12_host_interface.md R325 to R328, spec/13_scheduling.md R345, R346 and each field's chapter). -/
namespace Sys2Proof.Machine

/-- When a committed value applies (R345). -/
inductive FieldClass where
  | a
  | bCommand
  | bScope
  | c
  deriving DecidableEq, Repr

/-- One configuration field (R325 and the field's chapter). -/
structure FieldInfo where
  id : Nat
  perDie : Bool
  default : Nat
  cls : FieldClass
  deriving DecidableEq, Repr

/-- The fields of Kerur (R325, R102, R137, R171, R206, R207, R224, R229, R277, R290, R297, R341, R403). -/
def fieldTable : List FieldInfo :=
  [⟨0x1000, false, 0, .c⟩, ⟨0x1001, false, 0, .c⟩, ⟨0x1002, false, 100000, .bCommand⟩,
   ⟨0x1010, true, 0, .c⟩, ⟨0x1011, true, 0, .c⟩, ⟨0x1012, true, 0, .c⟩, ⟨0x1013, true, 0, .c⟩, ⟨0x1014, true, 0, .c⟩,
   ⟨0x1015, true, 0, .c⟩, ⟨0x1016, true, 0, .c⟩, ⟨0x1017, true, 0, .c⟩, ⟨0x1018, true, 0, .c⟩,
   ⟨0x1019, true, 0, .bScope⟩, ⟨0x101A, true, 2, .bScope⟩, ⟨0x101B, true, 4, .bScope⟩] ++
  [⟨0x2010, true, 0, .c⟩, ⟨0x2011, true, 0, .c⟩, ⟨0x2012, true, 0, .c⟩, ⟨0x2013, true, 65536, .c⟩, ⟨0x2014, true, 0, .c⟩,
   ⟨0x2015, true, 0, .c⟩, ⟨0x3000, false, 1000000, .a⟩, ⟨0x4000, false, 0, .c⟩, ⟨0x4001, false, 0, .c⟩,
   ⟨0x4002, false, 20000, .a⟩, ⟨0x4010, true, 60 + 25 * 256 + 15 * 65536, .bScope⟩] ++
  [⟨0x5000, false, 0, .c⟩, ⟨0x5001, false, 0, .c⟩, ⟨0x5002, false, 0, .c⟩, ⟨0x5003, false, 50, .bScope⟩,
   ⟨0x5004, false, 1000000000, .bScope⟩, ⟨0x6000, false, 20, .bScope⟩, ⟨0x7000, false, 0, .c⟩,
   ⟨0x7001, false, 0, .bCommand⟩, ⟨0x7002, false, 0, .bCommand⟩, ⟨0x7003, false, 0, .bCommand⟩,
   ⟨0x7004, false, 0, .bCommand⟩, ⟨0x7005, false, 0, .bCommand⟩, ⟨0x7006, false, 0, .bCommand⟩,
   ⟨0x7007, false, 0, .bCommand⟩, ⟨0x7008, false, 0, .bCommand⟩, ⟨0x7009, false, 0, .c⟩, ⟨0x700A, false, 0, .c⟩,
   ⟨0x700B, false, 200000, .bCommand⟩, ⟨0x700C, false, 20000000, .bCommand⟩] ++
  [⟨0x8000, false, 5, .a⟩, ⟨0x8001, false, 100000, .a⟩, ⟨0x8002, false, 0xF, .a⟩, ⟨0x8010, true, 0, .c⟩,
   ⟨0xA000, false, 10, .bScope⟩, ⟨0xA001, false, 500000, .bCommand⟩, ⟨0xB000, false, 0, .a⟩]

/-- The entry of a field ID. -/
def fieldInfo (id : Nat) : Option FieldInfo := fieldTable.find? (fun f => f.id == id)

/-- The key of a field and instance. -/
def fieldKey (id inst : Nat) : Nat := id * 256 + inst

/-- A value in a table of committed values; a field that is not listed has its default. The tables list every committed value, its
default included, as value + 1. -/
def fieldIn (t : Table Nat) (id inst : Nat) : Nat :=
  match tget 0 t (fieldKey id inst) with
  | 0 => (fieldInfo id).map (·.default) |>.getD 0
  | v + 1 => v

/-- A table with a value. -/
def fieldSet (t : Table Nat) (id inst v : Nat) : Table Nat := tset 0 t (fieldKey id inst) (v + 1)

/-- The newest committed value. -/
def cfgVal (s : State) (id inst : Nat) : Nat := fieldIn s.cfg.committed id inst

/-! ### Epochs (R345, R346) -/

/-- The commands that hold a cluster (R345). -/
def holders (s : State) (g : Nat) : List Cmd := s.cmds.filter (fun c => c.holds.any (fun h => h.cluster == g))

/-- How far an epoch lies behind the newest (R346: modulo 256, in order of commit). -/
def epochAge (s : State) (e : BitVec 8) : Nat := (s.cfg.epoch - e).toNat

/-- The older of two epochs. -/
def olderEpoch (s : State) (a b : BitVec 8) : BitVec 8 := if epochAge s a ≥ epochAge s b then a else b

/-- Whether a command holds a cluster: it is placed there, or its standalone stream is (R188, R214). -/
def holdsCluster (s : State) (g : Nat) (c : Cmd) : Bool :=
  c.holds.any (fun h => h.cluster == g) ||
    s.str.queues.any (fun e => e.1 / 64 == g && e.2.key == c.key && (e.2.state == .running || e.2.state == .faulted))

/-- A cluster's epoch: the oldest configuration epoch among the commands that hold it, or the newest (R345). -/
def clusterEpoch (s : State) (g : Nat) : BitVec 8 :=
  (s.cmds.filter (holdsCluster s g)).foldl (fun e c => match c.cfgEpoch with
    | some x => olderEpoch s e x
    | none => e) s.cfg.epoch

/-- The oldest cluster epoch (R345). -/
def oldestEpoch (s : State) : BitVec 8 :=
  (List.range 32).foldl (fun e g => olderEpoch s e (clusterEpoch s g)) s.cfg.epoch

/-- The committed values of an epoch still kept; the newest ones when it is not. -/
def epochValues (s : State) (e : BitVec 8) : Table Nat :=
  match s.cfg.history.find? (fun h => h.1 == e) with
  | some h => h.2
  | none => s.cfg.committed

/-- A command-bound class B value for a command: at its configuration epoch (R345). -/
def cmdVal (s : State) (c : Cmd) (id inst : Nat) : Nat :=
  match c.cfgEpoch with
  | some e => fieldIn (epochValues s e) id inst
  | none => cfgVal s id inst

/-- A scope-bound class B value of a die: at the oldest epoch of the clusters of its scope (R345). -/
def scopeVal (s : State) (id d : Nat) : Nat :=
  let gs := match fieldInfo id with
    | some f => if f.perDie then [4 * d, 4 * d + 1, 4 * d + 2, 4 * d + 3] else List.range 32
    | none => List.range 32
  let e := gs.foldl (fun e g => olderEpoch s e (clusterEpoch s g)) s.cfg.epoch
  let inst := match fieldInfo id with
    | some f => if f.perDie then d else 0
    | none => 0
  fieldIn (epochValues s e) id inst

/-! ### The check and clamp of a value (R327) -/

/-- What a value becomes: accepted as it is or clamped with a reason, or rejected with a check code and a limit. -/
inductive FieldCheck where
  | accept (v reason : Nat)
  | refuse (check limit : Nat)
  deriving DecidableEq, Repr

/-- Clamping to numeric bounds (reasons 1 and 2). -/
def clampRange (lo hi v : Nat) : FieldCheck :=
  if v < lo then .accept lo 1 else if v > hi then .accept hi 2 else .accept v 0

/-- A further clamp of an accepted value; the first reason is kept when the later step changes nothing. -/
def FieldCheck.andThen (c : FieldCheck) (f : Nat → FieldCheck) : FieldCheck :=
  match c with
  | .refuse k l => .refuse k l
  | .accept v r => match f v with
    | .accept v' 0 => .accept v' r
    | .accept v' r' => .accept v' r'
    | .refuse k l => .refuse k l

/-- Bounds from another field (reason 4). -/
def clampDepMax (hi v : Nat) : FieldCheck := if v > hi then .accept hi 4 else .accept v 0
def clampDepMin (lo v : Nat) : FieldCheck := if v < lo then .accept lo 4 else .accept v 0

/-- The next lower multiple, not below the minimum (reason 3). -/
def clampMultiple (m lo v : Nat) : FieldCheck := if v % m = 0 then .accept v 0 else .accept (max lo (v / m * m)) 3

/-- The next lower power of two (reason 3). -/
def clampPow2 (lo v : Nat) : FieldCheck :=
  if v = 2 ^ Nat.log2 v then .accept v 0 else .accept (max lo (2 ^ Nat.log2 v)) 3

/-- A count with bounds and a granule. -/
def countField (lo hi m v : Nat) : FieldCheck := (clampRange lo hi v).andThen (clampMultiple m lo)

/-- A count that may only grow (reason 5). -/
def clampGrow (committed v : Nat) : FieldCheck := if v < committed then .accept committed 5 else .accept v 0

/-- An aligned device virtual address (R102, R240): checks ALIGN (2) then RANGE (1). -/
def alignedVa (v : Nat) : FieldCheck :=
  if v % 2 ^ 25 ≠ 0 then .refuse 2 (2 ^ 25) else if v ≥ 2 ^ 52 then .refuse 1 (2 ^ 52) else .accept v 0

/-- Offsets of a die slice's usable near tier (R428). -/
def usableNear : Nat := 0x5FFC000000

/-- Whether a run of physical addresses lies wholly in the usable near tier of one die slice (R428). -/
def inUsableNear (pa n : Nat) : Bool := decide (pa / 2 ^ 39 < 8) && decide (pa % 2 ^ 39 + n ≤ usableNear)

/-- A physical address of a table of `n` bytes, a multiple of `n` (R229, R428). -/
def nearTable (n v : Nat) : FieldCheck :=
  if v % n ≠ 0 then .refuse 2 n else if inUsableNear v n then .accept v 0 else .refuse 1 usableNear

/-- STR_BW_SPLIT (R206, reason PACKED). -/
def checkBwSplit (v : Nat) : FieldCheck :=
  if v / 2 ^ 24 ≠ 0 then .refuse 8 0
  else
    let r := max 5 (min 90 (v % 256))
    let w := max 5 (min (95 - r) (v / 256 % 256))
    let x := r + w * 256 + (100 - r - w) * 65536
    if x = v then .accept v 0 else .accept x 6

/-- KTL_TOPO (R290, reason PACKED). -/
def checkTopo (v : Nat) : FieldCheck :=
  if v / 2 ^ 13 ≠ 0 ∨ v / 4 % 4 ≠ 0 then .refuse 8 0
  else
    let mode := if v % 4 = 3 then 0 else v % 4
    let size := v / 256 % 32
    let size' := if mode = 1 then max 2 (min 16 size) else if mode = 2 then 16 else size
    let pkg := v / 16 % 16
    let pkg' := if mode ≠ 0 ∧ pkg ≥ size' then size' - 1 else pkg
    let x := mode + pkg' * 16 + size' * 256
    if x = v then .accept v 0 else .accept x 6

/-- KTL_GROUP_CTL (R297, reason PACKED). -/
def checkGroupCtl (v : Nat) : FieldCheck :=
  if v / 2 ^ 13 ≠ 0 ∨ v / 4 % 4 ≠ 0 then .refuse 8 0
  else
    let mode := if v % 4 = 3 then 0 else v % 4
    let n := v / 256 % 32
    let n' := if mode = 0 then n else if n < 2 then 2 else if n > 16 then 16 else 2 ^ Nat.log2 n
    let pos := v / 16 % 16
    let pos' := if mode ≠ 0 ∧ pos ≥ n' then n' - 1 else pos
    let x := mode + pos' * 16 + n' * 256
    if x = v then .accept v 0 else .accept x 6

/-- The check and clamp of a value of a field (R327), given the value in effect after the write of any other field and the committed
value of the field itself. -/
def checkField (id : Nat) (other : Nat → Nat) (committed v : Nat) : FieldCheck :=
  match id with
  | 0x1000 => clampRange 0 255 v
  | 0x1001 => alignedVa v
  | 0x1002 => clampRange 10000 10000000 v
  | 0x1010 => alignedVa v
  | 0x1011 => countField 0 (2 ^ 29) 524288 v
  | 0x1012 => alignedVa v
  | 0x1013 => countField 0 (2 ^ 29) 8192 v
  | 0x1014 => alignedVa v
  | 0x1015 => alignedVa v
  | 0x1016 => (clampDepMax (other 0x1011) v).andThen (clampMultiple 8192 0)
  | 0x1017 => alignedVa v
  | 0x1018 => alignedVa v
  | 0x1019 => (countField 0 (2 ^ 29) 8192 v).andThen (clampGrow committed)
  | 0x101A => clampRange 0 50 v
  | 0x101B => (clampRange 0 60 v).andThen (clampDepMin (other 0x101A))
  | 0x2010 => alignedVa v
  | 0x2011 => countField 0 (2 ^ 24) 65536 v
  | 0x2012 => alignedVa v
  | 0x2013 => (clampRange 65536 (2 ^ 24) v).andThen (clampPow2 65536)
  | 0x2014 => alignedVa v
  | 0x2015 => (clampDepMax (other 0x2011) v).andThen (clampMultiple 16384 0)
  | 0x3000 => clampRange 10000 1000000000 v
  | 0x4000 => alignedVa v
  | 0x4001 => countField 0 (2 ^ 30) (2 ^ 25) v
  | 0x4002 => clampRange 1000 10000000 v
  | 0x4010 => checkBwSplit v
  | 0x5000 => if v % 2 ^ 46 ≠ 0 then .refuse 2 (2 ^ 46) else .accept v 0
  | 0x5001 => nearTable 4096 v
  | 0x5002 => nearTable 32768 v
  | 0x5003 => clampRange 25 75 v
  | 0x5004 => clampRange 1000000 10000000000 v
  | 0x6000 => clampRange 5 50 v
  | 0x7000 => checkTopo v
  | 0x7001 => checkGroupCtl v
  | 0x7002 => checkGroupCtl v
  | 0x7003 => checkGroupCtl v
  | 0x7004 => checkGroupCtl v
  | 0x7005 => .accept v 0
  | 0x7006 => .accept v 0
  | 0x7007 => .accept v 0
  | 0x7008 => .accept v 0
  | 0x7009 => alignedVa v
  | 0x700A => countField 0 (2 ^ 36) (2 ^ 25) v
  | 0x700B => clampRange 10000 5000000 v
  | 0x700C => clampRange 1000000 1000000000 v
  | 0x8000 => clampRange 1 5 v
  | 0x8001 => clampRange 0 10000000 v
  | 0x8002 => if v ≥ 16 then .refuse 8 0 else .accept v 0
  | 0x8010 => alignedVa v
  | 0xA000 => clampRange 0 50 v
  | 0xA001 => clampRange 0 100000000 v
  | 0xB000 => if v > 2 then .refuse 6 2 else .accept v 0
  | _ => .refuse 6 0

/-! ### Values the rest of the model reads -/

/-- The stall budget in force, in ticks (R171). -/
def stallBudget (s : State) : Nat := ticksCeil (cfgVal s 0x3000 0)

/-- The address space of the pools (R241). -/
def poolAsid (s : State) : Nat := cfgVal s 0x1000 0

end Sys2Proof.Machine
end

