-- ==== Sys2Proof/Machine/Flags.lean ====
section
/-! DEFINITION. Status flags of a reply: the reason bits, the status and state words and the choice of a completion code
(spec/12_host_interface.md R307, R311 to R314, spec/07_scratchpad.md R168). -/
namespace Sys2Proof.Machine

/-- The code of a device state (R307). -/
def devCode : DevState → Nat
  | .load => 0
  | .starting => 1
  | .ready => 2
  | .draining => 3
  | .restarting => 4
  | .orphaned => 5
  | .fwHalt => 6

/-- FAULTQ: the fault queue holds a record or a fault is held (R251, R313). -/
def reasonFaultq (s : State) : Bool := !s.xlt.queue.isEmpty || !s.xlt.heldOrder.isEmpty

/-- ERROR: a record is unfetched (R419). -/
def reasonError (s : State) : Bool := s.ras.store.any (fun r => !r.fetched)

/-- DEADLINE: a record of cause 0x1D or 0x1E is unfetched (R419). -/
def reasonDeadline (s : State) : Bool :=
  s.ras.store.any (fun r => !r.fetched && (r.cause == 0x1D || r.cause == 0x1E))

/-- Whether a cluster is fenced, itself or its control core (R373, R414). -/
def clusterFenced (s : State) (g : Nat) : Bool :=
  isFenced s (0xC040 + g) || isFenced s (0x8000 + 3 + g) || (List.range 8).all (fun i => isFenced s (8 * g + i))

/-- The power state of a cluster; a fenced one stays powered in K1 (R393). -/
def clusterPower (s : State) (g : Nat) : ClusterPower :=
  let c := tget ClusterPower.reset s.pwr.clusters g
  if c.powered && clusterFenced s g then { c with k := 1 } else c

/-- Whether a cluster is asleep: in K2 or deeper. -/
def clusterAsleep (s : State) (g : Nat) : Bool := decide (s.pwr.device ≥ 4) || decide ((clusterPower s g).k ≥ 2)

/-- THERMAL: the limiter holds a cluster below the step firmware has set, or a management SET changed a value that no later host
PWR_MODE has seen (R398). -/
def reasonThermal (s : State) : Bool :=
  s.pwr.changed || (List.range 32).any (fun g =>
    let c := clusterPower s g
    c.powered && (c.stopped || decide (c.cap > c.step)))

/-- LINK: a kettle port has CHANGED set (R296). -/
def reasonLink (s : State) : Bool := (List.range 4).any (fun k => (tget KtlPort.reset s.ktl.ports k).changed)

/-- FW: a firmware processor is restarting or fenced, from its crash until it runs again, or the state is FW_HALT (R313, R357). -/
def reasonFw (s : State) : Bool :=
  s.dev == .fwHalt || (List.range 35).any (fun i =>
    let p := procOf s i
    p.down || p.state == .restarting || p.state == .fenced)

/-- Less than a quarter of the lease period is left, as its timer stands (R350, R372). -/
def leaseNear (s : State) : Bool :=
  s.lease.state == .held && decide (4 * (s.lease.expiry - s.lease.suspendedAt.getD s.now) < s.lease.period)

/-- LEASE (R350). -/
def reasonLease (s : State) : Bool := leaseNear s || s.lease.state == .lapsed || s.lease.state == .orphaned

/-- A truth value as a bit. -/
def bit (b : Bool) : Nat := if b then 1 else 0

/-- Reason bits [30:24] of the status word as a number (R313). -/
def reasons (s : State) : Nat :=
  bit (reasonLease s) + 2 * bit (reasonFw s) + 4 * bit (reasonLink s) + 8 * bit (reasonThermal s) +
    16 * bit (reasonDeadline s) + 32 * bit (reasonError s) + 64 * bit (reasonFaultq s)

/-- The status word (R313). -/
def statusWord (s : State) (code seq : Nat) : Nat :=
  let r := reasons s
  seq % 256 + 256 * (code % 256) + 65536 * s.cfg.epoch.toNat + 2 ^ 24 * r + (if r = 0 then 0 else 2 ^ 31)

/-- The state field of a reply (R312). -/
def stateWord (s : State) : Nat :=
  let o := oldestEpoch s
  devCode s.dev + 256 * o.toNat + (if o = s.cfg.epoch then 0 else 65536)

/-- The success code of a completing command: the first of PARTIAL_POISON, LATE, OK_CLAMPED, OK_CONFLICT, OK that applies
(R168). -/
def successCode (poison late clamped conflict : Bool) : Nat :=
  if poison then 2 else if late then 3 else if clamped then 1 else if conflict then 4 else 0

/-- A command's deadline in ticks, none when it has none (R11, R309). -/
def deadlineTicks (p : SlotWord) : Option Nat :=
  let d := hdrField p 8 64
  if d = 0 then none else some (ticksFloor d)

end Sys2Proof.Machine
end

