-- ==== Sys2Proof/Machine/Translate.lean ====
section
/-! DEFINITION. Memory tiers and address translation (spec/09_memory_and_translation.md R228 to R257): physical reads and writes,
walks, the translation caches, and pending faults. -/
namespace Sys2Proof.Machine

/-- On whose behalf an access is made (R250, R415): the die whose translation unit serves it, the command, its cluster, the origin
of R250. -/
structure Who where
  die : Nat
  key : Option Nat := none
  cluster : Nat := 0xFF
  origin : Nat := 3
  core : Nat := 0
  queue : Nat := 0xFF
  index : Nat := 0
  stack : Nat := 0
  /-- the unit that makes a pool access: 0xC020 the page keeper, 0xC068 the spine index (R104, R137) -/
  pool : Nat := 0xC020

/-! ### Physical memory -/

/-- The regions of R228. -/
inductive Region where
  | near (die : Nat)
  | host
  | far (module : Nat)
  | reserved
  deriving DecidableEq, Repr

/-- The region of a physical address (R228). -/
def regionOf (pa : Nat) : Region :=
  if pa < 2 ^ 42 then .near (pa / 2 ^ 39)
  else if pa < 2 ^ 46 then .reserved
  else if pa < 2 ^ 47 then .host
  else if pa < 0x900000000000 then .far (pa / 2 ^ 40 % 16)
  else .reserved

/-- The host bus address of a host-region address (R228). -/
def hostBus (s : State) (pa : Nat) : Nat := cfgVal s 0x5000 0 + pa % 2 ^ 46

/-- A far module slot. -/
def farModule (s : State) (m : Nat) : FarModule := tget FarModule.reset s.xlt.farModules m

/-- Whether far memory answers at an address (R238). -/
def farPresent (s : State) (pa : Nat) : Bool :=
  let f := farModule s (pa / 2 ^ 40 % 16)
  f.state ≠ 0 && decide (pa % 2 ^ 40 < f.capGib * 2 ^ 30)

/-- `n` bytes whose values nothing states (log 5). -/
def freeBytes (s : State) (n : Nat) : List Byte × State :=
  ((List.range n).map (fun i => (Config.freeWord (s.freeCtr + i / 8)).extractLsb' (8 * (i % 8)) 8),
    { s with freeCtr := s.freeCtr + (n + 7) / 8 })

/-- A count of cycles or of anything else whose amount only timing decides: advanced by a free value (log 5, log 14). -/
def bumpFree (s : State) (base reg : Nat) : State :=
  let (v, s) := freshWord s
  bump s base reg (v.toNat % 2 ^ 32)

/-- A once-per-command record for a module slot or stack that does not answer (R238, R414): `tag` is the module slot, or 100 + the
stack. The command completes PARTIAL_POISON. -/
def noteAbsent (s : State) (w : Who) (tag : Nat) (a : ErrArgs) : State :=
  match w.key with
  | none => s
  | some k =>
    match cmdOf s k with
    | none => s
    | some c =>
      let s := updCmd s k (fun c => { c with poison := true })
      if c.farSeen.contains tag then s
      else report (updCmd s k (fun c => { c with farSeen := c.farSeen ++ [tag] })) { a with key := some k, cluster := w.cluster }

/-- The ways of a line's set in the hamper of its die slice (R231). -/
def hamperSet (line : Nat) : Nat := line / 2 ^ 31 * 16384 + line % 16384

/-- Whether the hamper holds a 256-byte line (R231). -/
def hamperHas (s : State) (line : Nat) : Bool := (tget [] s.xlt.hamper (hamperSet line)).contains line

/-- One 256-byte line of the near tier read: a hamper hit or an allocation that replaces the least recently used of 16 ways, counted in
the block of the die slice (R231, R257). -/
def hamperRead (s : State) (line : Nat) : State :=
  let die := line / 2 ^ 31
  let key := hamperSet line
  let ways := tget [] s.xlt.hamper key
  let hit := hamperHas s line
  let ways := (line :: ways.filter (fun l => l ≠ line)).take 16
  bumpXlt { s with xlt := { s.xlt with hamper := tset [] s.xlt.hamper key ways } } die (if hit then 0x48 else 0x50) 1

/-- The lines a run of bytes touches. -/
def linesOf (pa n : Nat) : List Nat :=
  if n = 0 then [] else (List.range ((pa + n - 1) / 256 - pa / 256 + 1)).map (fun i => pa / 256 + i)

/-- The granules of a run whose check bits are neither those of their data nor the poison mark, stack by stack. -/
def dirtyGranules (m : Mem) (pa n : Nat) : List Nat :=
  byStack ((m.chk.filter (fun e => decide (pa < e.1 + 16 ∧ e.1 < pa + n) && e.2 ≠ poisonDelta)).map (·.1))

/-- The record of what the decoder finds in a granule that needs one (R407, R418): bit 24 of info0 marks an
uncorrectable granule met by a scrub. -/
def codeRecord (s : State) (w : Who) (source structure_ addr : Nat) (o : CodeOutcome) (scrub : Bool) : State :=
  match o with
  | .corrected i e => report s {
      cause := 0x01, source := source, key := w.key, cluster := w.cluster, addr := addr
      info0 := i + e * 256 + structure_ * 65536 }
  | .uncorrectable => report s {
      cause := 0x02, source := source, key := w.key, cluster := w.cluster, addr := addr
      info0 := structure_ * 65536 + (if scrub then 2 ^ 24 else 0) }
  | _ => s

/-- A near-tier granule met by an ordinary read: a record for a symbol error, and the corrected granule written back (R407, R409). -/
def meetGranule (w : Who) (s : State) (g : Nat) : State :=
  let x := s.pmem.granule g
  let o := decodeOutcome x
  let s := codeRecord s w (0xC080 + stackOf g) 5 g o false
  match o with
  | .corrected i e => { s with pmem := s.pmem.setGranule g (correctSymbol x i e) }
  | .uncorrectable => { s with pgk := { s.pgk with bad := s.pgk.bad ++ [g] } }
  | _ => s

/-- The STACK_FENCED records of an access (R414). -/
def noteFenced (s : State) (w : Who) (pa n : Nat) : State :=
  (fencedStacks s pa n).foldl (fun s st =>
    noteAbsent s w (100 + st) { cause := 0x28, source := 0xC080 + st, addr := pa, info0 := st }) s

/-- The bytes of far-tier transactions that cover a run (R234: one 64-byte transaction for each 64-byte unit). -/
def farBytes (pa n : Nat) : Nat := if n = 0 then 0 else ((pa + n - 1) / 64 - pa / 64 + 1) * 64

/-- A read of physical memory within one page: each byte with its poison. What a stack gives is decoded as it is read; a line that the hamper
holds is not read there again (R228, R231, R238, R407, R414). -/
def physRead (w : Who) (pa n : Nat) (s : State) : List (Byte × Bool) × State :=
  match regionOf pa with
  | .near _ =>
    let missed := (linesOf pa n).filter (fun l => !hamperHas s l)
    let s := (linesOf pa n).foldl hamperRead s
    let fenced := fencedStacks s pa n
    let s := noteFenced s w pa n
    let met := (dirtyGranules s.pmem pa n).filter (fun g => missed.contains (g / 256) && !fenced.contains (stackOf g))
    let s := met.foldl (meetGranule w) s
    (nearReads s pa n, s)
  | .far m =>
    if farPresent s pa ∧ farPresent s (pa + n - 1) then
      (s.pmem.reads pa n, bumpXlt s w.die 0x60 (farBytes pa n))
    else
      let s := noteAbsent s w m { cause := 0x17, source := 0xC0B0 + m, addr := pa, info0 := m }
      let (bs, s) := freeBytes s n
      (bs.map (fun b => (b, true)), s)
  | .host => (s.hostMem.reads (hostBus s pa) n, s)
  | .reserved =>
    let (bs, s) := freeBytes s n
    (bs.map (fun b => (b, true)), s)

/-- A write of physical memory within one page, all poison or all clean (R165, R238, R409, R414). -/
def physWrite (w : Who) (pa : Nat) (bs : List Byte) (poison : Bool) (s : State) : State :=
  match regionOf pa with
  | .near _ =>
    let partial_ := (dirtyGranules s.pmem pa bs.length).filter (fun g => decide (g < pa ∨ pa + bs.length < g + 16))
    let s := noteFenced s w pa bs.length
    nearWrite (partial_.foldl (meetGranule w) s) pa bs poison
  | .far m =>
    if farPresent s pa ∧ farPresent s (pa + bs.length - 1) then
      bumpXlt { s with pmem := s.pmem.write pa bs poison } w.die 0x60 (farBytes pa bs.length)
    else noteAbsent s w m { cause := 0x17, source := 0xC0B0 + m, addr := pa, info0 := m }
  | .host => { s with hostMem := s.hostMem.write (hostBus s pa) bs poison }
  | .reserved => s

/-! ### Entries (R240 to R245) -/

/-- Whether a run lies wholly in the usable near tier of one die slice (R428). -/
def nodeInNear (pa n : Nat) : Bool := inUsableNear pa n && decide (pa / 2 ^ 39 = (pa + n - 1) / 2 ^ 39)

/-- The bytes of a node at a level: T2 64 KiB, T1 4 KiB, T0 256 B (R242). -/
def nodeBytes (level : Nat) : Nat :=
  match level with
  | 2 => 65536
  | 1 => 4096
  | _ => 256

/-- The bytes an entry at a level translates (R242). -/
def entrySpan (level : Nat) : Nat :=
  match level with
  | 2 => 2 ^ 39
  | 1 => 2 ^ 30
  | _ => 2 ^ 25

/-- The address field of a translation entry (R243). -/
def entryAddr (e : Nat) : Nat := e / 256 % 2 ^ 40 * 256

/-- R245 for an entry with V = 1 of a node at a level. -/
def malformedEntry (level e : Nat) : Bool :=
  let addr := entryAddr e
  let leaf := e.testBit 62
  let r := e.testBit 61
  let w := e.testBit 60
  let a := e.testBit 59
  let far := regionOf addr
  decide (e % 256 ≠ 0) || decide (e / 2 ^ 48 % 2 ^ 11 ≠ 0) ||
  (level == 2 && leaf) || (level == 0 && !leaf) ||
  (!leaf && (r || w || a || decide (addr % nodeBytes (level - 1) ≠ 0))) ||
  (leaf && decide (addr % entrySpan level ≠ 0)) ||
  (a && !(r && w)) || (a && far == .host) || far == .reserved ||
  (match far with
   | .near _ => !nodeInNear addr (if leaf then entrySpan level else nodeBytes (level - 1))
   | _ => !leaf)

/-- R240 for an address-space entry with EN = 1. -/
def malformedAsid (e : Nat) : Bool :=
  decide (e / 2 ^ 64 ≠ 0) || decide (e / 2 ^ 48 % 2 ^ 15 ≠ 0) || decide (e % 65536 ≠ 0) ||
    !nodeInNear (e % 2 ^ 48 / 65536 * 65536) 65536

/-- Whether a leaf allows an access (R244): bit 0 read, bit 1 write, bit 2 atomic. -/
def rightsOk (e access : Nat) : Bool :=
  let r := e.testBit 61
  let w := e.testBit 60
  let a := e.testBit 59
  (access % 2 == 0 || r) && (access / 2 % 2 == 0 || w) && (access / 4 % 2 == 0 || (r && w && a))

/-! ### Translation caches (R246, R248) -/

/-- The entry of a cache that translates an address. -/
def cacheFind (es : List XltEntry) (asid va : Nat) : Option XltEntry :=
  es.find? (fun e => e.asid == asid && decide (e.vbase ≤ va ∧ va < e.vbase + e.size))

/-- A cache with an entry; a full cache replaces a victim that no rule chooses (log 12). -/
def cacheInsert (cap victim : Nat) (es : List XltEntry) (e : XltEntry) : List XltEntry :=
  let es := es.filter (fun x => !(x.asid == e.asid && x.vbase == e.vbase && x.level == e.level && x.size == e.size))
  let es := if es.length < cap then es else es.eraseIdx (Config.cacheVictim victim % cap)
  e :: es

/-- The die translation cache filled with a leaf. -/
def fillDie (s : State) (die : Nat) (e : XltEntry) : State :=
  let es := cacheInsert 4096 s.freeCtr (tget [] s.xlt.dieCache die) e
  { s with freeCtr := s.freeCtr + 1, xlt := { s.xlt with dieCache := tset [] s.xlt.dieCache die es } }

/-- A core translation cache filled with a leaf. -/
def fillCore (s : State) (core : Nat) (e : XltEntry) : State :=
  let es := cacheInsert 64 s.freeCtr (tget [] s.xlt.coreCache core) e
  { s with freeCtr := s.freeCtr + 1, xlt := { s.xlt with coreCache := tset [] s.xlt.coreCache core es } }

/-- The walk cache filled with a pointer. -/
def fillWalk (s : State) (die : Nat) (e : XltEntry) : State :=
  let es := cacheInsert 256 s.freeCtr (tget [] s.xlt.walkCache die) e
  { s with freeCtr := s.freeCtr + 1, xlt := { s.xlt with walkCache := tset [] s.xlt.walkCache die es } }

/-! ### Walks (R246, R249) -/

/-- The source of a die slice's translation unit and of its page keeper (R381). -/
def xltSource (die : Nat) : Nat := 0xC060 + die
def pgkSource (die : Nat) : Nat := 0xC020 + die

/-- A fenced page keeper, spine index or translation unit makes the KV pages and the memory of its die slice unavailable (R18). -/
def dieFenced (s : State) (d : Nat) : Bool :=
  isFenced s (pgkSource d) || isFenced s (0xC068 + d) || isFenced s (xltSource d)

/-- Whether an address lies in the memory of a die slice that a fence has made unavailable (R18). -/
def paFenced (s : State) (pa : Nat) : Bool :=
  match regionOf pa with
  | .near d => dieFenced s d
  | _ => false

/-- How a walk ends. -/
inductive WalkEnd where
  | leaf (e : XltEntry)
  | fault (cause level : Nat)
  /-- an entry lies in the memory of a die slice that a fence has made unavailable (R18) -/
  | fenced
  deriving DecidableEq, Repr

/-- A naturally aligned read of a walker: the value and whether any of it is poison. -/
def walkerRead (w : Who) (pa n : Nat) (s : State) : (Nat × Bool) × State :=
  let (bs, s) := physRead w pa n s
  ((bytesNat (bs.map (·.1)), bs.any (·.2)), s)

/-- The walk from the node of a level down (R242, R249): `level + 1` levels remain. -/
def walkNode (w : Who) (asid va : Nat) : Nat → Nat → State → WalkEnd × State
  | level, node, s =>
    let idx := va / entrySpan level % (if level = 2 then 8192 else if level = 1 then 512 else 32)
    let fenced := paFenced s (node + 8 * idx)
    let ((e, bad), s) := if fenced then ((0, false), s) else walkerRead w (node + 8 * idx) 8 s
    if fenced then (.fenced, s)
    else if bad then (.fault 3 level, s)
    else if !e.testBit 63 then (.fault 1 level, s)
    else if malformedEntry level e then (.fault 3 level, s)
    else
      let ent : XltEntry := ⟨asid, va / entrySpan level * entrySpan level, entrySpan level, level, BitVec.ofNat 64 e⟩
      if e.testBit 62 then (.leaf ent, s)
      else
        let s := fillWalk s w.die ent
        match level with
        | 0 => (.fault 3 0, s)
        | l + 1 => walkNode w asid va l (entryAddr e) s

/-- The walk from the address-space table (R240, R249). -/
def walkRoot (w : Who) (asid va : Nat) (s : State) : WalkEnd × State :=
  let at_ := cfgVal s 0x5001 0 + asid * 16
  let fenced := paFenced s at_
  let ((e, bad), s) := if fenced then ((0, false), s) else walkerRead w at_ 16 s
  if fenced then (.fenced, s)
  else if bad then (.fault 3 3, s)
  else if !e.testBit 63 then (.fault 4 3, s)
  else if malformedAsid e then (.fault 3 3, s)
  else walkNode w asid va 2 (e % 2 ^ 48 / 65536 * 65536) s

/-- A walk, from the deepest pointer the walk cache holds unless it must start at the address-space table (R246, R255). -/
def walk (w : Who) (fromTable : Bool) (asid va : Nat) (s : State) : WalkEnd × State :=
  let s := bumpFree (bumpXlt s w.die 0x18 1) (0x1000 + w.die * 0x80) 0x20
  if va ≥ 2 ^ 52 then (.fault 5 3, s)
  else
    let ptrs := tget [] s.xlt.walkCache w.die
    let find (l : Nat) := if fromTable then none else cacheFind (ptrs.filter (fun e => e.level == l)) asid va
    match find 1, find 2 with
    | some e, _ => walkNode w asid va 0 (entryAddr e.entry.toNat) s
    | none, some e => walkNode w asid va 1 (entryAddr e.entry.toNat) s
    | none, none => walkRoot w asid va s

/-- The physical address a leaf gives. -/
def leafPa (e : XltEntry) (va : Nat) : Nat := entryAddr e.entry.toNat + (va - e.vbase)

/-! ### Pending faults (R246, R250 to R252) -/

/-- The 32 MiB page of an address. -/
def vpageOf (va : Nat) : Nat := va / 2 ^ 25

/-- A pending entry. -/
def pendAt (s : State) (die idx : Nat) : Option PendEntry := tget none s.xlt.pend (die * 256 + idx)

/-- A pending entry replaced. -/
def setPend (s : State) (die idx : Nat) (p : Option PendEntry) : State :=
  { s with xlt := { s.xlt with pend := tset none s.xlt.pend (die * 256 + idx) p } }

/-- A miss-table entry. -/
def missAt (s : State) (die idx : Nat) : Option MissEntry := tget none s.xlt.miss (die * 256 + idx)

/-- A miss-table entry replaced. -/
def setMiss (s : State) (die idx : Nat) (m : Option MissEntry) : State :=
  { s with xlt := { s.xlt with miss := tset none s.xlt.miss (die * 256 + idx) m } }

/-- A free miss-table entry taken for a walk (R246). -/
def takeMiss (s : State) (die idx asid vpage : Nat) (ws : List Waiter) (retryFor : Option Nat) : State :=
  let n := s.xlt.missCount
  setMiss { s with xlt := { s.xlt with missCount := n + 1 } } die idx (some ⟨idx, asid, vpage, ws, retryFor, n⟩)

/-- The pending entries of a die with their indices. -/
def pendings (s : State) (die : Nat) : List (Nat × PendEntry) :=
  s.xlt.pend.filterMap (fun e => if e.1 / 256 = die then e.2.map (fun p => (e.1 % 256, p)) else none)

/-- Every pending entry with its die and index. -/
def allPendings (s : State) : List (Nat × Nat × PendEntry) :=
  s.xlt.pend.filterMap (fun e => e.2.map (fun p => (e.1 / 256, e.1 % 256, p)))

/-- The miss-table entries of a die with their indices. -/
def misses (s : State) (die : Nat) : List (Nat × MissEntry) :=
  s.xlt.miss.filterMap (fun e => if e.1 / 256 = die then e.2.map (fun m => (e.1 % 256, m)) else none)

/-- The pending fault of a page on a die (R246). -/
def pendingFor (s : State) (die asid va : Nat) : Option (Nat × PendEntry) :=
  (pendings s die).find? (fun e => e.2.asid == asid && vpageOf e.2.va == vpageOf va)

/-- The walk in flight for a page on a die (R246). -/
def missFor (s : State) (die asid va : Nat) : Option (Nat × MissEntry) :=
  (misses s die).find? (fun e => e.2.asid == asid && e.2.vpage == vpageOf va)

/-- The 32 bytes of a fault record (R250). -/
def faultBytes (s : State) (p : PendEntry) : List Byte :=
  let k := p.first.key
  natBytes 8 (p.va % 2 ^ 52) ++ natBytes 4 p.faultId ++ natBytes 1 p.asid ++
    natBytes 1 (p.access % 8 + p.first.origin * 16 + (if p.requeued then 128 else 0)) ++ natBytes 1 (p.cause + p.level * 16) ++
    natBytes 1 (min p.waiters.length 255) ++ natBytes 1 (slotNumber k) ++ natBytes 1 (slotSeq s k) ++
    natBytes 1 p.first.cluster ++ natBytes 1 p.first.queue ++ natBytes 1 (portCode (portOf k)) ++ natBytes 3 0 ++
    natBytes 8 p.time

/-- A record written at the end of the fault queue, and into its place in the ring of R251. -/
def queuePut (s : State) (id : Nat) (bs : List Byte) : State :=
  nearWrite { s with xlt := { s.xlt with queue := s.xlt.queue ++ [⟨id, bs⟩], ringAt := s.xlt.ringAt + 1 } }
    (cfgVal s 0x5002 0 + s.xlt.ringAt % 1024 * 32) bs false

/-- The record of a new pending fault: written, or held while the queue is full (R251, R252). -/
def recordFault (s : State) (die idx : Nat) (p : PendEntry) : State :=
  if s.xlt.queue.length < 1024 then
    queuePut (setPend s die idx (some { p with record := .queued })) p.faultId (faultBytes s p)
  else
    let s := setPend s die idx (some { p with record := .held })
    bumpFqOvf { s with xlt := { s.xlt with heldOrder := s.xlt.heldOrder ++ [p.faultId], overflow := true } }

/-- The lowest free pending entry of a die, none when all 256 are taken (R246). -/
def freePend (s : State) (die : Nat) : Option Nat := (List.range 256).find? (fun i => pendAt s die i == none)

/-- Waiters held in their engines' miss registers (R246). -/
def holdWaiters (s : State) (die asid : Nat) (ws : List Waiter) : State :=
  bumpXlt { s with xlt := { s.xlt with missRegs := s.xlt.missRegs ++ ws.map (fun w => (die, asid, w)) } } die 0x38 ws.length

/-- A walk's fault becomes a pending entry with all its waiters, or its waiters are held when the table is full (R246, R250). -/
def raiseFault (s : State) (die asid va access cause level : Nat) (ws : List Waiter) : State :=
  match ws, freePend s die with
  | [], _ => s
  | w :: _, some idx =>
    let serial := tget 0 s.xlt.serials die
    let p : PendEntry := {
      index := idx
      faultId := die * 2 ^ 29 + idx * 2 ^ 21 + serial
      asid := asid
      va := va
      access := access
      cause := cause
      level := level
      first := w
      waiters := ws
      record := .held
      requeued := false
      time := s.now }
    let s := { s with xlt := { s.xlt with serials := tset 0 s.xlt.serials die ((serial + 1) % 2 ^ 21) } }
    recordFault (bumpXlt s die 0x28 1) die idx p
  | _, none => holdWaiters s die asid ws

/-- A request merged into the pending fault or the walk in flight of its page (R246). -/
def mergeWaiter (s : State) (die asid : Nat) (w : Waiter) : Option State :=
  match pendingFor s die asid w.va, missFor s die asid w.va with
  | some (i, p), _ => some (bumpXlt (setPend s die i (some { p with waiters := p.waiters ++ [w] })) die 0x30 1)
  | none, some (i, m) => some (bumpXlt (setMiss s die i (some { m with waiters := m.waiters ++ [w] })) die 0x30 1)
  | none, none => none

/-- A request that misses the translation caches: merged, or given the lowest free miss-table entry, or held (R246). -/
def missRequest (s : State) (die asid : Nat) (w : Waiter) : State :=
  match mergeWaiter s die asid w with
  | some s => s
  | none =>
    match (List.range 64).find? (fun i => missAt s die i == none) with
    | some i => takeMiss s die i asid (vpageOf w.va) [w] none
    | none => holdWaiters s die asid [w]

/-! ### Requests -/

/-- What a request finds in the translation caches: an address, or nothing it can use; a miss of the core translation cache counts (R246,
R257). -/
def cachedPa (s : State) (core : Option Nat) (die asid va access : Nat) : Option Nat × State :=
  let fromCore := match core with
    | some c => cacheFind (tget [] s.xlt.coreCache c) asid va
    | none => none
  match fromCore with
  | some e => (if rightsOk e.entry.toNat access then some (leafPa e va) else none, s)
  | none =>
    let s := match core with
      | some _ => bumpXlt s die 0x08 1
      | none => s
    match cacheFind (tget [] s.xlt.dieCache die) asid va with
    | some e =>
      if rightsOk e.entry.toNat access then
        let s := bumpXlt s die 0x10 1
        (some (leafPa e va), match core with | some c => fillCore s c e | none => s)
      else (none, s)
    | none => (none, s)

/-- The waiter a request leaves (R250). -/
def waiterOf (w : Who) (va access : Nat) : Waiter :=
  ⟨w.origin, w.key.getD 0, w.cluster, w.core, w.queue, w.index, w.stack, va, access⟩

/-- The core whose translation cache a request looks in: a stream queue's own (R246). -/
def Who.cacheCore (w : Who) : Option Nat := if w.origin = 0 then some w.core else none

/-- What stands for a cause of R250 where a walk meets fenced memory, which ends its command (R18). -/
def walkFenced : Nat := 16

/-- A walk made now, whose leaf fills the die translation cache and the requesting core's: the address, or the cause and level of its fault
(R246, R249). -/
def walkNow (w : Who) (asid va access : Nat) (s : State) : Except (Nat × Nat) Nat × State :=
  match walk w false asid va s with
  | (.leaf e, s) =>
    let s := fillDie s w.die e
    let s := match w.cacheCore with
      | some c => fillCore s c e
      | none => s
    if rightsOk e.entry.toNat access then (.ok (leafPa e va), s) else (.error (2, e.level), s)
  | (.fault c l, s) => (.error (c, l), s)
  | (.fenced, s) => (.error (walkFenced, 0), s)

/-- An access of a body that translates at once: its miss-table entry is taken and freed within the step. Its address, or the fault it met;
cause 0 when it merges with one already pending or with a walk in flight, or finds the miss table full (R246, R249). -/
def xlateNow (w : Who) (asid va access : Nat) (s : State) : Except (Nat × Nat) Nat × State :=
  match cachedPa s w.cacheCore w.die asid va access with
  | (some pa, s) => (.ok pa, s)
  | (none, s) =>
    if (pendingFor s w.die asid va).isSome || (missFor s w.die asid va).isSome || (misses s w.die).length ≥ 64 then (.error (0, 0), s)
    else walkNow w asid va access s

/-- An access whose body stopped for a fault waits: merged, held in its miss register when the miss table is full, or with the pending entry
of the fault its walk met. The body's effects were undone, the walk's were not: it is made here for its counts, its records and the caches
it fills (R246, R249, R250, R257). -/
def waitFault (s : State) (f : XFault) (w : Waiter) : State :=
  let s := if w.origin = 0 then bumpXlt s f.die 0x08 1 else s
  match mergeWaiter s f.die f.asid w with
  | some s => s
  | none =>
    if f.cause = 0 then holdWaiters s f.die f.asid [w]
    else
      let who : Who := { die := f.die, key := some w.key, cluster := w.cluster, origin := w.origin, core := w.core, queue := w.queue }
      raiseFault (walkNow who f.asid f.va f.access s).2 f.die f.asid f.va f.access f.cause f.level [w]

/-- A translated access of a body: it needs the translation unit of its die and the memory of the die it reaches, and aborts the command
while either is fenced; a fault makes it wait (R18, R249). -/
def xlateAct (w : Who) (asid va access : Nat) : Act Nat := do
  if isFenced (← get) (xltSource w.die) then abortWith 0x20
  else
    let (r, s) := xlateNow w asid va access (← get)
    match r with
    | .ok pa =>
      set s
      if paFenced s pa then abortWith 0x20 else return pa
    | .error (c, l) =>
      if c = walkFenced then
        set s
        abortWith 0x20
      else throw (.fault ⟨w.die, asid, va, access, c, l, w.core, w.queue, w.origin⟩)

/-- A run of addresses cut at 32 MiB pages. -/
def pagePieces : Nat → Nat → Nat → List (Nat × Nat)
  | 0, _, _ => []
  | fuel + 1, va, n =>
    if n = 0 then []
    else
      let k := min n (2 ^ 25 - va % 2 ^ 25)
      (va, k) :: pagePieces fuel (va + k) (n - k)

/-- A read of physical memory in a body. -/
def physReadAct (w : Who) (pa n : Nat) : Act (List (Byte × Bool)) := do
  let (bs, s) := physRead w pa n (← get)
  set s
  return bs

/-- A translated read (R249). -/
def readVa (w : Who) (asid va n : Nat) : Act (List (Byte × Bool)) := do
  let mut out : List (Byte × Bool) := []
  for (a, k) in pagePieces (n / 2 ^ 25 + 2) va n do
    let pa ← xlateAct w asid a 1
    out := out ++ (← physReadAct w pa k)
  return out

/-- A translated write (R249): every page is translated before any byte is written. Nothing is written to host memory while that is `held`
(R351). -/
def writeVa (w : Who) (held : Bool) (asid va : Nat) (bs : List Byte) (poison : Bool) : Act Unit := do
  let pieces := pagePieces (bs.length / 2 ^ 25 + 2) va bs.length
  let mut pas : List (Nat × Nat × Nat) := []
  for (a, k) in pieces do
    pas := pas ++ [(← xlateAct w asid a 2, a - va, k)]
  if held ∧ pas.any (fun e => regionOf e.1 == .host) then throw (.park .waitHost)
  for (pa, o, k) in pas do
    modify (fun s => physWrite w pa ((bs.drop o).take k) poison s)

/-- The structure kinds of a POISON_CTL record (R320) that have a code; others carry 0. -/
def poisonCtl {α : Type} (w : Who) (addr kind : Nat) : Act α := do
  reportAct { cause := 0x26, source := 0x8000 + 2, key := w.key, cluster := w.cluster, addr := addr, info0 := kind }
  abortWith 0x20

/-- A control structure read for a command: poison ends it with a POISON_CTL record (R410). -/
def readCtl (w : Who) (asid va n kind : Nat) : Act (List Byte) := do
  let bs ← readVa w asid va n
  if bs.any (·.2) then poisonCtl w va kind else return bs.map (·.1)

/-! ### Pool accesses (R104, R241) -/

/-- A pool access that cannot be translated: POOL_FAULT, and the die's page keeper or spine index is fenced (R104, R137). -/
def poolFault (s : State) (w : Who) (va cause level : Nat) : State :=
  report s { cause := 0x13, source := w.pool + w.die, key := w.key, cluster := w.cluster, addr := va, info0 := cause + level * 16 }

/-- A translation of hardware or firmware that never waits: from the caches, or by a walk of its own (R104, R391). -/
def xlateOwn (w : Who) (asid va access : Nat) (s : State) : Except (Nat × Nat) Nat × State :=
  match cachedPa s none w.die asid va access with
  | (some pa, s) => (.ok pa, s)
  | (none, s) => walkNow w asid va access s

/-- The translation of a pool address of a die: none (with the record and the fence) when its walk faults, and none where the memory of
another die slice is fenced (R18, R104). -/
def poolXlate (w : Who) (va access : Nat) (s : State) : Option Nat × State :=
  match xlateOwn w (poolAsid s) va access s with
  | (.ok pa, s) => (if paFenced s pa then none else some pa, s)
  | (.error (c, l), s) => (none, if c = walkFenced then s else poolFault s w va c l)

/-- A read of a pool region; a failure ends the command ABORTED_FAULT (R18, R104). -/
def poolRead (w : Who) (va n kind : Nat) : Act (List Byte) := do
  if dieFenced (← get) w.die then abortWith 0x20
  else
    let (r, s) := poolXlate w va 1 (← get)
    set s
    match r with
    | none => abortWith 0x20
    | some pa =>
      let bs ← physReadAct w pa n
      if bs.any (·.2) then poisonCtl w va kind else return bs.map (·.1)

/-- A write of a pool region. -/
def poolWrite (w : Who) (va : Nat) (bs : List Byte) : Act Unit := do
  if dieFenced (← get) w.die then abortWith 0x20
  else
    let (r, s) := poolXlate w va 2 (← get)
    set s
    match r with
    | none => abortWith 0x20
    | some pa => modify (fun s => physWrite w pa bs false s)

/-- Translated memory needs the address-space table and the fault queue: while either base is 0, a command that accesses it is
rejected naming the field (R229). -/
def needXlt : Act Unit := do
  let s ← get
  if cfgVal s 0x5001 0 = 0 then rejectAt (configLoc 0x5001 0) 7 63 0 0 0
  else if cfgVal s 0x5002 0 = 0 then rejectAt (configLoc 0x5002 0) 7 63 0 0 0
  else pure ()

/-- A virtual address in a 64-bit parameter field: bits [63:52] are 0 (R98, R130). -/
def checkVa (p : SlotWord) (o : Nat) : Act Unit := reservedParam p o 52 12

end Sys2Proof.Machine
end

