-- ==== Sys2Proof/Machine/Admission.lean ====
section
/-! DEFINITION. The admission of commands and their replies (spec/12_host_interface.md R308 to R322, R328;
spec/13_scheduling.md R334, R344, R351; spec/06_prefix_sharing.md R152). -/
namespace Sys2Proof.Machine

/-! ### Replies -/

/-- What a completing command gives its reply (R312). -/
structure Reply where
  result : BitVec 64 := 0
  longWritten : Nat := 0
  kind : Nat := 0
  count : Nat := 0
  detail : List Byte := []
  trunc : Bool := false

/-- The slot contents of a final reply (R312): everything but the header keeps no bit of the request. -/
def replySlot (s : State) (req : SlotWord) (code : Nat) (r : Reply) (admittedAt steps : Nat) : SlotWord :=
  let seq := slotBits req 40 8
  let hdr := slotBits req 0 32 + seq * 2 ^ 40 + slotBits req 48 1 * 2 ^ 48 + slotBits req 56 4 * 2 ^ 56
  BitVec.ofNat 2048 (bytesNat (natBytes 8 hdr ++ natBytes 8 r.result.toNat ++ natBytes 4 r.longWritten ++ natBytes 1 r.kind ++
    natBytes 1 r.count ++ natBytes 1 (bit r.trunc) ++ natBytes 1 0 ++ natBytes 8 s.now ++
    natBytes 4 (statusWord s code seq) ++ natBytes 4 (stateWord s) ++ natBytes 8 admittedAt ++ natBytes 8 steps ++
    natBytes 8 0 ++ (r.detail ++ List.replicate 192 0).take 192))

/-- The 32 bytes of a rejection report (R320). -/
def rejectBytes (r : Reject) : List Byte :=
  natBytes 4 r.locator ++ natBytes 1 r.check ++ natBytes 1 r.hi ++ natBytes 1 r.lo ++ natBytes 1 0 ++ natBytes 4 r.item ++
    natBytes 4 0 ++ natBytes 8 r.found ++ natBytes 8 r.limit

/-- The reply of a rejected command: its report, none for REJECTED_VERIFY (R320). -/
def rejectReply (r : Reject) : Reply :=
  match r.plan with
  | some bs => { result := r.result, longWritten := r.long, kind := 3, count := 1, detail := bs }
  | none =>
    if r.code = 0x13 then { result := r.result }
    else { result := r.result, kind := 1, count := 1, detail := rejectBytes r }

/-- One clamp entry (R328). -/
def clampBytes (c : ClampEntry) : List Byte :=
  natBytes 4 c.locator ++ natBytes 1 c.reason ++ natBytes 1 c.hi ++ natBytes 1 c.lo ++ natBytes 1 0 ++ natBytes 8 c.requested ++
    natBytes 8 c.applied

/-- A reply with the clamp report in its detail area, unless something else stands there (R328). -/
def withClamps (cs : List ClampEntry) (r : Reply) : Reply :=
  if cs.isEmpty ∨ r.kind ≠ 0 then r
  else { r with
    kind := 2
    count := min cs.length 8
    detail := (cs.take 8).flatMap clampBytes
    trunc := r.trunc || (decide (cs.length > 8) && r.longWritten < 24 * cs.length) }

/-- A command removed and its slot overwritten by the final reply; codes of group 0x1 are counted (R307, R312). -/
def writeReply (s : State) (k code : Nat) (r : Reply) (admittedAt steps : Nat) : State :=
  let s := { s with cmds := s.cmds.filter (fun c => c.key ≠ k) }
  let s := if code / 16 = 1 then { s with host := { s.host with rejected := satCount s.host.rejected 1 } } else s
  setSlot s k (replySlot s (slotAt s k) code r admittedAt steps)

/-- Whether a command's deadline tick has passed (R344). -/
def isLate (s : State) (k : Nat) : Bool :=
  match deadlineTicks (slotAt s k) with
  | some d => decide (s.now > d)
  | none => false

/-- Deadline checks stop while the device is ORPHANED or the command's session is not OPEN (R351, R352). -/
def deadlineRuns (s : State) (k : Nat) : Bool :=
  s.lease.state ≠ .orphaned && (tget Session.reset s.sessions (cmdSession s k % 256)).state == .opened

/-- The DEADLINE_MISS record of a command (R343, R418). -/
def recordMiss (s : State) (k stall : Nat) : State :=
  report (updCmd s k (fun c => { c with missed := true })) {
    cause := 0x1E, source := 0x8002, key := some k, addr := hdrField (slotAt s k) 8 64, info0 := stall, info1 := s.now }

/-- A command ends with a code (R312); a miss that no check has found is recorded first (R342). -/
def endCmd (s : State) (k code : Nat) (r : Reply) : State :=
  match cmdOf s k with
  | some c =>
    let s := if isLate s k && !c.missed && deadlineRuns s k then recordMiss s k 0 else s
    writeReply s k code (withClamps c.clamps r) c.admittedAt c.steps
  | none => s

/-- A command completes with the success code of R168. -/
def completeCmd (s : State) (k : Nat) (r : Reply) : State :=
  match cmdOf s k with
  | some c => endCmd s k (successCode c.poison (isLate s k) (!c.clamps.isEmpty) c.conflict) r
  | none => s

/-- A rejected command: its final reply and nothing else (R319). -/
def rejectCmd (s : State) (k : Nat) (r : Reject) : State := writeReply s k r.code (rejectReply r) 0 0

/-! ### Long replies (R315) -/

/-- The long reply of a command: the bytes that fit are written to host memory, those the host bridge accepts counted (log 11). -/
def longReply (s : State) (k : Nat) (bs : List Byte) : (Nat × Bool) × State :=
  let p := slotAt s k
  let addr := hdrField p 0x10 64
  let len := hdrField p 0x18 32
  let want := bs.take len
  let got := min want.length (Config.hostAccepts s.freeCtr addr want.length)
  let s := { s with freeCtr := s.freeCtr + 1, hostMem := s.hostMem.write addr (want.take got) false }
  let s := if got < want.length then report s {
      cause := 0x25, source := 0xC0A1, key := some k, addr := addr, info0 := got } else s
  ((got, decide (len < bs.length)), s)

/-- A reply with a long reply. -/
def longAct (k : Nat) (bs : List Byte) (r : Reply) : Act Reply := do
  let ((n, t), s) := longReply (← get) k bs
  set s
  return { r with longWritten := n, trunc := r.trunc || t }

/-! ### Interim status (R311) -/

/-- Plan steps and rows of a command are held while the lease is not HELD or its session is not OPEN (R335, R346, R351, R352). -/
def stepsHeld (s : State) (k : Nat) : Bool :=
  s.lease.state == .lapsed || s.lease.state == .orphaned ||
    (decide (cmdSession s k ≠ 0) && (tget Session.reset s.sessions (cmdSession s k % 256)).state ≠ .opened)

/-- phase: RUNNING while the command executes and nothing holds it (R311). -/
def phaseOf (s : State) (c : Cmd) : Nat :=
  match c.stage with
  | .running => if stepsHeld s c.key then 0 else 1
  | .moving => 1
  | .allocating => 1
  | .stalled => 1
  | .inProgress => 1
  | .waitEpoch => 1
  | .draining => 1
  | _ => 0

/-- The code of an interim status: PENDING_EPOCH while WAIT or DRAIN holds a CFG_COMMIT (R347). -/
def interimCode (c : Cmd) : Nat :=
  match c.stage with
  | .waitEpoch => 0x31
  | .draining => 0x31
  | _ => 0x30

/-- The interim status of a slot written (R311). -/
def interim (s : State) (k : Nat) : State :=
  match cmdOf s k with
  | none => s
  | some c =>
    let st := statusWord s (interimCode c) (slotSeq s k)
    let bs := natBytes 4 st ++ natBytes 4 (stateWord s) ++ natBytes 8 c.admittedAt ++
      natBytes 8 (c.steps % 2 ^ 32 + phaseOf s c * 2 ^ 62) ++ natBytes 8 0
    updCmd (setSlot s k (setBytes (slotAt s k) 0x20 bs)) k (fun c =>
      { c with lastInterim := some s.now, lastStatus := BitVec.ofNat 32 st })

/-- The interim status of an admitted command written when its 10 µs have passed; INTERIM_STATUS_REFRESH writes a later one (R311). -/
def refreshInterim (s : State) (k : Nat) : State :=
  match cmdOf s k with
  | none => s
  | some c => if c.stage ≠ .checking && c.lastInterim.all (fun t => decide (s.now ≥ t + ticksCeil 10000)) then interim s k else s

/-! ### Steps 1 to 5 of R319 -/

/-- The session and long-reply columns of R317: session 0 must be 0, 1 required, 2 either; long reply 0 must be 0, 1 optional,
2 required. -/
def opcodeTable : List (Nat × Nat × Nat) :=
  [(0x0101, 0, 0), (0x0102, 0, 1), (0x0103, 0, 0), (0x0104, 0, 0), (0x0201, 1, 0), (0x0202, 1, 0), (0x0203, 1, 0),
   (0x0204, 1, 0), (0x0206, 1, 2), (0x0207, 1, 2), (0x0208, 1, 0), (0x0209, 1, 0), (0x020A, 1, 2), (0x0301, 1, 0)] ++
  [(0x0302, 1, 0), (0x0303, 1, 0), (0x0304, 1, 0), (0x0305, 1, 1), (0x0401, 1, 0), (0x0402, 1, 0), (0x0403, 1, 1),
   (0x0501, 0, 0), (0x0502, 1, 0), (0x0601, 0, 2), (0x0602, 0, 0), (0x0603, 0, 0), (0x0701, 0, 0), (0x0702, 0, 0)] ++
  [(0x0703, 0, 0), (0x0704, 0, 2), (0x0705, 0, 0), (0x0801, 0, 0), (0x0802, 2, 0), (0x0901, 0, 2), (0x0902, 0, 0),
   (0x0903, 0, 2), (0x0904, 0, 0), (0x0A01, 0, 0), (0x0A02, 1, 0), (0x0A03, 0, 0), (0x0A04, 0, 2), (0x0A05, 0, 0)]

/-- A rejection that names a header field (R320). -/
def headerReject (code off check hi lo found limit : Nat) : Reject :=
  { code := code, locator := off, check := check, hi := hi, lo := lo, found := found, limit := limit }

/-- The first failing check of a list, by condition and report. -/
def firstFail : List (Bool × Reject) → Option Reject
  | [] => none
  | (ok, r) :: rest => if ok then firstFail rest else some r

/-- A reserved field of the header at byte `off`, bits [lo + w − 1 : lo] (R9, R309). -/
def headerReserved (p : SlotWord) (off lo w : Nat) : Bool × Reject :=
  let v := slotBits p (8 * off + lo) w
  (v == 0, headerReject 0x10 off 8 (lo + w - 1) lo v 0)

/-- Step 1 (R319): ver, reserved bits, opcode. -/
def headerCheck (p : SlotWord) : Option Reject :=
  let ver := slotBits p 56 4
  let op := slotBits p 0 16
  firstFail
    [(ver == 1, headerReject 0x10 0 1 59 56 ver 1),
     headerReserved p 0 32 8, headerReserved p 0 49 7, headerReserved p 0 60 3, headerReserved p 0x1C 0 32,
     headerReserved p 0x20 0 64, headerReserved p 0x28 0 64, headerReserved p 0x30 0 64, headerReserved p 0x38 0 64,
     (opcodeTable.any (fun e => e.1 == op), headerReject 0x10 0 6 15 0 op 0)]

/-- Whether a port permits an opcode at all (R321). -/
def portPermits (p : Port) (op : Nat) : Bool :=
  match p with
  | .host => true
  | .mgmt => op ∈ [0x0A05, 0x0101, 0x0104, 0x0102, 0x0103, 0x0801]
  | .debug => op ∈ [0x0A05, 0x0101, 0x0104, 0x0705]

/-- The first CFG_WRITE entry that names a field its port may not write (R321). -/
def portField (port : Port) (p : SlotWord) : Option Reject :=
  let n := min (param p 0 8) 11
  let bad (i : Nat) : Bool :=
    let f := param p (8 + 16 * i) 16
    (fieldInfo f).isSome && (decide (f = 0xB000) != (port == .mgmt))
  match (List.range n).find? bad with
  | none => none
  | some i =>
    let f := param p (8 + 16 * i) 16
    some { code := 0x11, locator := configLoc f (param p (10 + 16 * i) 8), check := 9, hi := 63, lo := 0, item := i,
           found := param p (16 + 16 * i) 64 }

/-- A host PWR_MODE SET above a ceiling, in LOAD one that a SET has left for FW_START (R397, R321; log 59). -/
def portEnvelope (s : State) (p : SlotWord) : Option Reject :=
  let env := param p 1 8
  let tj := param p 2 8
  let held := s.pwr.atStart.getD (s.pwr.envEff, s.pwr.envCeil, s.pwr.tjEff, s.pwr.tjCeil)
  if param p 0 8 ≠ 1 then none
  else firstFail
    [(decide (env ≤ held.2.1 ∨ env > 2), { headerReject 0x11 0 9 7 0 env held.2.1 with locator := paramLoc 1 }),
     (decide (tj ≤ held.2.2.2), { headerReject 0x11 0 9 7 0 tj held.2.2.2 with locator := paramLoc 2 })]

/-- Step 2 (R319, R321). -/
def portCheck (s : State) (port : Port) (p : SlotWord) : Option Reject :=
  let op := slotBits p 0 16
  if !portPermits port op then some (headerReject 0x11 0 9 15 0 op 0)
  else if op = 0x0102 then portField port p
  else if op = 0x0801 ∧ port = .host then portEnvelope s p
  else none

/-- What the device state does with an opcode (R322). -/
inductive Gate where
  | accept
  | wait
  | busy
  deriving DecidableEq, Repr

/-- Step 3 (R322). -/
def gate (d : DevState) (op : Nat) : Gate :=
  let ready := decide (op ≠ 0x0701 ∧ op ≠ 0x0702)
  match d with
  | .load => if op ∈ [0x0A05, 0x0701, 0x0702, 0x0801] then .accept else .busy
  | .starting => if op = 0x0A05 then .accept else if ready then .wait else .busy
  | .ready => if ready then .accept else .busy
  | .draining =>
    if op ∈ [0x0A05, 0x0101, 0x0104, 0x0901, 0x0902, 0x0903, 0x0904, 0x0704, 0x0601, 0x0A03, 0x0A04, 0x0801, 0x0802] then .accept
    else if ready then .wait else .busy
  | .restarting => .wait
  | .orphaned => if op ∈ [0x0A05, 0x0101, 0x0A04, 0x0801] then .accept else .busy
  | .fwHalt => if op ∈ [0x0A05, 0x0903, 0x0704] then .accept else .busy

/-- A REJECTED_BUSY with locator NONE (R320). -/
def busyReject : Reject := { code := 0x12 }

/-- Step 4 (R317, R333 to R335). -/
def sessionCheck (s : State) (port : Port) (p : SlotWord) (rule : Nat) : Option Reject :=
  let op := slotBits p 0 16
  let sid := slotBits p 16 16
  let drop := slotBits p 48 1
  let dl := hdrField p 8 64
  let ses := if sid = 0 then none else sessionOf s sid
  let open_ := match ses with
    | some e => e.state == .opened || (e.state == .adoptable && op == 0x0A02)
    | none => false
  let mayDeadline := match ses with
    | some e => e.interactive && decide (2 ≤ op / 256 ∧ op / 256 ≤ 5)
    | none => false
  firstFail
    [(decide (sid = 0) || (port == .host && decide (rule ≠ 0)), headerReject 0x10 0 1 31 16 sid 0),
     ((decide (sid = 0) && decide (rule ≠ 1)) || open_, headerReject 0x10 0 7 31 16 sid 0),
     (decide (drop = 0 ∨ dl ≠ 0), headerReject 0x10 0 1 48 48 drop 0),
     (decide (dl = 0) || mayDeadline, headerReject 0x10 8 1 63 0 dl 0)]

/-- Step 5 (R309, R315, R317): `need` is the size the parameters state. -/
def longCheck (port : Port) (p : SlotWord) (rule need : Nat) : Option Reject :=
  let la := hdrField p 0x10 64
  let ll := hdrField p 0x18 32
  firstFail
    [(decide (la = 0) || (port == .host && decide (rule ≠ 0)), headerReject 0x10 0x10 1 63 0 la 0),
     (decide (la ≠ 0 ∨ rule ≠ 2), headerReject 0x10 0x10 7 63 0 0 0),
     (decide (la % 64 = 0), headerReject 0x10 0x10 2 63 0 la 64),
     (decide (la ≠ 0 ∨ ll = 0), headerReject 0x10 0x18 1 31 0 ll 0),
     (decide (ll % 64 = 0), headerReject 0x10 0x18 2 31 0 ll 64),
     (decide (ll ≤ 2 ^ 24), headerReject 0x10 0x18 1 31 0 ll (2 ^ 24)),
     (decide (la = 0 ∨ ll ≥ need), headerReject 0x10 0x18 1 31 0 ll need)]

/-! ### Carrying a command out -/

/-- How an opcode is checked and carried out: the long-reply size its parameters state (step 5), the checks of steps 6 to 9 with
the clamps they note, and its body. A `placed` command waits for the scheduler instead (R338). -/
structure OpDef where
  need : SlotWord → Nat := fun _ => 0
  check : Nat → Act (List ClampEntry)
  body : Nat → Act Reply
  placed : Bool := false

/-- Whether a command may not write host memory now (R351, R352). -/
def hostHeld (s : State) (k : Nat) : Bool :=
  let ses := tget Session.reset s.sessions (cmdSession s k % 256)
  s.lease.state == .lapsed || s.lease.state == .orphaned ||
    (decide (cmdSession s k ≠ 0) && (ses.state == .adoptable || ses.state == .orphaned))

/-- The scheduling class of a command: interactive with a deadline, interactive without one, batch (R338). -/
def schedClass (s : State) (c : Cmd) : Nat :=
  if (tget Session.reset s.sessions (cmdSession s c.key % 256)).interactive then
    (if (deadlineTicks (slotAt s c.key)).isSome then 0 else 1)
  else 2

/-- A command that writes a long reply is held before it acts, ATTACH never, CFG_WRITE only with a clamp report (R351). -/
def mustWait (s : State) (c : Cmd) : Bool :=
  hostHeld s c.key && decide (hdrField (slotAt s c.key) 0x10 64 ≠ 0) && decide (c.opcode ≠ 0x0A04) &&
    (decide (c.opcode ≠ 0x0102) || !c.clamps.isEmpty)

/-- A fault of a body: its effects are undone and it waits for the answer (R249; log 20). `st` is the stage it waits in. -/
def faultCmd (s : State) (k : Nat) (st : Stage) (f : XFault) : State :=
  let s := updCmd s k (fun c => { c with stage := st })
  let w : Waiter := ⟨3, k, 0xFF, 0, 0xFF, 0, 0, f.va, f.access⟩
  waitFault s f w

/-- The body of a command run once (R318). -/
def runBody (d : OpDef) (k : Nat) (s : State) : State :=
  match cmdOf s k with
  | none => s
  | some c =>
    if mustWait s c then updCmd s k (fun c => { c with stage := .waitHost })
    else
      match (d.body k).run s with
      | .ok r s' => completeCmd s' k r
      | .error (.reject r) _ => rejectCmd s k r
      | .error (.abort code) s' => endCmd s' k code {}
      | .error (.fault f) _ => faultCmd s k .stalled f
      | .error (.park st) s' => updCmd s' k (fun c => { c with stage := st })

/-- The reclamation epoch when a command is admitted (R152). -/
def advanceReclaim (s : State) : State :=
  let e := s.pgk.epoch + 1
  if s.pgk.sinceAdvance = 0 ∨ s.cmds.any (fun c => c.stage ≠ .checking && decide ((e - c.startEpoch).toNat ≥ 128)) then s
  else { s with pgk := { s.pgk with epoch := e, sinceAdvance := 0 } }

/-- The stall number of a record (R418). -/
def stallCode : StallKind → Nat
  | .none => 0
  | .fault => 1
  | .faultHeld => 2
  | .tag => 3
  | .preempted => 4
  | .restore => 5

/-- A command as it stands when its slot is taken. -/
def newCmd (k opcode order : Nat) : Cmd where
  key := k
  opcode := opcode
  order := order
  admittedAt := 0
  stage := .checking
  clamps := []
  steps := 0
  stepsPlanned := 0
  startEpoch := 0
  cfgEpoch := none
  placedAt := none
  atRisk := false
  missed := false
  poison := false
  conflict := false
  stop := none
  raised := false
  preempting := false
  reported := 0
  span := 0
  slack := none
  result := 0
  lastInterim := none
  lastStatus := 0
  holds := []
  parts := []
  backs := []
  maskedRows := 0
  packTable := []
  slotted := []
  unrestored := []
  revived := []
  farSeen := []
  rows := 0
  guarded := 0
  poisonRows := 0
  poisonUnits := []
  cursors := []
  moved := 0
  skipped := 0
  applied := 0
  stale := 0
  ringSeq := none
  digest := 0
  round := 0
  ringWaits := []
  abortFault := false
  ready := false

/-- A command past its checks is admitted: counted, stamped, its interim status written, and carried out unless the scheduler must
place it first. A deadline already past is missed at admission (R307, R311, R319, R344). -/
def admitChecked (d : OpDef) (k : Nat) (clamps : List ClampEntry) (s : State) : State :=
  let s := advanceReclaim s
  let s := updCmd s k (fun c =>
    { c with stage := .queued, clamps := clamps, admittedAt := s.now, startEpoch := s.pgk.epoch })
  let s := interim { s with host := { s.host with admitted := satCount s.host.admitted 1 } } k
  if isLate s k then
    let s := recordMiss s k 0
    if (slotAt s k).getLsbD 48 then endCmd s k 0x22 {}
    else if d.placed then s else runBody d k s
  else if d.placed then s
  else runBody d k s

/-- Steps 6 to 9 (R319). A fault of an acceptance check makes the command wait, still unadmitted. -/
def runCheck (d : OpDef) (k : Nat) (s : State) : State :=
  match (d.check k).run s with
  | .ok clamps s' => admitChecked d k clamps s'
  | .error (.reject r) s' => rejectCmd (if r.keep then s' else s) k r
  | .error (.abort code) s' => endCmd s' k code {}
  | .error (.fault f) _ => faultCmd s k .checking f
  | .error (.park st) s' => updCmd s' k (fun c => { c with stage := st })

/-- A wake requested for clusters, and for the die-common domains when they are off; `full` where it leaves K4 even with no cluster to bring
to K0 (R393, R394). -/
def requestWake (s : State) (cs : BitVec 32) (full : Bool) : State :=
  let up := full || decide (cs ≠ 0)
  { s with pwr := { s.pwr with
      waking := s.pwr.waking ||| cs
      wakeDevice := s.pwr.wakeDevice || decide (s.pwr.device = 5) || (decide (s.pwr.device = 4) && up)
      wakeFull := s.pwr.wakeFull || (decide (s.pwr.device ≥ 4) && up) } }

/-- The entries a wake reverses: of the clusters it names, and of the device (R393). -/
def reverseEntries (s : State) (cs : BitVec 32) (device : Bool) : State :=
  { s with pwr := { s.pwr with
      entering := s.pwr.entering.filter (fun e => if e.1 = 32 then !device else !cs.getLsbD e.1) } }

/-- A wake begun: entries reverse and the die-common domains come up with the clusters. -/
def beginWake (s : State) (cs : BitVec 32) (full : Bool) : State := requestWake (reverseEntries s cs true) cs full

/-- Opcodes of the island class (R394). -/
def islandClass (op : Nat) : Bool :=
  op ∈ [0x0A05, 0x0101, 0x0104, 0x0102, 0x0A03, 0x0801, 0x0802, 0x0601, 0x0602, 0x0603, 0x0705]

/-- The clusters that sleep and that a command of the cluster class needs before the scheduler places any (R394; log 59): that of the stream a
STREAM_HALT names, every one for FW_HANDOVER and a draining CFG_COMMIT. -/
def wakeClusters (s : State) (k op : Nat) : BitVec 32 :=
  let p := slotAt s k
  let needs (g : Nat) : Bool :=
    match op with
    | 0x0403 => g == param p 0 64 / 2 ^ 30 % 32
    | 0x0703 => true
    | 0x0103 => paramBit p 0 0 && !paramBit p 0 2
    | _ => false
  ((List.range 32).filter (fun g => needs g && (clusterPower s g).powered && !clusterFenced s g && clusterAsleep s g)).foldl
    (fun (m : BitVec 32) g => m ||| (1#32 <<< g)) 0

/-- Whether what a command needs is off, so that it first wakes it (R394). -/
def mustWake (s : State) (k op : Nat) : Bool := (!dieCommonOn s && !islandClass op) || wakeClusters s k op != 0

/-- The checks of steps 1 and 2. -/
def earlyCheck (s : State) (k : Nat) : Option Reject :=
  match headerCheck (slotAt s k) with
  | some r => some r
  | none => portCheck s (portOf k) (slotAt s k)

/-- Steps 4 and 5. -/
def lateCheck (d : OpDef) (s : State) (k : Nat) : Option Reject :=
  let p := slotAt s k
  let e := (opcodeTable.find? (fun e => e.1 == slotBits p 0 16)).getD (0, 0, 0)
  match sessionCheck s (portOf k) p e.2.1 with
  | some r => some r
  | none => longCheck (portOf k) p e.2.2 (d.need p)

/-- A slot past steps 1 to 3 is taken: a command record, then steps 4 to 9. A command first wakes what it needs
(R394). -/
def takeSlot (d : OpDef) (k : Nat) (s : State) : State :=
  match lateCheck d s k with
  | some r => rejectCmd s k r
  | none =>
    let c := newCmd k (slotBits (slotAt s k) 0 16) s.admitSeq
    let s := { s with admitSeq := s.admitSeq + 1, cmds := s.cmds ++ [c] }
    if mustWake s k c.opcode then beginWake s (wakeClusters s k c.opcode) false else runCheck d k s

/-- Whether a handover that waits could be admitted now: a later one then queues behind it (R310). -/
def queueReady (s : State) : Bool :=
  s.host.handovers.any (fun k => gate s.dev (slotBits (slotAt s k) 0 16) == .accept)

/-- Whether nothing answers the slots: in RESTARTING, and while the scheduler core is down in FW_HALT (R322, R373). -/
def nothingAnswers (s : State) : Bool := s.dev == .restarting || (s.dev == .fwHalt && !procRunning s 2)

/-- A slot just handed over reaches the scheduler core, or the security core in LOAD and STARTING (R305, R319, R322). -/
def arrive (d : OpDef) (k : Nat) (s : State) : State :=
  let wait := { s with host := { s.host with handovers := s.host.handovers ++ [k] } }
  if nothingAnswers s then wait
  else if queueReady s then wait
  else
    match earlyCheck s k with
    | some r => rejectCmd s k r
    | none =>
      match gate s.dev (slotBits (slotAt s k) 0 16) with
      | .busy => rejectCmd s k busyReject
      | .wait => wait
      | .accept => takeSlot d k s

/-- The handover write of hdr (R310): discarded in a firmware-owned slot, else stored and the slot handed over. `force` puts the row's own
opcode and form into the contents. -/
def handover (d : OpDef) (force : SlotWord → SlotWord) (p : Port) (n : Nat) (hdr : BitVec 64) (s : State) : State :=
  match slotKey p n with
  | none => s
  | some k =>
    if p = .debug ∧ s.host.debugUnlocked = false then s
    else if slotOwned s k then discardWrite s
    else arrive d k (setSlot s k (force (setBits (setBits (slotAt s k) 0 64 hdr.toNat) 63 1 1)))

/-- The header's opcode field set (R309). -/
def forceOpcode (op : Nat) (p : SlotWord) : SlotWord := setBits p 0 16 op

/-- Bits of the parameter area set. -/
def forceParam (o b w v : Nat) (p : SlotWord) : SlotWord := setBits p (8 * (0x40 + o) + b) w v

/-- A ready command carried on: its checks again, or its body again (R249). -/
def carryOn (d : OpDef) (k : Nat) (s : State) : State :=
  match cmdOf s k with
  | none => s
  | some c =>
    let s := updCmd s k (fun c => { c with ready := false })
    if c.abortFault then endCmd s k 0x20 {}
    else match c.stage with
      | .checking => runCheck d k s
      | _ => runBody d k s

/-- Every command that waits for host memory and no longer has to is marked (R351, R353); a PLAN_LOAD waits with its checks, since
a plan report is a long reply (R213). -/
def releaseHost (s : State) : State :=
  { s with cmds := s.cmds.map (fun c =>
      if (c.stage == .waitHost || (c.stage == .checking && decide (c.opcode = 0x0305))) && !hostHeld s c.key then
        { c with ready := true } else c) }

end Sys2Proof.Machine
end

