-- ==== Sys2Proof/Machine/Configuration.lean ====
section
/-! DEFINITION. The configuration commands: CFG_READ, CFG_WRITE, CFG_COMMIT and CFG_STATUS (spec/12_host_interface.md R326 to R329,
spec/13_scheduling.md R345 to R349). -/
namespace Sys2Proof.Machine

/-- Rejected naming a field of the entry `i` of a list in the parameter area. -/
def rejectItem {α : Type} (locator i check hi lo found limit : Nat) : Act α :=
  throw (.reject { code := 0x10, locator := locator, check := check, hi := hi, lo := lo, item := i, found := found,
                   limit := limit })

/-- The staging area of a port (R321). -/
def staging (s : State) : Port → Table Nat
  | .host => s.cfg.stagedHost
  | .mgmt => s.cfg.stagedMgmt
  | .debug => []

/-- The staging area of a port replaced. -/
def setStaging (s : State) (p : Port) (t : Table Nat) : State :=
  match p with
  | .host => { s with cfg := { s.cfg with stagedHost := t } }
  | .mgmt => { s with cfg := { s.cfg with stagedMgmt := t } }
  | .debug => s

/-- A value in effect after a port's staging (R327). -/
def stagedVal (staged committed : Table Nat) (id inst : Nat) : Nat :=
  match tget 0 staged (fieldKey id inst) with
  | 0 => fieldIn committed id inst
  | v + 1 => v

/-- The instance whose value a dependent bound uses: the field's own die for a per-die field. -/
def otherVal (staged committed : Table Nat) (inst id : Nat) : Nat :=
  match fieldInfo id with
  | some f => stagedVal staged committed id (if f.perDie then inst else 0)
  | none => 0

/-- The clamp entry of a configuration value (R328). -/
def cfgClamp (id inst reason requested applied : Nat) : ClampEntry :=
  ⟨configLoc id inst, reason, 63, 0, requested, applied⟩

/-- The count, its reserved bits and the entries above it (R326, R329): `gap` is the reserved width after the fields of offset 0. -/
def checkCount (p : SlotWord) : Act Nat := do
  let n := param p 0 8
  checkRange 0 0 8 n 1 11
  return n

/-- An entry at or above count must be 0 (R326). -/
def checkEmptyEntry (p : SlotWord) (i : Nat) : Act Unit := do
  for o in [8 + 16 * i, 16 + 16 * i] do
    let v := param p o 64
    if v ≠ 0 then rejectItem (paramLoc o) i 3 63 0 v 0

/-- The field and instance of an entry (R325, R326). -/
def checkEntryName (p : SlotWord) (i : Nat) (allDies : Bool) : Act (Nat × Nat) := do
  let o := 8 + 16 * i
  let id := param p o 16
  let inst := param p (o + 2) 8
  match fieldInfo id with
  | none => rejectItem (paramLoc o) i 6 15 0 id 0
  | some f =>
    let ok := if f.perDie then decide (inst < 8) || (allDies && inst == 0xFF) else inst == 0
    if !ok then rejectItem (paramLoc o) i 1 23 16 inst (if f.perDie then 7 else 0)
    else
      let rsv := slotBits p (8 * (0x40 + o) + 24) 40
      if rsv ≠ 0 then rejectItem (paramLoc o) i 8 63 24 rsv 0
      else return (id, inst)

/-! ### CFG_READ (R329) -/

/-- The entries of a CFG_READ reply. -/
def readEntries (s : State) (port : Port) (p : SlotWord) (n : Nat) : List Byte :=
  (List.range n).flatMap (fun i =>
    let id := param p (8 + 16 * i) 16
    let inst := param p (10 + 16 * i) 8
    let st := if param p 1 8 = 1 then tget 0 (staging s port) (fieldKey id inst) else 0
    let v := if st = 0 then cfgVal s id inst else st - 1
    natBytes 8 (id + inst * 65536 + (if st = 0 then 0 else 2 ^ 24)) ++ natBytes 8 v)

/-- CFG_READ (R329). -/
def cfgReadDef : OpDef where
  check k := do
    let p := slotAt (← get) k
    let n ← checkCount p
    checkParam (decide (param p 1 8 ≤ 1)) 1 0 8 6 (param p 1 8) 1
    reservedParam p 2 0 48
    for i in List.range 11 do
      if i < n then
        let _ ← checkEntryName p i false
        let v := param p (16 + 16 * i) 64
        if v ≠ 0 then rejectItem (paramLoc (16 + 16 * i)) i 1 63 0 v 0
      else checkEmptyEntry p i
    reservedFrom p 0xB8
    return []
  body k := do
    let s ← get
    let p := slotAt s k
    let n := param p 0 8
    return { kind := 4, count := n, detail := readEntries s (portOf k) p n }

/-! ### CFG_WRITE (R326, R327) -/

/-- One value taken into a staging area: the area, and the clamp it met. -/
def stageValue (committed : Table Nat) (i id inst v : Nat) (staged : Table Nat) : Act (Table Nat × List ClampEntry) :=
  match checkField id (otherVal staged committed inst) (fieldIn committed id inst) v with
  | .refuse check limit => rejectItem (configLoc id inst) i check 63 0 v limit
  | .accept a reason =>
    pure (fieldSet staged id inst a, if reason = 0 then [] else [cfgClamp id inst reason v a])

/-- Every entry of a CFG_WRITE checked in order: the new staging area, the clamps and the number of values. -/
def stageEntries (p : SlotWord) (n : Nat) (committed staged : Table Nat) : Act (Table Nat × List ClampEntry × Nat) := do
  let mut st := staged
  let mut cl : List ClampEntry := []
  let mut m := 0
  for i in List.range 11 do
    if i < n then
      let (id, inst) ← checkEntryName p i true
      let v := param p (16 + 16 * i) 64
      for d in (if inst = 0xFF then List.range 8 else [inst]) do
        let (st', c) ← stageValue committed i id d v st
        st := st'
        cl := cl ++ c
        m := m + 1
    else checkEmptyEntry p i
  return (st, cl, m)

/-- CFG_WRITE (R326). The whole clamp report also goes to the long reply (R328). -/
def cfgWriteDef : OpDef where
  check k := do
    let s ← get
    let p := slotAt s k
    let n ← checkCount p
    reservedParam p 1 0 56
    let (_, cl, _) ← stageEntries p n s.cfg.committed (staging s (portOf k))
    reservedFrom p 0xB8
    return cl
  body k := do
    let s ← get
    let p := slotAt s k
    let (st, cl, m) ← stageEntries p (param p 0 8) s.cfg.committed (staging s (portOf k))
    modify (fun s => setStaging s (portOf k) st)
    let r : Reply := { result := BitVec.ofNat 64 (m + 65536 * cl.length) }
    if cl.isEmpty ∨ hdrField p 0x10 64 = 0 then return r
    else
      let ((n, t), s) := longReply (← get) k (cl.flatMap clampBytes)
      set s
      return { r with
        longWritten := n, trunc := t && decide (cl.length > 8), kind := 2, count := min cl.length 8,
        detail := (cl.take 8).flatMap clampBytes }

/-! ### CFG_COMMIT (R347, R348) -/

/-- Whether a command holds a cluster, an update unit or a pin (R348). -/
def holdsDevice (c : Cmd) : Bool := c.placedAt.isSome || c.holds.any (fun h => !h.pins.isEmpty)

/-- The device is quiescent, leaving out one command: every other unfinished command is unplaced and holds no pin, and no translation
fault is pending (R348). -/
def quiescent (s : State) (k : Nat) : Bool :=
  s.cmds.all (fun c => c.key == k || !holdsDevice c) && (allPendings s).isEmpty

/-- Whether a running queue's stream is a standalone one: its command holds no cluster (R214). -/
def standalone (s : State) (q : Queue) : Bool := (cmdOf s q.key).all (fun c => c.holds.isEmpty)

/-- Whether a standalone stream is RUNNING, PARKED or FAULTED. -/
def anyStream (s : State) : Bool :=
  s.str.queues.any (fun q => q.2.state ≠ .free && (q.2.state == .parked || standalone s q.2))

/-- The values of a staging area checked against each other (R347 step 5): the values to commit and the new clamps. -/
def recheck (committed staged : Table Nat) : Table Nat × List ClampEntry :=
  staged.foldl (fun (acc : Table Nat × List ClampEntry) e =>
    let id := e.1 / 256
    let inst := e.1 % 256
    let v := e.2 - 1
    match checkField id (otherVal acc.1 committed inst) (fieldIn committed id inst) v with
    | .accept a reason =>
      (fieldSet acc.1 id inst a, if reason = 0 then acc.2 else acc.2 ++ [cfgClamp id inst reason v a])
    | .refuse _ _ => acc) (staged, [])

/-- Each commit of a ring group's fields restarts its ring sequence at 0 (R297). -/
def restartRings (vals : Table Nat) (seqs : Table (BitVec 16)) : Table (BitVec 16) :=
  let hit (g : Nat) : Bool := vals.any (fun e => e.1 / 256 == 0x7001 + g || e.1 / 256 == 0x7005 + g)
  seqs.filter (fun e => !hit e.1)

/-- Values committed in one step: the epoch advances by 1, and the values of four epochs are kept (R345, R347 step 6). -/
def commitValues (s : State) (vals : Table Nat) : State :=
  let committed := vals.foldl (fun t e => tset 0 t e.1 e.2) s.cfg.committed
  let e := s.cfg.epoch + 1
  { s with
    cfg := { s.cfg with committed := committed, epoch := e, history := ((e, committed) :: s.cfg.history).take 4 }
    ktl := { s.ktl with ringSeq := restartRings vals s.ktl.ringSeq } }

/-- The commit of a port's staging area (R347): the state and the result of the command, with the clamps it met. -/
def commitStaging (s : State) (port : Port) : State × BitVec 64 × List ClampEntry :=
  let (vals, cl) := recheck s.cfg.committed (staging s port)
  let old := s.cfg.epoch
  let s := setStaging (commitValues s vals) port []
  (s, BitVec.ofNat 64 (s.cfg.epoch.toNat + 256 * old.toNat + 65536 * vals.length + 2 ^ 32 * cl.length), cl)

/-- The result of a CFG_COMMIT that commits nothing. -/
def nothingCommitted (s : State) : BitVec 64 := BitVec.ofNat 64 (257 * s.cfg.epoch.toNat)

/-- The first staged class C field (R347 step 3). -/
def stagedClassC (t : Table Nat) : Option Nat :=
  (t.find? (fun e => match fieldInfo (e.1 / 256) with
    | some f => f.cls == .c
    | none => false)).map (·.1)

/-- Steps 2 to 4 of R347. -/
def checkCommitBusy (s : State) (k : Nat) (drain : Bool) : Act Unit := do
  let st := staging s (portOf k)
  if epochAge s (oldestEpoch s) ≥ 3 then throw (.reject busyReject)
  match stagedClassC st with
  | some e =>
    if !drain && !quiescent s k then
      throw (.reject { code := 0x12, locator := configLoc (e / 256) (e % 256), hi := 63, found := tget 0 st e - 1 })
  | none => pure ()
  if drain && anyStream s then throw (.reject busyReject)

/-- A completed commit reported, after WAIT's condition (R347). -/
def finishCommit (k : Nat) : Act Reply := do
  let port := portOf k
  let (s, res, cl) := commitStaging (← get) port
  let s := updCmd s k (fun c => { c with result := res, clamps := c.clamps ++ cl })
  set s
  if paramBit (slotAt s k) 0 1 && oldestEpoch s ≠ s.cfg.epoch then
    modify (fun s => refreshInterim (updCmd s k (fun c => { c with stage := .waitEpoch })) k)
    throw (.park .waitEpoch)
  else return { result := res }

/-- CFG_COMMIT (R347). -/
def cfgCommitDef : OpDef where
  check k := do
    let s ← get
    let p := slotAt s k
    let discard := paramBit p 0 2
    checkParam (!(discard && paramBit p 0 0)) 0 0 1 6 1 0
    checkParam (!(discard && paramBit p 0 1)) 0 1 1 6 1 0
    reservedParam p 0 3 13
    reservedParam p 2 0 48
    reservedFrom p 8
    if discard || (staging s (portOf k)).isEmpty then return []
    checkCommitBusy s k (paramBit p 0 0)
    return []
  body k := do
    let s ← get
    let p := slotAt s k
    if paramBit p 0 2 then
      set (setStaging s (portOf k) [])
      return { result := nothingCommitted s }
    else if (staging s (portOf k)).isEmpty then return { result := nothingCommitted s }
    else if paramBit p 0 0 then
      let s := updCmd { s with dev := .draining } k (fun c => { c with stage := .draining })
      set (refreshInterim s k)
      throw (.park .draining)
    else finishCommit k

/-- The CFG_COMMIT that a drain belongs to (R348). -/
def drainingCommit (s : State) : Option Cmd := s.cmds.find? (fun c => c.stage == .draining && c.opcode == 0x0103)

/-- The device quiescent during a drain: the staged values are applied, every cluster takes the new epoch, the state returns to READY
(R348). -/
def drainQuiescent (s : State) : State :=
  match drainingCommit s with
  | none => s
  | some c =>
    if s.dev = .draining ∧ quiescent s c.key then
      match (finishCommit c.key).run { s with dev := .ready } with
      | .ok r s' => completeCmd s' c.key r
      | .error _ s' => s'
    else s

/-- WAIT commits whose epoch is in force on every cluster complete (R347). -/
def settleEpochs (s : State) : State :=
  s.cmds.foldl (fun s c =>
    if c.stage == .waitEpoch && decide (epochAge s (oldestEpoch s) ≤ epochAge s (BitVec.ofNat 8 c.result.toNat)) then
      completeCmd s c.key { result := c.result }
    else s) s

/-! ### CFG_STATUS (R349) -/

/-- CFG_STATUS select 4 (R349). -/
def epochSummary (s : State) (port : Port) : Nat :=
  s.cfg.epoch.toNat + 256 * (oldestEpoch s).toNat + 65536 * min (staging s port).length 255 +
    2 ^ 24 * bit (s.dev == .draining && (drainingCommit s).isSome) +
    2 ^ 25 * bit (s.cmds.any (fun c => c.opcode == 0x0103 && paramBit (slotAt s c.key) 0 1 && c.stage ≠ .checking)) +
    2 ^ 32 * min s.cfg.overLimit 0xFFFF

/-- CFG_STATUS (R349). -/
def cfgStatusDef : OpDef where
  check k := do
    let p := slotAt (← get) k
    checkParam (decide (param p 0 8 ≤ 4)) 0 0 8 6 (param p 0 8) 4
    reservedParam p 1 0 56
    reservedFrom p 8
    return []
  body k := do
    let s ← get
    let sel := param (slotAt s k) 0 8
    if sel < 4 then
      let bs := (List.range 8).map (fun i => clusterEpoch s (8 * sel + i))
      return { result := BitVec.ofNat 64 (bytesNat bs) }
    else return { result := BitVec.ofNat 64 (epochSummary s (portOf k)) }

end Sys2Proof.Machine
end

