-- ==== Sys2Proof/Machine/Errors.lean ====
section
/-! DEFINITION. Error commands (spec/16_errors.md R419 to R422). -/
namespace Sys2Proof.Machine

/-- The records ERR_FETCH copies: the oldest unfetched ones, in serial order (R420). -/
def fetchRecords (s : State) (n : Nat) : List ErrRecord := (s.ras.store.filter (fun r => !r.fetched)).take n

/-- Whether any source an entry covers is fenced (R421). -/
def entryFenced (s : State) (i : Nat) : Bool :=
  s.ras.fenced.any (fun f => errEntry f == i) || (decide (i ≥ 100 ∧ i < 135) && (procOf s (i - 100)).state == .fenced)

/-- One entry of the error counter block (R421). -/
def counterEntry (s : State) (i : Nat) : List Byte :=
  let e := tget ErrCount.reset s.ras.counts i
  natBytes 16 (e.corrected + 2 ^ 31 * bit e.ovfCorrected + 2 ^ 32 * e.deferred + 2 ^ 63 * bit e.ovfDeferred +
    2 ^ 64 * e.contained + 2 ^ 95 * bit e.ovfContained + 2 ^ 127 * bit (entryFenced s i))

/-- The error counter block (R421). -/
def errBlock (s : State) : List Byte :=
  natBytes 8 s.now ++ natBytes 2 s.ras.store.length ++ natBytes 2 (s.ras.store.filter (fun r => !r.fetched)).length ++
    natBytes 4 (min s.ras.lost 0xFFFFFFFF) ++ natBytes 4 s.ras.fatals ++ natBytes 44 0 ++
    (List.range 136).flatMap (counterEntry s)

/-- Records marked fetched. -/
def markFetched (s : State) (rs : List ErrRecord) : State :=
  { s with ras := { s.ras with store := s.ras.store.map (fun r =>
      if rs.any (fun x => x.serial == r.serial) then { r with fetched := true } else r) } }

/-- The result of ERR_FETCH after `n` records were marked fetched (R420). -/
def fetchResult (s : State) (n : Nat) : Nat :=
  n + 2 ^ 16 * (s.ras.store.filter (fun r => !r.fetched)).length + 2 ^ 32 * min s.ras.lost 0xFFFF +
    2 ^ 63 * bit (s.ras.store.any (fun r => r.severity == 3))

/-- ERR_FETCH (R420, R421). -/
def errFetchDef : OpDef where
  need p := if paramBit p 2 0 then 2240 else 64 * param p 0 16
  check k := do
    let p := slotAt (← get) k
    let n := param p 0 16
    let c := paramBit p 2 0
    checkRange 0 0 16 n (bit (!c)) (if c then 0 else 1024)
    reservedParam p 2 1 7
    reservedParam p 3 0 40
    reservedFrom p 8
    return []
  body k := do
    let s ← get
    let p := slotAt s k
    if paramBit p 2 0 then longAct k (errBlock s) {}
    else
      let rs := fetchRecords s (param p 0 16)
      let s := markFetched s rs
      set s
      let r ← longAct k (rs.flatMap errBytes) {}
      return { r with result := BitVec.ofNat 64 (fetchResult s rs.length) }

/-- ERR_CLEAR (R422). -/
def errClearDef : OpDef where
  check k := do
    let p := slotAt (← get) k
    reservedParam p 0 48 16
    reservedParam p 8 2 6
    reservedParam p 9 0 56
    reservedFrom p 16
    return []
  body k := do
    let s ← get
    let p := slotAt s k
    let upto := param p 0 48
    let keep := s.ras.store.filter (fun r => !(r.fetched && decide (r.serial ≤ upto)))
    let n := s.ras.store.length - keep.length
    let ras := { s.ras with store := keep }
    let ras := if paramBit p 8 0 then { ras with counts := [] } else ras
    let ras := if paramBit p 8 1 then { ras with lost := 0 } else ras
    set { s with ras := ras }
    return { result := BitVec.ofNat 64 n }

end Sys2Proof.Machine
end

