-- ==== Sys2Proof/Machine/Pages.lean ====
section
/-! DEFINITION. KV pages: headers, pools, references, pins, quarantine, drops, moves, radix nodes and sequence descriptors
(spec/05_kv_pages.md R102 to R128, spec/06_prefix_sharing.md R152, R153). -/
namespace Sys2Proof.Machine

/-! ### Page headers (R108) -/

/-- A page header's fields (R108). `dropHi` is bits [31:16] of q_epoch. -/
structure PageHdr where
  gen : Nat
  refcount : Nat
  pin : Nat
  poison : Bool
  restoring : Bool
  moving : Bool
  tier : Nat
  state : Nat
  frame : Nat
  touch : Nat
  writerSeq : Nat
  layer : Nat
  kvHead : Nat
  tppLog2 : Nat
  fmt : Nat
  firstPos : Nat
  qEpoch : Nat
  reason : Nat
  dropHi : Nat
  valid : Nat
  deriving DecidableEq, Repr

/-- The ctl word of a header (R108). -/
def hdrCtl (h : PageHdr) : Nat :=
  h.state + h.tier * 16 + bit h.moving * 32 + bit h.restoring * 64 + bit h.poison * 128 + h.pin % 65536 * 256 +
    h.refcount % 2 ^ 24 * 2 ^ 24 + h.gen % 65536 * 2 ^ 48

/-- The 64 bytes of a header (R108). -/
def hdrBytes (h : PageHdr) : List Byte :=
  natBytes 8 (hdrCtl h) ++ natBytes 4 h.frame ++ natBytes 4 h.touch ++ natBytes 2 h.writerSeq ++ natBytes 2 h.layer ++
    natBytes 1 h.kvHead ++ natBytes 1 h.tppLog2 ++ natBytes 2 h.fmt ++ natBytes 4 h.firstPos ++
    natBytes 4 (h.qEpoch % 256 + h.reason * 256 + h.dropHi % 65536 * 65536) ++ natBytes 32 h.valid

/-- A header read from its 64 bytes. -/
def hdrOf (bs : List Byte) : PageHdr :=
  let f (o n : Nat) : Nat := bytesNat ((bs.drop o).take n)
  let c := f 0 8
  let q := f 0x1C 4
  { gen := c / 2 ^ 48 % 65536
    refcount := c / 2 ^ 24 % 2 ^ 24
    pin := c / 256 % 65536
    poison := c.testBit 7
    restoring := c.testBit 6
    moving := c.testBit 5
    tier := c / 16 % 2
    state := c % 8
    frame := f 8 4
    touch := f 0xC 4
    writerSeq := f 0x10 2
    layer := f 0x12 2
    kvHead := f 0x14 1
    tppLog2 := f 0x15 1
    fmt := f 0x16 2
    firstPos := f 0x18 4 % 2 ^ 26
    qEpoch := q % 256
    reason := q / 256 % 256
    dropHi := q / 65536
    valid := f 0x20 32 }

/-- The die slice and the index of a page, node or spine node number (R103). -/
def numDie (n : Nat) : Nat := n / 2 ^ 29 % 8
def numIdx (n : Nat) : Nat := n % 2 ^ 29

/-- The number of an object of a die. -/
def mkNum (die idx : Nat) : Nat := die * 2 ^ 29 + idx

/-- Units of 65,536 ticks (R108). -/
def touchNow (s : State) : Nat := s.now / 65536 % 2 ^ 32

/-- An access of the page keeper of a die, for a command. -/
def ofDie (w : Who) (d : Nat) : Who := { w with die := d }

/-- The address of a page's header (R102). -/
def hdrVa (s : State) (page : Nat) : Nat := cfgVal s 0x1010 (numDie page) + numIdx page * 64

/-- A page's header read. -/
def readHdr (w : Who) (page : Nat) : Act PageHdr := do
  let bs ← poolRead (ofDie w (numDie page)) (hdrVa (← get) page) 64 0
  return hdrOf bs

/-- A page's header written. -/
def writeHdr (w : Who) (page : Nat) (h : PageHdr) : Act Unit := do
  poolWrite (ofDie w (numDie page)) (hdrVa (← get) page) (hdrBytes h)

/-- An illegal request: recorded, and the command that made it ends (R110). -/
def pageIllegal {α : Type} (w : Who) (page req ctl : Nat) : Act α := do
  reportAct { cause := 0x12, source := pgkSource (numDie page), key := w.key, cluster := w.cluster, addr := page, info0 := req,
              info1 := ctl }
  abortWith 0x20

/-- A header read for a request: a reserved state is illegal (R110). -/
def legalHdr (w : Who) (page : Nat) : Act PageHdr := do
  let h ← readHdr w page
  if h.state ≥ 6 then pageIllegal w page 7 (hdrCtl h) else return h

/-! ### Pools (R102, R427) -/

/-- The pools of a die. -/
def poolsOf (s : State) (d : Nat) : Pools := tget Pools.reset s.pgk.pools d

/-- The pools of a die changed. -/
def updPools (s : State) (d : Nat) (f : Pools → Pools) : State :=
  { s with pgk := { s.pgk with pools := tset Pools.reset s.pgk.pools d (f (poolsOf s d)) } }

/-- The lowest free index of a pool with `n` objects, none when all are used (R427). -/
def freeIn (used : List Nat) (n : Nat) : Option Nat :=
  let i := lowestFree 0 used
  if i < n then some i else none

/-- A free page header of a die. -/
def freeHeader (s : State) (d : Nat) : Option Nat := freeIn (poolsOf s d).headers (cfgVal s 0x1011 d)

/-- A free near frame of a die. -/
def freeNear (s : State) (d : Nat) : Option Nat := freeIn (poolsOf s d).near (cfgVal s 0x1016 d)

/-- A free node of a die's node pool. -/
def freeNode (s : State) (d : Nat) : Option Nat := freeIn (poolsOf s d).nodes (cfgVal s 0x1013 d)

/-- The physical address of a pool address as a walk of the tables would find it, without effect on counters or caches. -/
def peekPool (s : State) (d va : Nat) : Option Nat :=
  match (xlateOwn { die := d } (poolAsid s) va 1 s).1 with
  | .ok pa => some pa
  | .error _ => none

/-- The far module a far frame lies on (R239). -/
def frameModule (s : State) (d f : Nat) : Option Nat :=
  match peekPool s d (cfgVal s 0x1017 d + f * 32768) with
  | some pa => match regionOf pa with
    | .far m => some m
    | _ => none
  | none => none

/-- Far frames of a die that may be given out: those not gone with a module and not on one that is EVACUATING (R128, R239). -/
def farUsable (s : State) (d f : Nat) : Bool :=
  !(poolsOf s d).farGone.contains (f / 1024) &&
    (match frameModule s d f with
     | some m => (farModule s m).state ≠ 2
     | none => true)

/-- The lowest free far frame from an index on, looking at no more groups of 1,024 than the pool has (R427). -/
def freeFarFrom (s : State) (d n : Nat) : Nat → Nat → Option Nat
  | 0, _ => none
  | fuel + 1, i =>
    let i := lowestFree i ((poolsOf s d).far.filter (fun x => decide (x ≥ i)))
    if i ≥ n then none
    else if farUsable s d i then some i
    else freeFarFrom s d n fuel ((i / 1024 + 1) * 1024)

/-- A free far frame of a die (R427). -/
def freeFar (s : State) (d : Nat) : Option Nat :=
  let n := scopeVal s 0x1019 d
  freeFarFrom s d n (n / 1024 + 1) 0

/-- Used numbers with one given back. -/
def giveBack (n : Nat) (l : List Nat) : List Nat := l.filter (fun x => x ≠ n)

/-- A frame given back to its pool (R427). -/
def returnFrame (s : State) (d tier f : Nat) : State :=
  updPools s d (fun p => if tier = 0 then { p with near := giveBack f p.near } else { p with far := giveBack f p.far })

/-- Free near frames of a die. -/
def nearFree (s : State) (d : Nat) : Nat := cfgVal s 0x1016 d - (poolsOf s d).near.length

/-! ### Page geometry (R105, R106) -/

/-- Tokens per page, as a power of two (R105). -/
def tppLog2 (fmt d : Nat) : Nat := max 4 (min 8 (Nat.log2 (32768 * 8 / (2 * d * elemBits fmt))))

/-- The layout of a page: tokens, bytes of a row, scale bytes of a row (R106). -/
structure PageForm where
  tokens : Nat
  rowBytes : Nat
  scaleRow : Nat
  deriving DecidableEq, Repr

/-- The layout of a page of a format word and head dimension (R106). -/
def pageForm (fcw : BitVec 16) (d tpp : Nat) : PageForm :=
  let f := fcwFmt fcw
  ⟨2 ^ tpp, elemBytes f d, if hasBlocks f then d / blockElems (fcwBlk fcw) * scaleBytes f else 0⟩

/-- The format word of a page's contents and its head dimension (R108). -/
def hdrFcw (h : PageHdr) : BitVec 16 := BitVec.ofNat 16 (h.fmt % 8192)
def hdrDim (h : PageHdr) : Nat := if h.fmt.testBit 13 then 128 else 64

/-- The retention class of a page (R108, R122). -/
def hdrRetain (h : PageHdr) : Nat := h.fmt / 16384

/-- The layout of a page from its header. -/
def hdrForm (h : PageHdr) : PageForm := pageForm (hdrFcw h) (hdrDim h) h.tppLog2

/-- The address of a data frame and of a scale frame (R102). -/
def dataVa (s : State) (d tier f : Nat) : Nat := cfgVal s (if tier = 0 then 0x1014 else 0x1017) d + f * 32768
def scaleVa (s : State) (d tier f : Nat) : Nat := cfgVal s (if tier = 0 then 0x1015 else 0x1018) d + f * 4096

/-- A run of the pool read with its poison, which is data here and ends nothing. -/
def poolData (w : Who) (va n : Nat) : Act (List (Byte × Bool)) := do
  if dieFenced (← get) w.die then abortWith 0x20
  else
    let (r, s) := poolXlate w va 1 (← get)
    set s
    match r with
    | none => abortWith 0x20
    | some pa => physReadAct w pa n

/-- Runs of bytes with one poison mark, with their offsets. -/
def poisonRuns : Nat → List (Byte × Bool) → List (Nat × List Byte × Bool)
  | _, [] => []
  | o, x :: r =>
    match poisonRuns (o + 1) r with
    | (o', bs, p) :: rest => if p = x.2 then (o, x.1 :: bs, p) :: rest else (o, [x.1], x.2) :: (o', bs, p) :: rest
    | [] => [(o, [x.1], x.2)]

/-- Bytes written to the pool with their poison. -/
def poolStore (w : Who) (va : Nat) (bs : List (Byte × Bool)) : Act Unit := do
  if dieFenced (← get) w.die then abortWith 0x20
  else
    let (r, s) := poolXlate w va 2 (← get)
    set s
    match r with
    | none => abortWith 0x20
    | some pa =>
      for e in poisonRuns 0 bs do
        modify (fun s => physWrite w (pa + e.1) e.2.1 e.2.2 s)

/-- The used parts of a page's frames copied (R106, R123, R149). -/
def copyFrames (w : Who) (form : PageForm) (fromD fromT fromF toD toT toF : Nat) : Act Unit := do
  let s ← get
  let data ← poolData (ofDie w fromD) (dataVa s fromD fromT fromF) (2 * form.tokens * form.rowBytes)
  poolStore (ofDie w toD) (dataVa s toD toT toF) data
  if form.scaleRow ≠ 0 then
    let sc ← poolData (ofDie w fromD) (scaleVa s fromD fromT fromF) (2 * form.tokens * form.scaleRow)
    poolStore (ofDie w toD) (scaleVa s toD toT toF) sc

/-! ### Sequence descriptors (R112) -/

/-- The fields of a sequence descriptor (R112); the waymark list is apart. -/
structure SeqDesc where
  state : Nat
  homeDie : Nat
  kvHeads : Nat
  hd : Nat
  layers : Nat
  fmtKv : Nat
  tppLog2 : Nat
  depth : Nat
  retain : Nat
  waymarkCount : Nat
  session : Nat
  flags : Nat
  length : Nat
  mapped : Nat
  dirRoot : Nat
  dropped : Nat
  recipeBase : Nat
  created : Nat
  deriving DecidableEq, Repr

/-- The first 256 bytes of a descriptor (R112). -/
def seqBytes (q : SeqDesc) : List Byte :=
  natBytes 1 q.state ++ natBytes 1 q.homeDie ++ natBytes 1 q.kvHeads ++ natBytes 1 q.hd ++ natBytes 2 q.layers ++
    natBytes 2 q.fmtKv ++ natBytes 1 q.tppLog2 ++ natBytes 1 q.depth ++ natBytes 1 q.retain ++ natBytes 1 q.waymarkCount ++
    natBytes 2 q.session ++ natBytes 2 q.flags ++ natBytes 4 (q.length % 2 ^ 27) ++ natBytes 4 q.mapped ++
    natBytes 4 q.dirRoot ++ natBytes 4 q.dropped ++ natBytes 8 q.recipeBase ++ natBytes 8 q.created ++ natBytes 208 0

/-- A descriptor read from its bytes. -/
def seqOf (bs : List Byte) : SeqDesc :=
  let f (o n : Nat) : Nat := bytesNat ((bs.drop o).take n)
  { state := f 0 1
    homeDie := f 1 1
    kvHeads := f 2 1
    hd := f 3 1
    layers := f 4 2
    fmtKv := f 6 2
    tppLog2 := f 8 1
    depth := f 9 1
    retain := f 0xA 1
    waymarkCount := f 0xB 1
    session := f 0xC 2
    flags := f 0xE 2
    length := f 0x10 4 % 2 ^ 27
    mapped := f 0x14 4
    dirRoot := f 0x18 4
    dropped := f 0x1C 4
    recipeBase := f 0x20 8
    created := f 0x28 8 }

/-- The address of a sequence's descriptor (R112). -/
def seqVa (s : State) (n : Nat) : Nat := cfgVal s 0x1001 0 + n * 512

/-- A descriptor read by the page keeper of the accessing die. -/
def readSeq (w : Who) (n : Nat) : Act SeqDesc := do
  let bs ← poolRead w (seqVa (← get) n) 64 0
  return seqOf bs

/-- A descriptor's fields written. -/
def writeSeq (w : Who) (n : Nat) (q : SeqDesc) : Act Unit := do
  poolWrite w (seqVa (← get) n) (seqBytes q)

/-- The waymark list of a descriptor (R112). -/
def readWaymarks (w : Who) (n : Nat) (q : SeqDesc) : Act (List Nat) := do
  let bs ← poolRead w (seqVa (← get) n + 0x100) 256 0
  return (List.range q.waymarkCount).map (fun i => bytesNat ((bs.drop (4 * i)).take 4) % 2 ^ 26)

/-- The waymark list written, unused entries 0. -/
def writeWaymarks (w : Who) (n : Nat) (ws : List Nat) : Act Unit := do
  poolWrite w (seqVa (← get) n + 0x100) ((ws ++ List.replicate (64 - ws.length) 0).flatMap (natBytes 4))

/-- The head dimension of an hd code (R98): 0 is 64, 1 is 128. -/
def dimOf (hd : Nat) : Nat := if hd = 0 then 64 else 128

/-- Bytes of physical memory looked at without an access. -/
def peekBytes (s : State) (pa n : Nat) : List Byte := (s.pmem.reads pa n).map (·.1)

/-- The page keeper that acts on a sequence: that of its home die (R112). -/
def homeWho (s : State) (w : Who) (n : Nat) : Who :=
  ofDie w (match peekPool s 0 (seqVa s n) with
    | some pa => (seqOf (peekBytes s pa 64)).homeDie % 8
    | none => 0)

/-- A drop charged to a sequence, or a charge released, by the page keeper of the sequence's home die (R112). A release to a FREE sequence or
from 0 changes nothing. -/
def chargeSeq (w : Who) (n : Nat) (up : Bool) : Act Unit := do
  let w := homeWho (← get) w n
  let q ← readSeq w n
  if up then writeSeq w n { q with dropped := q.dropped + 1 }
  else if q.state = 1 ∧ q.dropped > 0 then writeSeq w n { q with dropped := q.dropped - 1 }

/-! ### Quarantine (R152) -/

/-- The address of a node (R102). -/
def nodeVa (s : State) (n : Nat) : Nat := cfgVal s 0x1012 (numDie n) + numIdx n * 4096

/-- An object enters quarantine with tag E; a radix or set node takes its link (R152). -/
def quarantine (w : Who) (kind : QuarKind) (n : Nat) : Act Unit := do
  let s ← get
  let e := s.pgk.epoch
  let isNode (q : Quarantined) : Bool := (q.kind == .radixNode || q.kind == .setNode) && numDie q.number == numDie n
  if kind = .radixNode ∨ kind = .setNode then
    match s.pgk.quarantine.reverse.find? isNode with
    | some last => poolWrite (ofDie w (numDie n)) (nodeVa s last.number) (natBytes 4 n)
    | none => pure ()
    poolWrite (ofDie w (numDie n)) (nodeVa s n) (natBytes 4 0xFFFFFFFF ++ natBytes 4 e.toNat)
  modify (fun s => { s with pgk := { s.pgk with
    quarantine := s.pgk.quarantine ++ [⟨kind, n, e⟩]
    sinceAdvance := s.pgk.sinceAdvance + 1 } })

/-! ### Moves (R123) -/

/-- The move of a page in progress. -/
def moveOf (s : State) (page : Nat) : Option Move := s.pgk.moves.find? (fun m => m.page == page && m.started)

/-- The command that a move belongs to counts it (R133). -/
def countMove (s : State) (m : Move) (done : Bool) : State :=
  match m.reason with
  | .command k => updCmd s k (fun c => if done then { c with moved := c.moved + 1 } else { c with skipped := c.skipped + 1 })
  | _ => s

/-- A move aborted: the new frame returns to its pool (R123). The header it leaves has MOVING clear. -/
def abortMove (w : Who) (page : Nat) (h : PageHdr) : Act PageHdr := do
  match moveOf (← get) page with
  | none => return h
  | some m =>
    let h := { h with moving := false }
    writeHdr w page h
    modify (fun s =>
      let s := { s with pgk := { s.pgk with moves := s.pgk.moves.filter (fun x => !(x.page == page && x.started)) } }
      let s := returnFrame s (numDie page) (if m.toFar then 1 else 0) m.newFrame
      countMove (bumpPgk s (numDie page) 0x58 1) m false)
    return h

/-! ### Drops (R124, R127, R128) -/

/-- A page dropped: its frames given back unless they hold an uncorrectable error, the drop charged to its last writer (R112, R124,
R127). POISON leaves the header with the frame at the drop, as TIER does: R153 alone states the first, and R120 sets the second to 0 only at
the later write (DESIGN CHOICE, log 58). -/
def dropPage (w : Who) (page : Nat) (h : PageHdr) (reason : Nat) (keepFrame : Bool) : Act Unit := do
  let s ← get
  let d := numDie page
  writeHdr w page { h with
    state := 4, frame := 0xFFFFFFFF, reason := reason, touch := touchNow s, dropHi := s.now / 2 ^ 48, poison := false,
    moving := false, tier := 0 }
  if !keepFrame && !h.poison then modify (fun s => returnFrame s d h.tier h.frame)
  modify (fun s => bumpPgk s d 0x60 1)
  chargeSeq w h.writerSeq true

/-! ### References and pins (R109 to R111) -/

/-- A page's refcount raised (R109). -/
def incRef (w : Who) (page : Nat) : Act Unit := do
  let h ← legalHdr w page
  if h.state = 0 ∨ h.state = 5 then pageIllegal w page 1 (hdrCtl h)
  else writeHdr w page { h with refcount := h.refcount + 1, state := if h.state = 1 ∨ h.state = 3 then 2 else h.state }

/-- A page's refcount lowered; at 0 it enters quarantine, ending a move (R109, R123). The drop reason of a DROPPED page stays in its header
until the page is allocated again: R108 clears bits [31:16] alone outside DROPPED (DESIGN CHOICE, log 58). -/
def decRef (w : Who) (page : Nat) : Act Unit := do
  let h ← legalHdr w page
  if h.refcount = 0 then pageIllegal w page 2 (hdrCtl h)
  else if h.refcount = 1 then
    let h ← abortMove w page h
    let s ← get
    let wasDropped := h.state == 4
    writeHdr w page { h with refcount := 0, state := 5, qEpoch := s.pgk.epoch.toNat, dropHi := 0 }
    quarantine w .page page
    if wasDropped then chargeSeq w h.writerSeq false
  else
    let st := if h.state = 2 ∧ h.refcount = 2 then (if h.tier = 0 then 1 else 3) else h.state
    writeHdr w page { h with refcount := h.refcount - 1, state := st }

/-- A pin granted; none when the page is in quarantine, which sends the walk back (R111, R154). A pin of a FREE page is illegal. -/
def pinPage (w : Who) (page : Nat) : Act Bool := do
  let h ← legalHdr w page
  if h.state = 0 then pageIllegal w page 3 (hdrCtl h)
  else if h.state = 5 then return false
  else
    let h ← if h.moving then abortMove w page h else pure h
    let t := touchNow (← get)
    writeHdr w page { h with pin := h.pin + 1, touch := if h.state = 4 then h.touch else t }
    return true

/-- A pin released; a page with POISON and no pin left is dropped (R111, R127). -/
def unpinPage (w : Who) (page : Nat) : Act Unit := do
  let h ← legalHdr w page
  if h.pin = 0 then pageIllegal w page 4 (hdrCtl h)
  else
    let h := { h with pin := h.pin - 1 }
    writeHdr w page h
    if h.pin = 0 ∧ h.poison ∧ (h.state = 1 ∨ h.state = 2 ∨ h.state = 3) then dropPage w page h 3 true

/-- An action of hardware that stops of itself: what it did stands. -/
def runQuiet (a : Act Unit) (s : State) : State :=
  match a.run s with
  | .ok _ s' => s'
  | .error _ s' => s'

/-- The pins of a hold released (R111). -/
def unpinHold (s : State) (k : Nat) (h : Hold) : State :=
  h.pins.foldl (fun s p => runQuiet (unpinPage { die := numDie p, key := some k, cluster := h.cluster } p) s) s

/-! ### Pages on failed memory (R127) -/

/-- Whether a page's near frame holds a physical address: a page in QUARANTINE keeps its frame too (R127). -/
def pageHolds (s : State) (page : Nat) (h : PageHdr) (pa : Nat) : Bool :=
  let d := numDie page
  let holds (va n : Nat) : Bool := match peekPool s d va with
    | some p => decide (p ≤ pa ∧ pa < p + n)
    | none => false
  (h.state == 1 || h.state == 2 || h.state == 5) && h.tier == 0 && decide (h.frame ≠ 0xFFFFFFFF) &&
    (holds (dataVa s d 0 h.frame) 32768 || holds (scaleVa s d 0 h.frame) 4096)

/-- A header as it lies in memory, looked at without an access. -/
def peekHdr (s : State) (page : Nat) : Option PageHdr :=
  match peekPool s (numDie page) (hdrVa s page) with
  | some pa => some (hdrOf ((s.pmem.reads pa 64).map (·.1)))
  | none => none

/-- Every page in use, in ascending page number. -/
def usedPages (s : State) : List Nat :=
  (List.range 8).flatMap (fun d => (poolsOf s d).headers.map (mkNum d))

/-- A header that its page keeper looks at while its translation fails: the fault of the pool region is recorded and fences the slice (R104). -/
def faultHdr (s : State) (page : Nat) : State :=
  if (peekHdr s page).isSome ∨ dieFenced s (numDie page) then s
  else runQuiet (do
    let _ ← readHdr { die := numDie page } page) s

/-- A page keeper's look through the headers of its pages in use (R104). -/
def scanHdrs (s : State) (d : Nat) : State := ((poolsOf s d).headers.map (mkNum d)).foldl faultHdr s

/-- The page keepers match one CODE_UE address: POISON is set in the page that holds it, which is dropped when no pin holds it; a page in
QUARANTINE waits for its reclamation, which keeps the frame (R127). -/
def markBad (s : State) (pa : Nat) : State :=
  let s := (List.range 8).foldl scanHdrs s
  match (usedPages s).find? (fun p => match peekHdr s p with | some h => pageHolds s p h pa | none => false) with
  | none => s
  | some p => runQuiet (do
      let w : Who := { die := numDie p }
      let h ← readHdr w p
      let h := { h with poison := true }
      writeHdr w p h
      if h.pin = 0 ∧ h.state ≠ 5 then
        let h ← abortMove w p h
        dropPage w p h 3 true) s

/-- Every CODE_UE address of the step matched (R127). -/
def markAllBad (s : State) : State :=
  s.pgk.bad.foldl markBad { s with pgk := { s.pgk with bad := [] } }

/-! ### Allocation (R119, R427) -/

/-- Hops between dies of the ring (R15). -/
def ringDistance (a b : Nat) : Nat := min ((a + 8 - b) % 8) ((b + 8 - a) % 8)

/-- The dies an allocation tries, in order (R119). -/
def allocOrder (d : Nat) : List Nat :=
  (List.range 5).flatMap (fun n => ((List.range 8).reverse.filter (fun x => ringDistance d x == n)))

/-- A page header as an allocation leaves it (R108, R109). -/
def newHdr (old : PageHdr) (frame touch seq layer head tpp fmt firstPos : Nat) : PageHdr :=
  { old with
    refcount := 1, pin := 0, poison := false, restoring := false, moving := false, tier := 0, state := 1, frame := frame, touch := touch,
    writerSeq := seq, layer := layer, kvHead := head, tppLog2 := tpp, fmt := fmt, firstPos := firstPos, qEpoch := 0, reason := 0,
    dropHi := 0, valid := 0 }

/-- The die that can give a header and a near frame, in the order of R119. -/
def allocDie (s : State) (d : Nat) : Option (Nat × Nat × Nat) :=
  (allocOrder d).findSome? (fun x =>
    if dieFenced s x then none
    else match freeHeader s x, freeNear s x with
      | some h, some f => some (x, h, f)
      | _, _ => none)

/-- A near frame, and a header where one is meant, out of a die's pools. -/
def keepFor (s : State) (x : Nat × Nat × Nat) (header : Bool) : State :=
  updPools s x.1 (fun p => { p with
    headers := if header then insertNat x.2.1 p.headers else p.headers
    near := insertNat x.2.2 p.near })

/-- What a die can give a waiting allocation: a near frame of the page's own die for a DROPPED page that is written, else a header and a near
frame in the order of R119. -/
def servable (s : State) (a : AllocWait) : Option (Nat × Nat × Nat) :=
  match a.only with
  | some d => if dieFenced s d then none else (freeNear s d).map (fun f => (d, 0, f))
  | none => allocDie s (a.cluster / 4)

/-- A waiting allocation served when a die can: what it gets is kept for it (R119, R129). -/
def serveWait (s : State) (a : AllocWait) : State :=
  if a.held.isSome then s
  else match servable s a with
    | none => s
    | some x =>
      let s := keepFor s x a.only.isNone
      { s with pgk := { s.pgk with allocWaits := s.pgk.allocWaits.map (fun y => if y = a then { y with held := some x } else y) } }

/-- Every waiting allocation served that can be, the oldest first (R129). -/
def serveWaits (s : State) : State := s.pgk.allocWaits.foldl serveWait s

/-- What is kept for a waiting allocation given back. -/
def returnHeld (s : State) (a : AllocWait) : State :=
  match a.held with
  | none => s
  | some (d, h, f) =>
    let s := returnFrame s d 0 f
    if a.only.isNone then updPools s d (fun p => { p with headers := giveBack h p.headers }) else s

/-- Waiting allocations ended without a page; what was kept for them goes back. -/
def dropWaits (s : State) (p : AllocWait → Bool) : State :=
  let gone := s.pgk.allocWaits.filter p
  gone.foldl returnHeld { s with pgk := { s.pgk with allocWaits := s.pgk.allocWaits.filter (fun a => !p a) } }

/-- Whether an allocation still waits for a command on a cluster. -/
def stillWaits (s : State) (k g : Nat) : Bool := s.pgk.allocWaits.any (fun a => a.key == k && a.cluster == g && !a.done)

/-- A page of a die taken from its pools and its header written (R109, R119). -/
def takePage (w : Who) (d hIdx frame seq layer head tpp fmt firstPos : Nat) : Act Nat := do
  let page := mkNum d hIdx
  let old ← readHdr w page
  writeHdr w page (newHdr old frame (touchNow (← get)) seq layer head tpp fmt firstPos)
  modify (fun s => bumpPgk (updPools s d (fun p =>
    { p with headers := insertNat hIdx p.headers, near := insertNat frame p.near })) d 0x40 1)
  return page

/-- A node taken from a die's pool, every entry invalid (R113). -/
def takeNode (w : Who) (d idx : Nat) : Act Nat := do
  let n := mkNum d idx
  modify (fun s => updPools s d (fun p => { p with nodes := insertNat idx p.nodes }))
  poolWrite (ofDie w d) (nodeVa (← get) n) (List.replicate 4096 0)
  return n

/-! ### The radix page table (R113, R114) -/

/-- A page-table entry (R114). -/
structure PageEntry where
  v : Bool
  kind : Bool
  gen : Nat
  number : Nat
  deriving DecidableEq, Repr

/-- An entry from its 8 bytes. -/
def entryOf (e : Nat) : PageEntry := ⟨e.testBit 63, e.testBit 62, e / 2 ^ 32 % 65536, e % 2 ^ 32⟩

/-- A valid entry's 8 bytes. -/
def entryNat (kind : Bool) (gen number : Nat) : Nat := 2 ^ 63 + bit kind * 2 ^ 62 + gen % 65536 * 2 ^ 32 + number

/-- Entry `i` of a node. -/
def readEntry (w : Who) (node i : Nat) : Act PageEntry := do
  let bs ← poolRead (ofDie w (numDie node)) (nodeVa (← get) node + 8 * i) 8 0
  return entryOf (bytesNat bs)

/-- Entry `i` of a node written. -/
def writeEntry (w : Who) (node i e : Nat) : Act Unit := do
  poolWrite (ofDie w (numDie node)) (nodeVa (← get) node + 8 * i) (natBytes 8 e)

/-- The indices from D1 to P0 of a page of a sequence (R113). -/
def pathOf (q : SeqDesc) (layer head i : Nat) : List Nat :=
  let x := layer * q.kvHeads + head
  let top := [x / 512 % 512, x % 512]
  if q.depth = 3 then top ++ [i / 2 ^ 18 % 512, i / 512 % 512, i % 512] else top ++ [i / 512 % 512, i % 512]

/-- The entry at the end of a path, none at a hole; a KIND that does not match its level is illegal (R110, R114). -/
def followPath (w : Who) : List Nat → Nat → Act (Option (Nat × Nat × PageEntry))
  | [], _ => pure none
  | [i], node => do
    let e ← readEntry w node i
    if !e.v then return none
    else if !e.kind then pageIllegal w e.number 6 0
    else return some (node, i, e)
  | i :: rest, node => do
    let e ← readEntry w node i
    if !e.v then return none
    else if e.kind then pageIllegal w e.number 6 0
    else followPath w rest e.number

/-- The page entry of a sequence at a layer, head and page index: its P0 node, its index there and the entry (R113, R115). -/
def findPage (w : Who) (q : SeqDesc) (layer head i : Nat) : Act (Option (Nat × Nat × PageEntry)) := do
  match (← followPath w (pathOf q layer head i) q.dirRoot) with
  | none => return none
  | some (n, j, e) =>
    let h ← legalHdr w e.number
    if h.gen ≠ e.gen then pageIllegal w e.number 6 (hdrCtl h) else return some (n, j, e)

/-- The P0 node of a path, its missing nodes allocated from the home die; none when the die has no free node (R118). -/
def buildPath (w : Who) (home : Nat) : List Nat → Nat → Act (Option (Nat × Nat))
  | [], _ => pure none
  | [i], node => pure (some (node, i))
  | i :: rest, node => do
    let e ← readEntry w node i
    if e.v then
      if e.kind then pageIllegal w e.number 6 0 else buildPath w home rest e.number
    else
      match freeNode (← get) home with
      | none => return none
      | some idx =>
        let n ← takeNode w home idx
        writeEntry w node i (entryNat false 0 n)
        buildPath w home rest n

/-! ### Reclamation (R153) -/

/-- Whether a tag has passed: every unfinished command started 1 to 127 epochs later (R153). -/
def tagPassed (s : State) (t : BitVec 8) : Bool :=
  s.cmds.all (fun c => c.stage == .checking || (decide ((c.startEpoch - t).toNat ≥ 1) && decide ((c.startEpoch - t).toNat ≤ 127)))

/-- An item out of quarantine. -/
def unquarantine (s : State) (q : Quarantined) : State :=
  { s with pgk := { s.pgk with quarantine := s.pgk.quarantine.filter (fun x => x ≠ q) } }

/-- A number given back to one of a die's pools. -/
def returnNumber (s : State) (kind : QuarKind) (n : Nat) : State :=
  let d := numDie n
  let i := numIdx n
  match kind with
  | .page => updPools s d (fun p => { p with headers := giveBack i p.headers })
  | .radixNode => updPools s d (fun p => { p with nodes := giveBack i p.nodes })
  | .setNode => updPools s d (fun p => { p with nodes := giveBack i p.nodes })
  | .spineNode => updPools s d (fun p => { p with spineNodes := giveBack i p.spineNodes })
  | .keySlot => updPools s d (fun p => { p with keySlots := giveBack i p.keySlots })

/-- The address of a spine node (R137, R140). -/
def spineVa (s : State) (n : Nat) : Nat := cfgVal s 0x2010 (numDie n) + numIdx n * 64

/-- An illegal request of a spine index (R143). -/
def spineIllegal {α : Type} (w : Who) (node req ctl : Nat) : Act α := do
  reportAct { cause := 0x12, source := 0xC068 + numDie node, key := w.key, cluster := w.cluster, addr := node, info0 := req,
              info1 := ctl }
  abortWith 0x20

/-- One quarantined item reclaimed; a page with a pin is passed over (R153). A header or spine node that is not in QUARANTINE is left as it
is, and recorded (R110, R143). -/
def reclaimItem (q : Quarantined) : Act Unit := do
  let w : Who := { die := numDie q.number }
  match q.kind with
  | .page =>
    let h ← readHdr w q.number
    if h.state ≠ 5 then
      modify (fun s => unquarantine s q)
      pageIllegal w q.number (if h.state ≥ 6 then 7 else 9) (hdrCtl h)
    if h.pin > 0 then return
    let s ← get
    if h.frame ≠ 0xFFFFFFFF ∧ h.poison = false then set (returnFrame s w.die h.tier h.frame)
    writeHdr w q.number { h with state := 0, poison := false, gen := (h.gen + 1) % 65536, frame := 0xFFFFFFFF, tier := 0 }
  | .spineNode =>
    let s ← get
    let w := { w with pool := 0xC068 }
    let bs ← poolRead w (spineVa s q.number + 0x10) 8 0
    let c := bytesNat bs
    if c % 4 ≠ 2 then
      modify (fun s => unquarantine s q)
      spineIllegal w q.number (if c % 4 = 3 then 7 else 9) c
    poolWrite w (spineVa s q.number + 0x10) (natBytes 8 (c % 2 ^ 48 / 8 * 8 + (c / 2 ^ 48 + 1) % 65536 * 2 ^ 48))
  | _ => pure ()
  modify (fun s => bumpSpn (returnNumber (unquarantine s q) q.kind q.number) w.die 0x60 1)

/-- The items of a die reclaimed, oldest first, up to the first whose tag has not passed (R153). -/
def reclaimList : List Quarantined → State → State
  | [], s => s
  | q :: rest, s => if tagPassed s q.epoch then reclaimList rest (runQuiet (reclaimItem q) s) else s

/-- Reclamation by every page keeper and spine index (R153). -/
def reclaimAll (s : State) : State :=
  (List.range 8).foldl (fun s d =>
    if dieFenced s d then s else reclaimList (s.pgk.quarantine.filter (fun q => numDie q.number == d)) s) s

end Sys2Proof.Machine
end

