-- ==== Sys2Proof/Machine/Scratchpad.lean ====
section
/-! DEFINITION. Scratchpads: words, banks, slot tags, arrival counters and window control blocks as data
(spec/07_scratchpad.md R160 to R190). -/
namespace Sys2Proof.Machine

/-- The global scratchpad address of a core's word (R161). -/
def gaddrOf (core w : Nat) : Nat := core * 2 ^ 19 + w

/-- The global cluster of a core. -/
def clusterOf (core : Nat) : Nat := core / 8

/-- The byte address of a word in `Spad.mem`. -/
def spadAddr (core w : Nat) : Nat := gaddrOf core w * 16

/-! ### Words (R160, R163, R165) -/

/-- A word read: a correctable error is recorded and written back; an uncorrectable one is recorded and the word becomes poison (R163, R407,
R409). -/
def spadRead (s : State) (key : Option Nat) (core w : Nat) : (Word128 × Bool) × State :=
  let a := spadAddr core w
  if tget 0 s.spad.mem.chk a = 0 then ((s.spad.mem.word a, false), s)
  else
    let x := s.spad.mem.granule a
    let o := decodeOutcome x
    let s := codeRecord s { die := core / 32, key := key, cluster := clusterOf core } core 0 (gaddrOf core w) o false
    match o with
    | .corrected i e => (deliverGranule x, { s with spad := { s.spad with mem := s.spad.mem.setGranule a (correctSymbol x i e) } })
    | .uncorrectable => (deliverGranule x, { s with spad := { s.spad with mem := s.spad.mem.setWord a (granuleData x) true } })
    | _ => (deliverGranule x, s)

/-- A word written, clean or poison. -/
def spadWrite (s : State) (core w : Nat) (x : Word128) (poison : Bool) : State :=
  { s with spad := { s.spad with mem := s.spad.mem.setWord (spadAddr core w) x poison } }

/-- A narrow write: bytes under a mask, merged; a poisoned word stays poisoned (R165). -/
def spadNarrow (s : State) (core w : Nat) (mask : BitVec 16) (x : Word128) (poison : Bool) : State :=
  let bs := (List.range 16).filterMap (fun i => if mask.getLsbD i then some (i, x.extractLsb' (8 * i) 8) else none)
  { s with spad := { s.spad with mem := s.spad.mem.mergeGranule (spadAddr core w) bs poison } }

/-! ### Banks (R162, R166) -/

/-- The bank of a word (R162). -/
def bankOf (w : Nat) : Nat := (w % 64) ^^^ (w / 64 % 64)

/-- Words in the busiest bank of a beat: reads of one address are one access (R166). -/
def busiestBank (write : Bool) (ws : List Nat) : Nat :=
  let ws := if write then ws else ws.eraseDups
  let bs := ws.map bankOf
  bs.foldl (fun m b => max m (bs.filter (fun x => x == b)).length) 0

/-! ### Slot tags (R169) -/

/-- The granule of a word (R160). -/
def granuleIdx (w : Nat) : Nat := w / 256 % 2048

/-- The tags of a core, FULL where set. -/
def tagsOf (s : State) (core : Nat) : BitVec 2048 := tget 0 s.spad.tags core

/-- Whether a granule is FULL. -/
def tagFull (s : State) (core g : Nat) : Bool := (tagsOf s core).getLsbD g

/-- The mask of `n` granules from `g`. -/
def granuleMask (g n : Nat) : BitVec 2048 := BitVec.ofNat 2048 ((2 ^ n - 1) * 2 ^ g)

/-- Granules of a range set FULL or EMPTY. -/
def setTags (s : State) (core g n : Nat) (full : Bool) : State :=
  let t := tagsOf s core
  let m := granuleMask g n
  { s with spad := { s.spad with tags := tset 0 s.spad.tags core (if full then t ||| m else t &&& ~~~m) } }

/-! ### Arrival counters (R177 to R180) -/

/-- An arrival counter of a core. -/
def arrivalOf (s : State) (core c : Nat) : ArrivalCounter := tget ArrivalCounter.reset s.spad.arrivals (core * 64 + c)

/-- An arrival counter replaced. -/
def setArrival (s : State) (core c : Nat) (a : ArrivalCounter) : State :=
  { s with spad := { s.spad with arrivals := tset ArrivalCounter.reset s.spad.arrivals (core * 64 + c) a } }

/-- A count with words added, holding at 0xFFFF_FFFF with OVF (R177). -/
def addArrival (a : ArrivalCounter) (n : Nat) : ArrivalCounter :=
  let c := a.count.toNat + n
  if c > 0xFFFFFFFF then { a with count := 0xFFFFFFFF, ovf := true } else { a with count := BitVec.ofNat 32 c }

/-- How often a counter fires at once: the count divided by the target with RELOAD, else once (R179). -/
def firings (a : ArrivalCounter) : Nat :=
  if !a.armed ∨ a.count.toNat < a.target.toNat then 0
  else if a.reload ∧ a.target ≠ 0 then a.count.toNat / a.target.toNat
  else 1

/-- A counter after its firings (R179). -/
def fired (a : ArrivalCounter) : ArrivalCounter :=
  if a.reload then { a with fired := true, count := BitVec.ofNat 32 (a.count.toNat - firings a * a.target.toNat) }
  else { a with fired := true, armed := false }

/-- The 16 bytes of an arrival counter as a number (R178). -/
def arrivalWord (a : ArrivalCounter) : Nat :=
  a.count.toNat + a.target.toNat * 2 ^ 32 + a.fillFirst * 2 ^ 89 + a.fillCount * 2 ^ 100 + bit a.ovf * 2 ^ 124 +
    bit a.fired * 2 ^ 125 + bit a.reload * 2 ^ 126 + bit a.armed * 2 ^ 127

/-- The entry of R178 as a counter. -/
def arrivalFrom (w : Nat) : ArrivalCounter where
  armed := w.testBit 127
  reload := w.testBit 126
  fired := w.testBit 125
  ovf := w.testBit 124
  fillCount := w / 2 ^ 100 % 2 ^ 12
  fillFirst := w / 2 ^ 89 % 2 ^ 11
  target := BitVec.ofNat 32 (w / 2 ^ 32)
  count := BitVec.ofNat 32 w

/-! ### Windows (R181 to R185) -/

/-- A window of a core. -/
def windowOf (s : State) (core w : Nat) : Window := tget Window.reset s.spad.windows (core * 8 + w)

/-- A window replaced. -/
def setWindow (s : State) (core w : Nat) (x : Window) : State :=
  { s with spad := { s.spad with windows := tset Window.reset s.spad.windows (core * 8 + w) x } }

/-- The window control block as a number (R181). -/
def windowWord (w : Window) : Nat :=
  w.refused.toNat + w.closedAt % 65536 * 2 ^ 53 + w.base.toNat * 2 ^ 69 + w.limit.toNat * 2 ^ 88 + w.inFlight * 2 ^ 107 +
    bit w.wFw * 2 ^ 115 + bit w.wKtl * 2 ^ 116 + bit w.wPgk * 2 ^ 117 + w.gen.toNat * 2 ^ 118 + w.state * 2 ^ 126

/-- A window with the fields of a control block (R181); the rest of its timebase and who opened it stand. -/
def windowFrom (x : Window) (w : Nat) : Window :=
  { x with
    state := w / 2 ^ 126 % 4, gen := BitVec.ofNat 8 (w / 2 ^ 118), wPgk := w.testBit 117, wKtl := w.testBit 116, wFw := w.testBit 115
    inFlight := w / 2 ^ 107 % 256, limit := BitVec.ofNat 19 (w / 2 ^ 88), base := BitVec.ofNat 19 (w / 2 ^ 69)
    closedAt := x.closedAt / 65536 * 65536 + w / 2 ^ 53 % 65536, refused := BitVec.ofNat 32 w }

/-- Whether an OPEN need not wait: CLOSED, at least 39 ticks after closed_at (R182, R185). -/
def mayOpen (s : State) (w : Window) : Bool := w.state == 0 && decide (s.now ≥ w.closedAt + 39)

/-- A window opened with the argument of WOPEN (R182, R201). -/
def opened (w : Window) (arg : BitVec 64) (key : Nat) : Window :=
  { w with
    state := 1, base := arg.extractLsb' 0 19, limit := arg.extractLsb' 19 19, wFw := arg.getLsbD 38, wKtl := arg.getLsbD 39,
    wPgk := arg.getLsbD 40, openedFor := key + 1 }

/-- CLOSE (R182): an OPEN window stops admitting; otherwise no effect. -/
def closing (w : Window) : Window := if w.state = 1 then { w with state := 2 } else w

/-- A CLOSING window with nothing in flight becomes CLOSED (R182, R183). -/
def closedNow (now : Nat) (w : Window) : Window :=
  if w.state = 2 ∧ w.inFlight = 0 then { w with state := 0, gen := w.gen + 1, closedAt := now, openedFor := 0 } else w

/-- A window's refused count with one more (R184). -/
def refusedOnce (w : Window) : Window :=
  if w.refused = 0xFFFFFFFF then w else { w with refused := w.refused + 1 }

/-- Every window that a command left OPEN is closed (R182). -/
def closeWindowsOf (s : State) (key : Nat) : State :=
  { s with spad := { s.spad with windows := s.spad.windows.map (fun e =>
      if e.2.openedFor = key + 1 then (e.1, closing e.2) else e) } }

/-! ### Semaphore pairs (R204, R205) -/

/-- A pair: capacity, full, empty. -/
structure SemPair where
  capacity : Nat
  full : Nat
  empty : Nat
  deriving DecidableEq, Repr

/-- A pair from its 8 bytes (R204). -/
def semOf (v : BitVec 64) : SemPair := ⟨v.toNat / 2 ^ 32 % 65536, v.toNat / 65536 % 65536, v.toNat % 65536⟩

/-- A pair's 8 bytes. -/
def semWord (p : SemPair) : BitVec 64 := BitVec.ofNat 64 (p.empty + p.full * 65536 + p.capacity * 2 ^ 32)

/-- A semaphore pair of a core. -/
def semAt (s : State) (core p : Nat) : SemPair := semOf (tget 0 s.spad.sems (core * 16 + p))

/-- A semaphore pair replaced. -/
def setSem (s : State) (core p : Nat) (x : SemPair) : State :=
  { s with spad := { s.spad with sems := tset 0 s.spad.sems (core * 16 + p) (semWord x) } }

/-- The count a take waits for. -/
def semCount (p : SemPair) (full : Bool) : Nat := if full then p.full else p.empty

/-- One taken. -/
def semTake (p : SemPair) (full : Bool) : SemPair := if full then { p with full := p.full - 1 } else { p with empty := p.empty - 1 }

/-- One posted, none for an over-post (R205). -/
def semPost (p : SemPair) (full : Bool) : Option SemPair :=
  if p.full + p.empty + 1 > p.capacity then none
  else some (if full then { p with full := p.full + 1 } else { p with empty := p.empty + 1 })

/-- A pair as a starting command leaves it (R205). -/
def semStart (cap : Nat) : SemPair := ⟨cap, 0, cap⟩

/-! ### First power-up of a cluster (R163) -/

/-- A table without the keys of a range. -/
def dropKeys {α : Type} (lo hi : Nat) (t : Table α) : Table α := t.filter (fun e => decide (e.1 < lo ∨ e.1 ≥ hi))

/-- The scratchpads of a cluster as R163 leaves them: every word +0.0 with a valid code, every tag EMPTY, every counter and window
control block at its reset value. -/
def clearScratchpads (s : State) (g : Nat) : State :=
  let lo := spadAddr (8 * g) 0
  let hi := spadAddr (8 * g + 8) 0
  { s with spad := { s.spad with
    mem := ⟨dropKeys lo hi s.spad.mem.cells, dropKeys lo hi s.spad.mem.chk⟩
    tags := dropKeys (8 * g) (8 * g + 8) s.spad.tags
    arrivals := dropKeys (8 * g * 64) ((8 * g + 8) * 64) s.spad.arrivals
    windows := dropKeys (8 * g * 8) ((8 * g + 8) * 8) s.spad.windows } }

/-! ### SPD_STATUS (R190) -/

/-- Windows OPEN or CLOSING in a cluster. -/
def openWindows (s : State) (g : Nat) : Nat :=
  (s.spad.windows.filter (fun e => decide (e.1 / 64 = g) && (e.2.state == 1 || e.2.state == 2))).length

/-- Accesses of a cluster blocked on tags now. -/
def tagBlocked (s : State) (g : Nat) : Nat :=
  (s.str.queues.filter (fun e => decide (e.1 / 64 = g) && e.2.tagWait.isSome)).length

/-- SPD_STATUS (R190). -/
def spdStatus (s : State) (g : Nat) : Nat :=
  openWindows s g + tagBlocked s g % 256 * 256 + bit (tget false s.spad.overrun g) * 65536

end Sys2Proof.Machine
end

