-- ==== Sys2Proof/Machine/Plans.lean ====
section
/-! DEFINITION. Plan images, their checks, the plan store and footprints, PLAN_LOAD (spec/08_streams.md R194 to R213). -/
namespace Sys2Proof.Machine

/-! ### Reading an image -/

/-- A little-endian field of `n` bytes at byte `o` of an image. -/
def le (bs : List Byte) (o n : Nat) : Nat := bytesNat ((bs.drop o).take n)

/-- A failing check of a plan image (R213). -/
structure PlanFail where
  sect : Nat
  check : Nat
  item : Nat
  offset : Nat
  hi : Nat
  lo : Nat
  found : Nat
  limit : Nat
  deriving DecidableEq, Repr

/-- The 32 bytes of a plan report (R213). -/
def planReport (f : PlanFail) : List Byte :=
  natBytes 1 f.sect ++ natBytes 1 f.check ++ natBytes 2 f.item ++ natBytes 4 f.offset ++ natBytes 1 f.hi ++ natBytes 1 f.lo ++
    natBytes 6 0 ++ natBytes 8 f.found ++ natBytes 8 f.limit

/-- The first failure of a list of checks. -/
def firstFailure (l : List (Option PlanFail)) : Option PlanFail := l.findSome? id

/-- Where a check of one item stands: section, item and the item's byte offset. -/
structure ItemAt where
  sect : Nat
  item : Nat
  base : Nat

/-- A check of a field at byte `o` of an item, bits [hi:lo] of its word. -/
def chk (a : ItemAt) (o hi lo check found limit : Nat) (ok : Bool) : Option PlanFail :=
  if ok then none else some ⟨a.sect, check, a.item, a.base + o, hi, lo, found, limit⟩

/-- A reserved field of `w` bits at bit `b` of a word of `v`. -/
def chkRsv (a : ItemAt) (o b w v : Nat) : Option PlanFail :=
  chk a o (b + w - 1) b 8 (v / 2 ^ b % 2 ^ w) 0 (v / 2 ^ b % 2 ^ w == 0)

/-- The header of an image (R209). -/
structure PlanHeader where
  stepQueue : Nat
  bytes : Nat
  queueOff : Nat
  loopOff : Nat
  loopCount : Nat
  progCount : Nat
  progOff : Nat
  descOff : Nat
  descCount : Nat
  footOff : Nat
  footCount : Nat
  groupCount : Nat
  semCount : Nat
  groupOff : Nat
  semOff : Nat
  deriving DecidableEq, Repr

/-- The header read. -/
def planHeader (bs : List Byte) : PlanHeader where
  stepQueue := le bs 2 1
  bytes := le bs 4 4
  queueOff := le bs 8 4
  loopOff := le bs 0xC 4
  loopCount := le bs 0x10 2
  progCount := le bs 0x12 2
  progOff := le bs 0x14 4
  descOff := le bs 0x18 4
  descCount := le bs 0x1C 4
  footOff := le bs 0x20 4
  footCount := le bs 0x24 2
  groupCount := le bs 0x26 1
  semCount := le bs 0x27 1
  groupOff := le bs 0x28 4
  semOff := le bs 0x2C 4

/-- A queue entry (R210). -/
structure QueueEntry where
  first : Nat
  count : Nat
  ringBase : Nat
  ringStride : Nat
  slots : Nat
  outstanding : Nat
  consumer : Nat
  group : Nat
  deriving DecidableEq, Repr

/-- Queue entry `i` read. -/
def queueEntry (bs : List Byte) (h : PlanHeader) (i : Nat) : QueueEntry :=
  let e := (bs.drop (h.queueOff + 32 * i)).take 32
  ⟨le e 0 4, le e 4 4, le e 8 4, le e 0xC 4, le e 0x10 1, le e 0x11 1, le e 0x12 1, le e 0x13 1⟩

/-- The queue table. -/
def queueTable (bs : List Byte) (h : PlanHeader) : List QueueEntry := (List.range 8).map (queueEntry bs h)

/-- A linked load queue names a consumer (R193, R210). -/
def QueueEntry.linked (q : QueueEntry) : Bool := q.consumer ≠ 0

/-- A footprint entry (R211). -/
structure FootEntry where
  ctrs : Nat
  wins : Nat
  base : Nat
  limit : Nat
  deriving DecidableEq, Repr

/-- A footprint entry from its 16 bytes as a number. -/
def footOf (v : Nat) : FootEntry := ⟨v / 2 ^ 64, v / 2 ^ 56 % 256, v % 2 ^ 19, v / 2 ^ 19 % 2 ^ 19⟩

/-- The footprint of an image. -/
def planFoot (bs : List Byte) (h : PlanHeader) : List FootEntry :=
  (List.range h.footCount).map (fun i => footOf (le bs (h.footOff + 16 * i) 16))

/-- A multicast group entry (R211). -/
structure GroupEntry where
  ringBase : Nat
  slotWords : Nat
  slots : Nat
  kv : Bool
  deriving DecidableEq, Repr

/-- Group entry `i` read. -/
def groupEntry (bs : List Byte) (h : PlanHeader) (i : Nat) : GroupEntry :=
  let v := le bs (h.groupOff + 16 * i) 16
  ⟨v / 2 ^ 48 % 65536, v / 2 ^ 32 % 65536, v / 2 ^ 24 % 256, v / 256 % 256 == 1⟩

/-! ### Descriptors (R194) -/

/-- A stream descriptor's fields (R194). -/
structure Desc where
  base : Nat
  scaleBase : Nat
  ctl : Nat
  spad : Nat
  vSpad : Nat
  rows : Nat
  rowBytes : Nat
  rowStride : Nat
  fmt : BitVec 16
  padValue : F32
  extRows : Nat
  extBytes : Nat
  tag : Nat
  unit : Nat
  /-- KV: rows delivered as stored -/
  valid : BitVec 128
  raw : BitVec 512
  deriving DecidableEq, Repr

/-- A field of a descriptor. -/
def descField (d : BitVec 512) (o n : Nat) : Nat := (d.extractLsb' (8 * o) (8 * n)).toNat

/-- A descriptor read from its 64 bytes. -/
def descOf (d : BitVec 512) : Desc where
  base := descField d 0 8
  scaleBase := descField d 8 8
  ctl := descField d 0x10 8
  spad := descField d 0x18 4
  vSpad := descField d 0x1C 4
  rows := descField d 0x20 2
  rowBytes := descField d 0x22 2
  rowStride := descField d 0x24 4
  fmt := d.extractLsb' (8 * 0x28) 16
  padValue := d.extractLsb' (8 * 0x2C) 32
  extRows := descField d 0x30 4
  extBytes := descField d 0x34 4
  tag := descField d 0x38 4
  unit := descField d 0x3C 2
  valid := d.extractLsb' (8 * 0x30) 128
  raw := d

/-- Fields of ctl (R194). -/
def dLoop (d : Desc) : Nat := d.ctl / 2 ^ 42 % 64
def dProg (d : Desc) : Nat := d.ctl / 2 ^ 36 % 64
def dHasProg (d : Desc) : Bool := d.ctl.testBit 35
def dRowLvl (d : Desc) : Nat := d.ctl / 2 ^ 32 % 8
def dColLvl (d : Desc) : Nat := d.ctl / 2 ^ 29 % 8
def dCtr (d : Desc) : Nat := d.ctl / 2 ^ 23 % 64
def dSem (d : Desc) : Nat := d.ctl / 2 ^ 16 % 16
def dHasSem (d : Desc) : Bool := d.ctl.testBit 15
def dTagged (d : Desc) : Bool := d.ctl.testBit 14
def dMark (d : Desc) : Bool := d.ctl.testBit 13
def dNoFetch (d : Desc) : Bool := d.ctl.testBit 12
def dKind (d : Desc) : Nat := d.ctl / 256 % 8
def dStore (d : Desc) : Bool := d.ctl.testBit 7
def dRing (d : Desc) : Bool := d.spad.testBit 31

/-- Words of one tile in the scratchpad. -/
def tileWords (d : Desc) : Nat := d.rows * d.rowBytes / 16

/-- Stored bytes of one block, or of one element without block scales (R195). -/
def blockBytes (fcw : BitVec 16) : Nat :=
  let f := fcwFmt fcw
  if hasBlocks f then elemBytes f (blockElems (fcwBlk fcw)) else elemBits f / 8

/-- What a descriptor is checked against: the counts of its plan and the levels of each loop table, and whether padding with an infinity
is known to be wrong (R33). -/
structure DescEnv where
  loopCount : Nat
  progCount : Nat
  levels : Nat → Nat
  infOk : Bool
  kvOk : Bool

/-- The check of ctl (R194, R212): fields from the highest bit down, as the map lists them. -/
def ctlCheck (env : DescEnv) (a : ItemAt) (d : Desc) : Option PlanFail :=
  let kv := dKind d == 1
  let lv := env.levels (dLoop d)
  firstFailure
    [chkRsv a 0x10 48 16 d.ctl,
     chk a 0x10 47 42 7 (dLoop d) env.loopCount (if kv then dLoop d == 0 else decide (dLoop d < env.loopCount)),
     chk a 0x10 41 36 7 (dProg d) env.progCount
       (if dHasProg d && !kv then decide (dProg d < env.progCount) else dProg d == 0),
     chk a 0x10 35 35 6 1 0 (!(kv && dHasProg d)),
     chk a 0x10 34 32 1 (dRowLvl d) lv (dRowLvl d == 7 || decide (dRowLvl d < lv)),
     chk a 0x10 31 29 1 (dColLvl d) lv (dColLvl d == 7 || decide (dColLvl d < lv)),
     chk a 0x10 28 23 1 (dCtr d) 0 (dKind d == 2 || dCtr d == 0),
     chkRsv a 0x10 20 3 d.ctl,
     chk a 0x10 19 16 1 (dSem d) 0 (dHasSem d || dSem d == 0),
     chk a 0x10 13 13 1 1 0 (dTagged d || !dMark d),
     chk a 0x10 12 12 1 1 0 (!dNoFetch d || (kv && !dStore d)),
     chkRsv a 0x10 11 1 d.ctl,
     chk a 0x10 10 8 6 (dKind d) 0 (decide (dKind d < 4) && (env.kvOk || !kv)),
     chk a 0x10 7 7 6 0 0 (dStore d || decide (dKind d < 2)),
     chkRsv a 0x10 0 7 d.ctl]

/-- The check of a descriptor, field by field in ascending offset (R9, R26, R30, R32, R33, R194 to R196). -/
def descCheck (env : DescEnv) (a : ItemAt) (d : Desc) : Option PlanFail :=
  let kind := dKind d
  let f := fcwFmt d.fmt
  let fmtOk := (fcwCheck { store := dStore d, kv := kind == 1, infOk := true } d.fmt).isNone
  let bb := blockBytes d.fmt
  let baseTop := if kind = 2 then 27 else if kind = 3 then 64 else 52
  firstFailure
    [if baseTop = 64 then none else chkRsv a 0 baseTop (64 - baseTop) d.base,
     chkRsv a 8 52 12 d.scaleBase,
     chk a 8 51 0 1 d.scaleBase 0 (hasBlocks f || d.scaleBase == 0),
     ctlCheck env a d,
     chkRsv a 0x18 19 12 d.spad,
     if kind = 1 then chkRsv a 0x1C 19 13 d.vSpad else chk a 0x1C 31 0 1 d.vSpad 0 (d.vSpad == 0),
     chk a 0x20 15 0 1 d.rows 128 (decide (1 ≤ d.rows ∧ d.rows ≤ 128)),
     chk a 0x22 15 0 2 d.rowBytes 16 (d.rowBytes % 16 == 0),
     chk a 0x22 15 0 1 d.rowBytes 4096 (decide (16 ≤ d.rowBytes ∧ d.rowBytes ≤ 4096)),
     chk a 0x22 15 0 2 d.rowBytes bb (!(fmtOk && hasBlocks f) || d.rowBytes % bb == 0),
     (fcwCheck { store := dStore d, kv := kind == 1, infOk := env.infOk } d.fmt).map (fun e =>
       ⟨a.sect, e.check, a.item, a.base + 0x28, e.hi, e.lo, e.found, e.limit⟩),
     chkRsv a 0x2A 0 16 (descField d.raw 0x2A 2),
     chk a 0x34 31 0 2 d.extBytes bb (kind == 1 || dColLvl d == 7 || d.extBytes % bb == 0),
     chk a 0x38 31 0 1 d.tag 0 (kind == 1 || kind == 3 || d.tag == 0),
     chk a 0x3C 15 0 1 d.unit (if kind = 3 then 65535 else 0)
       (kind == 1 || (if kind = 3 then decide (1 ≤ d.unit) else d.unit == 0)),
     if kind = 1 then none else chkRsv a 0x3E 0 16 (descField d.raw 0x3E 2)]

/-! ### Loop tables (R197, R198) -/

/-- One level: bound, nesting position and stride in bytes. -/
structure LoopLevel where
  bound : Nat
  order : Nat
  stride : Nat
  deriving DecidableEq, Repr

/-- The levels of a loop table from its 128 bytes; strides modulo 2⁶⁴. -/
def loopLevels (t : List Byte) : List LoopLevel :=
  (List.range (min (le t 0 1) 6)).map (fun l => ⟨le t (16 + 16 * l + 12) 4, le t (16 + 16 * l + 11) 1 % 8, le t (16 + 16 * l) 8⟩)

/-- Loop table `i` of an image. -/
def loopTable (bs : List Byte) (h : PlanHeader) (i : Nat) : List Byte := (bs.drop (h.loopOff + 128 * i)).take 128

/-- The magnitude of a signed 64-bit stride. -/
def strideMag (v : Nat) : Nat := if v < 2 ^ 63 then v else 2 ^ 64 - v

/-- The check of one level entry (R197, R198). -/
def levelCheck (a : ItemAt) (t : List Byte) (levels l : Nat) : Option PlanFail :=
  let o := 16 + 16 * l
  let v := le t o 16
  let stride := v % 2 ^ 64
  let order := v / 2 ^ 88 % 8
  let bound := v / 2 ^ 96
  let used := decide (l < levels)
  let before := (List.range l).map (fun k => le t (16 + 16 * k) 16 / 2 ^ 88 % 8)
  firstFailure
    [chk a o 63 0 1 stride (2 ^ 52 - 1) (if used then decide (strideMag stride < 2 ^ 52) else stride == 0),
     chk a (o + 8) 23 0 8 (v / 2 ^ 64 % 2 ^ 24) 0 (v / 2 ^ 64 % 2 ^ 24 == 0),
     chk a (o + 8) 26 24 1 order (if used then levels - 1 else l) (if used then decide (order < levels) else order == l),
     chk a (o + 8) 26 24 4 order 0 (!before.contains order),
     chk a (o + 8) 31 27 8 (v / 2 ^ 91 % 32) 0 (v / 2 ^ 91 % 32 == 0),
     chk a (o + 12) 31 0 1 bound 1 (if used then decide (1 ≤ bound) else bound == 1)]

/-- The check of a loop table (R197, R198). -/
def loopCheck (a : ItemAt) (t : List Byte) : Option PlanFail :=
  let levels := le t 0 1
  let tiles := (loopLevels t).foldl (fun (n : Nat) l => n * l.bound) 1
  firstFailure
    ([chk a 0 7 0 1 levels 6 (decide (1 ≤ levels ∧ levels ≤ 6)),
      chk a 1 119 0 8 (le t 1 15) 0 (le t 1 15 == 0)] ++
     (List.range 6).map (levelCheck a t levels) ++
     [chk a (16 + 16 * (levels - 1) + 12) 31 0 5 (le t (16 + 16 * (levels - 1) + 12) 4) (2 ^ 64 - 1) (decide (tiles < 2 ^ 64)),
      chk a 0x70 127 0 8 (le t 0x70 16) 0 (le t 0x70 16 == 0)])

/-! ### Programs (R200 to R202) -/

/-- The fields of an instruction word (R200). -/
def icOp (w : Nat) : Nat := w / 2 ^ 26 % 64
def icRd (w : Nat) : Nat := w / 2 ^ 22 % 16
def icSa (w : Nat) : Nat := w / 2 ^ 17 % 32
def icSb (w : Nat) : Nat := w / 2 ^ 12 % 32
def icImm (w : Nat) : Nat := w % 2 ^ 17

/-- How an opcode uses its word (R201): whether rd, sa and sb or the bits of imm it uses are used; none for an illegal op. Format A is
marked by `a`. -/
structure OpForm where
  a : Bool
  rd : Bool
  sa : Bool
  sb : Bool
  immBits : Nat

/-- The forms of R201. -/
def opForm (op : Nat) : Option OpForm :=
  if 1 ≤ op ∧ op ≤ 8 then some ⟨true, true, true, true, 0⟩
  else if op = 0x10 ∨ op = 0x11 ∨ op = 0x14 ∨ op = 0x16 then some ⟨false, true, true, false, 17⟩
  else if op = 0x12 ∨ op = 0x13 then some ⟨false, true, true, false, 6⟩
  else if op = 0x18 ∨ op = 0x19 then some ⟨false, false, true, false, 6⟩
  else if op = 0x20 then some ⟨true, false, true, true, 0⟩
  else if op = 0x21 ∨ op = 0x22 then some ⟨false, false, false, false, 0⟩
  else if op = 0x28 ∨ op = 0x29 ∨ op = 0x2A ∨ op = 0x2B then some ⟨false, false, true, false, 6⟩
  else if op = 0x2C then some ⟨false, false, true, false, 3⟩
  else if op = 0x2D ∨ op = 0x2E then some ⟨false, false, false, false, 3⟩
  else if op = 0x30 ∨ op = 0x31 then some ⟨false, false, false, false, 5⟩
  else if op = 0x32 then some ⟨true, false, true, true, 0⟩
  else none

/-- Whether an opcode is a tile operation (R201). -/
def isTileOp (op : Nat) : Bool := op == 0x20 || op == 0x21 || op == 0x22

/-- The check of instruction `i` of `n` of a program (R200 to R202). -/
def instrCheck (a : ItemAt) (n i w : Nat) : Option PlanFail :=
  match opForm (icOp w) with
  | none => chk a 0 31 26 6 (icOp w) 0 false
  | some f =>
    let k := icImm w % 64
    let branch := icOp w == 0x18 || icOp w == 0x19
    firstFailure
      [chk a 0 31 26 6 (icOp w) 0 (decide (i + 1 < n) || isTileOp (icOp w)),
       chk a 0 25 22 8 (icRd w) 0 (f.rd || icRd w == 0),
       chk a 0 21 17 8 (icSa w) 0 (f.sa || icSa w == 0),
       if f.a then firstFailure
         [chk a 0 16 12 8 (icSb w) 0 (f.sb || icSb w == 0), chk a 0 11 0 8 (w % 4096) 0 (w % 4096 == 0)]
       else chk a 0 16 f.immBits 8 (icImm w / 2 ^ f.immBits) 0 (icImm w / 2 ^ f.immBits == 0),
       chk a 0 5 0 1 k (n - 2 - i) (!branch || (decide (1 ≤ k) && decide (i + 1 + k < n)))]

/-- The instructions of a program's 256 bytes: up to its last that is not 0 (R209). -/
def progWords (p : List Byte) : List Nat :=
  ((((List.range 64).map (fun i => le p (4 * i) 4)).reverse.dropWhile (fun w => w == 0))).reverse

/-- Program `i` of an image. -/
def progBytes (bs : List Byte) (h : PlanHeader) (i : Nat) : List Byte := (bs.drop (h.progOff + 256 * i)).take 256

/-- The check of program `p` (R199 to R202). -/
def progCheck (bs : List Byte) (h : PlanHeader) (p : Nat) : Option PlanFail :=
  let ws := progWords (progBytes bs h p)
  let at_ (i : Nat) : ItemAt := ⟨4, p * 64 + i, h.progOff + 256 * p + 4 * i⟩
  if ws.isEmpty then chk (at_ 0) 0 31 26 6 0 0 false
  else firstFailure (ws.mapIdx (fun i w => instrCheck (at_ i) ws.length i w))

/-! ### The sections in order (R212) -/

/-- A section of the header: field offset, start, bytes. -/
def planSections (h : PlanHeader) : List (Nat × Nat × Nat) :=
  [(0x08, h.queueOff, 256), (0x0C, h.loopOff, 128 * h.loopCount), (0x14, h.progOff, 256 * h.progCount),
   (0x18, h.descOff, 64 * h.descCount), (0x20, h.footOff, 16 * h.footCount), (0x28, h.groupOff, 16 * h.groupCount),
   (0x2C, h.semOff, 8 * h.semCount)]

/-- Whether two runs share a byte. -/
def runsOverlap (a n b m : Nat) : Bool := decide (n > 0 ∧ m > 0 ∧ a < b + m ∧ b < a + n)

/-- The checks of section offset `i` of the header (R209). -/
def sectionCheck (h : PlanHeader) (i : Nat) : Option PlanFail :=
  let a : ItemAt := ⟨1, 0, 0⟩
  let e := (planSections h).getD i (0, 0, 0)
  let earlier := (0, 0, 64) :: (planSections h).take i
  firstFailure
    [chk a e.1 31 0 2 e.2.1 64 (e.2.1 % 64 == 0),
     chk a e.1 31 0 1 e.2.1 h.bytes (decide (e.2.1 + e.2.2 ≤ h.bytes)),
     chk a e.1 31 0 4 e.2.1 0 (!earlier.any (fun x => runsOverlap x.2.1 x.2.2 e.2.1 e.2.2))]

/-- Order 1: the header (R209). -/
def headerSection (bs : List Byte) (planBytes : Nat) : Option PlanFail :=
  let h := planHeader bs
  let a : ItemAt := ⟨1, 0, 0⟩
  let count (o v hi lo w : Nat) := chk a o (w - 1) 0 1 v hi (decide (lo ≤ v ∧ v ≤ hi))
  firstFailure
    [chk a 0 15 0 1 (le bs 0 2) 1 (le bs 0 2 == 1),
     count 2 h.stepQueue 7 0 8,
     chk a 2 7 0 7 h.stepQueue 0 (decide ((queueEntry bs h h.stepQueue).count > 0)),
     chkRsv a 3 0 8 (le bs 3 1),
     count 4 h.bytes (2 ^ 22) 64 32,
     chk a 4 31 0 3 h.bytes planBytes (h.bytes == planBytes),
     sectionCheck h 0, sectionCheck h 1, count 0x10 h.loopCount 64 0 16, count 0x12 h.progCount 64 0 16, sectionCheck h 2,
     sectionCheck h 3, count 0x1C h.descCount 65536 1 32, sectionCheck h 4, count 0x24 h.footCount 64 1 16,
     count 0x26 h.groupCount 4 0 8, count 0x27 h.semCount 16 0 8, sectionCheck h 5, sectionCheck h 6,
     chk a 0x30 127 0 8 (le bs 0x30 16) 0 (le bs 0x30 16 == 0)]

/-- The word runs of a queue's ring slots. -/
def ringRun (q : QueueEntry) : Nat × Nat := (q.ringBase, q.slots * q.ringStride)

/-- Whether a run of words lies inside one footprint range. -/
def insideFoot (fs : List FootEntry) (b n : Nat) : Bool := fs.any (fun f => decide (f.base ≤ b ∧ b + n ≤ f.limit + 1))

/-- The descriptors of an image, in order. -/
def planDescs (bs : List Byte) (h : PlanHeader) : List Desc :=
  (chunksOf 64 h.descCount ((bs.drop h.descOff).take (64 * h.descCount))).map (fun c => descOf (BitVec.ofNat 512 (bytesNat c)))

/-- The descriptors of a queue's list. -/
def queueDescs (ds : List Desc) (q : QueueEntry) : List Desc := (ds.drop q.first).take q.count

/-- Whether a queue loads: every descriptor of its list has DIR 0. -/
def isLoadQueue (ds : List Desc) (q : QueueEntry) : Bool := (queueDescs ds q).all (fun d => !dStore d)

/-- The check of queue entry `i` (R210); of an unused queue only the reserved bits are checked. -/
def queueCheck (bs : List Byte) (h : PlanHeader) (qs : List QueueEntry) (fs : List FootEntry) (ds : List Desc) (i : Nat) :
    Option PlanFail :=
  let a : ItemAt := ⟨2, i, h.queueOff + 32 * i⟩
  let q := qs.getD i ⟨0, 0, 0, 0, 0, 0, 0, 0⟩
  let on := decide (q.count > 0)
  let slots := q.slots
  let minSlots := if q.linked && isLoadQueue ds q then 5 else 2
  let run := ringRun q
  firstFailure
    [chk a 0 31 0 1 q.first h.descCount (!on || decide (q.first < h.descCount)),
     chk a 4 31 0 1 q.count (h.descCount - q.first) (decide (q.count = 0 ∨ q.first + q.count ≤ h.descCount)),
     chkRsv a 8 19 13 q.ringBase,
     chk a 8 18 0 1 q.ringBase 0 (!on || slots == 0 || insideFoot fs run.1 run.2),
     chk a 8 18 0 4 q.ringBase 0 (!on || !(qs.take i).any (fun r =>
       decide (r.count > 0) && runsOverlap (ringRun r).1 (ringRun r).2 run.1 run.2)),
     chkRsv a 0xC 19 13 q.ringStride,
     chk a 0xC 18 0 2 q.ringStride 256 (!on || q.ringStride % 256 == 0),
     chk a 0x10 7 0 1 slots (if q.linked then 5 else 16)
       (!on || decide (minSlots ≤ slots ∧ slots ≤ 16) || (slots == 0 && !(q.linked && isLoadQueue ds q))),
     chk a 0x11 7 0 1 q.outstanding 64 (!on || decide (1 ≤ q.outstanding ∧ q.outstanding ≤ 64)),
     chk a 0x12 7 0 6 q.consumer 0 (!on || decide (q.consumer ≤ 3 ∨ (8 ≤ q.consumer ∧ q.consumer ≤ 15))),
     chkRsv a 0x13 2 5 q.group,
     chk a 0x13 1 0 7 (q.group % 4) h.groupCount (!on || decide (q.group < 128) || decide (q.group % 4 < h.groupCount)),
     chk a 0x14 95 0 8 (le bs (a.base + 0x14) 12) 0 (le bs (a.base + 0x14) 12 == 0)]

/-- The format every descriptor of the queues with a consumer has, when they fix one (R33). -/
def consumerFmt (qs : List QueueEntry) (ds : List Desc) (consumer : Nat) : Option Nat :=
  let l := (qs.filter (fun q => decide (q.count > 0) && q.consumer == consumer)).flatMap (queueDescs ds)
  match l with
  | [] => none
  | d :: r => if r.all (fun x => fcwFmt x.fmt == fcwFmt d.fmt) then some (fcwFmt d.fmt) else none

/-- Whether NEG_INF or POS_INF padding of descriptor `i` is not known to be wrong (R33): wrong only for an operand of the array whose pair the
plan's streams fix. -/
def padInfOk (qs : List QueueEntry) (ds : List Desc) (i : Nat) (d : Desc) : Bool :=
  qs.all (fun q =>
    if q.first ≤ i ∧ i < q.first + q.count ∧ (q.consumer = 1 ∨ q.consumer = 2) then
      match consumerFmt qs ds 1, consumerFmt qs ds 2 with
      | some _, some f2 =>
        let f1 := (consumerFmt qs ds 1).getD 0
        operandInfOk (fcwFmt d.fmt) (if q.consumer = 1 then f2 else f1)
      | _, _ => true
    else true)

/-- Whether a pass takes a packed tile on an axis other than the one the plan names for it (R47): a load of an operand of the array whose pair the
plan's streams fix as one of the FP8 or MXFP4 mode, where the free choice says so (log 61). The image has no axis field; the report names the descriptor's ctl (DESIGN CHOICE, log 61). -/
def wrongAxis (qs : List QueueEntry) (ds : List Desc) (i : Nat) (d : Desc) : Bool :=
  let packed (q : QueueEntry) : Bool := match consumerFmt qs ds (3 - q.consumer) with
    | some f => keepsScale (arrayForm (fcwFmt d.fmt) f)
    | none => false
  !dStore d && dKind d == 0 &&
    qs.any (fun q => decide (q.first ≤ i ∧ i < q.first + q.count) && (q.consumer == 1 || q.consumer == 2) && packed q) && Config.otherAxis d.raw

/-- The check of descriptor `i` of a plan (R47, R212 order 5). -/
def planDescCheck (h : PlanHeader) (levels : List Nat) (qs : List QueueEntry) (fs : List FootEntry) (ds : List Desc) (i : Nat)
    (d : Desc) : Option PlanFail :=
  let a : ItemAt := ⟨5, i, h.descOff + 64 * i⟩
  let env : DescEnv := ⟨h.loopCount, h.progCount, fun t => levels.getD t 0, padInfOk qs ds i d, false⟩
  let users := qs.filter (fun q => decide (q.first ≤ i ∧ i < q.first + q.count))
  let w := d.spad % 2 ^ 19
  let place := if dRing d then users.all (fun q => decide (q.slots > 0 ∧ w + tileWords d ≤ q.ringStride))
    else insideFoot fs w (tileWords d)
  match descCheck env a d with
  | some f => if f.offset > a.base + 0x18 ∧ !place then some ⟨5, 1, i, a.base + 0x18, 18, 0, w, 0⟩ else some f
  | none => firstFailure [chk a 0x18 18 0 1 w 0 place, chk a 0x10 63 0 7 d.ctl 0 (!wrongAxis qs ds i d)]

/-- Order 6: footprint entry `i` (R188, R211). -/
def footCheck (bs : List Byte) (h : PlanHeader) (fs : List FootEntry) (i : Nat) : Option PlanFail :=
  let a : ItemAt := ⟨6, i, h.footOff + 16 * i⟩
  let f := fs.getD i ⟨0, 0, 0, 0⟩
  let v := le bs a.base 16
  firstFailure
    [chk a 0 18 0 4 f.base 0 (!(fs.take i).any (fun g => decide (f.base ≤ g.limit ∧ g.base ≤ f.limit))),
     chk a 0 37 19 1 f.limit f.base (decide (f.base ≤ f.limit)),
     chkRsv a 0 38 18 (v % 2 ^ 64)]

/-- Order 7: group entry `i` (R211, R212). -/
def groupCheck (bs : List Byte) (h : PlanHeader) (qs : List QueueEntry) (ds : List Desc) (i : Nat) : Option PlanFail :=
  let a : ItemAt := ⟨7, i, h.groupOff + 16 * i⟩
  let v := le bs a.base 16
  let g := groupEntry bs h i
  let users := qs.filter (fun q => decide (q.count > 0 ∧ q.group ≥ 128) && q.group % 4 == i)
  let tile := (users.flatMap (queueDescs ds)).foldl (fun m d => max m (tileWords d)) 0
  let others := (List.range i).map (groupEntry bs h)
  firstFailure
    [chkRsv a 0 0 8 (v % 2 ^ 64),
     chk a 0 15 8 6 (v / 256 % 256) 1 (decide (v / 256 % 256 ≤ 1)),
     chkRsv a 0 16 8 (v % 2 ^ 64),
     chk a 0 31 24 1 g.slots 16 (decide (8 ≤ g.slots ∧ g.slots ≤ 16)),
     chk a 0 47 32 2 g.slotWords 256 (g.slotWords % 256 == 0),
     chk a 0 47 32 5 g.slotWords tile (decide (tile ≤ g.slotWords)),
     chk a 0 63 48 1 g.ringBase 32767 (decide (g.ringBase ≤ 32767 ∧ g.ringBase + g.slots * g.slotWords ≤ 32768)),
     chk a 0 63 48 4 g.ringBase 0 (!others.any (fun o =>
       runsOverlap o.ringBase (o.slots * o.slotWords) g.ringBase (g.slots * g.slotWords))),
     chk a 0 63 48 7 g.ringBase 0 (users.all (fun q => q.linked && isLoadQueue ds q)),
     chk a 8 63 0 8 (v / 2 ^ 64) 0 (v / 2 ^ 64 == 0)]

/-- Order 8: semaphore entry `i` (R204). -/
def semCheck (bs : List Byte) (h : PlanHeader) (i : Nat) : Option PlanFail :=
  let a : ItemAt := ⟨8, i, h.semOff + 8 * i⟩
  let v := le bs a.base 8
  firstFailure
    [chk a 0 31 0 8 (v % 2 ^ 32) 0 (v % 2 ^ 32 == 0),
     chk a 4 15 0 1 (v / 2 ^ 32 % 65536) 16 (decide (1 ≤ v / 2 ^ 32 % 65536 ∧ v / 2 ^ 32 % 65536 ≤ 16)),
     chk a 6 15 0 8 (v / 2 ^ 48) 0 (v / 2 ^ 48 == 0)]

/-- A pair that a descriptor names has an entry (R212 order 8). -/
def semNamed (h : PlanHeader) (i : Nat) (d : Desc) : Option PlanFail :=
  chk ⟨8, dSem d, h.descOff + 64 * i⟩ 0x10 19 16 7 (dSem d) h.semCount (!dHasSem d || decide (dSem d < h.semCount))

/-- Orders 1 to 8 of R212. -/
def planCheck (bs : List Byte) (planBytes : Nat) : Option PlanFail :=
  let h := planHeader bs
  match headerSection bs planBytes with
  | some f => some f
  | none =>
    let qs := queueTable bs h
    let fs := planFoot bs h
    let ds := planDescs bs h
    let levels := (List.range h.loopCount).map (fun i => le (loopTable bs h i) 0 1)
    firstFailure
      [(List.range 8).findSome? (queueCheck bs h qs fs ds),
       (List.range h.loopCount).findSome? (fun i => loopCheck ⟨3, i, h.loopOff + 128 * i⟩ (loopTable bs h i)),
       (List.range h.progCount).findSome? (progCheck bs h),
       (ds.mapIdx (planDescCheck h levels qs fs ds)).findSome? id,
       (List.range h.footCount).findSome? (footCheck bs h fs),
       (List.range h.groupCount).findSome? (groupCheck bs h qs ds),
       (List.range h.semCount).findSome? (semCheck bs h),
       (ds.mapIdx (semNamed h)).findSome? id]

/-! ### The plan store (R207, R212) -/

/-- A loaded plan. -/
def planOf (s : State) (id : Nat) : Option Plan := if id = 0 then none else tget none s.str.plans id

/-- The runs of the store in use, but for one plan. -/
def storeRuns (s : State) (except_ : Nat) : List (Nat × Nat) :=
  s.str.plans.filterMap (fun e => if e.1 = except_ then none else e.2.map (fun p => (p.offset, p.bytes)))

/-- The lowest offset, a multiple of 64, at which `n` bytes fit in the store (log 21); none when the store is absent (R207). -/
def storeRoom (s : State) (except_ n : Nat) : Option Nat :=
  let runs := storeRuns s except_
  let cand := 0 :: runs.map (fun r => (r.1 + r.2 + 63) / 64 * 64)
  let ok := cand.filter (fun o =>
    decide (cfgVal s 0x4000 0 ≠ 0 ∧ o + n ≤ cfgVal s 0x4001 0) && !runs.any (fun r => runsOverlap r.1 r.2 o n))
  ok.foldl (fun b o => match b with
    | none => some o
    | some x => some (min x o)) none

/-- The plan a command names (R98, R100, R214, R330); STREAM_REARM that of the stream its handle names (R215). -/
def cmdPlan (s : State) (c : Cmd) : Nat :=
  let p := slotAt s c.key
  match c.opcode with
  | 0x0301 => param p 0x66 16
  | 0x0302 => param p 0x66 16
  | 0x0303 => param p 0x4E 16
  | 0x0304 => param p 0x56 16
  | 0x0401 => param p 0x30 16
  | 0x0402 => (tget Queue.reset s.str.queues (param p 0 64 / 2 ^ 24 % 2 ^ 11)).plan
  | _ => 0

/-- Whether a plan is in use by an unfinished command; a PARKED stream is none (R212, R215). -/
def planInUse (s : State) (id : Nat) : Bool := s.cmds.any (fun c => c.stage ≠ .checking && cmdPlan s c == id)

/-- The firmware that makes the accesses of a command not yet placed uses the translation unit of die 0 (log 22). -/
def whoCmd (k : Nat) : Who := { die := 0, key := some k }

/-- A PLAN_LOAD that fails a check of R212: the report, its long reply when one is asked for (R213); it waits while it may not write host
memory (R351, R352). -/
def rejectPlan {α : Type} (k : Nat) (f : PlanFail) : Act α := do
  let bs := planReport f
  let wants := hdrField (slotAt (← get) k) 0x10 64 ≠ 0
  if hostHeld (← get) k && decide wants then throw (.park .checking)
  let n ← if wants then do
      let ((n, _), s) := longReply (← get) k bs
      set s
      pure n
    else pure 0
  throw (.reject { code := 0x10, keep := wants, long := n, plan := some bs, result := BitVec.ofNat 64 (bytesNat (bs.take 8)) })

/-- The parameters of PLAN_LOAD, field by field (R212). -/
def planLoadParams (p : SlotWord) : Act Unit := do
  let unload := paramBit p 0xE 0
  let base := param p 0 64
  let n := param p 8 32
  let id := param p 0xC 16
  reservedParam p 0 52 12
  if unload then checkParam (base == 0) 0 0 64 1 base 0 else checkParam (base % 64 == 0) 0 0 64 2 base 64
  if unload then checkParam (n == 0) 8 0 32 1 n 0
  else checkRange 8 0 32 n 64 (2 ^ 22)
  checkRange 0xC 0 16 id 1 65535
  reservedParam p 0xE 1 15
  reservedFrom p 0x10

/-- A poisoned image ends the command with a POISON_CTL record of its own kind (R410). -/
def readImage (k asid va n : Nat) : Act (List Byte) := readCtl (whoCmd k) asid va n 5

/-- A run of the plan store written or read in PGK_POOL_ASID; R104 applies to it (R207). -/
def storeWrite (k off : Nat) (bs : List Byte) : Act Unit := do
  let w := whoCmd k
  for (a, n) in pagePieces (bs.length / 2 ^ 25 + 2) (cfgVal (← get) 0x4000 0 + off) bs.length do
    poolWrite w a ((bs.drop (a - (cfgVal (← get) 0x4000 0 + off))).take n)

/-- The image of a loaded plan as it lies in the store (R207), for the command or stream that runs it. -/
def loadedImage (w : Who) (p : Plan) : Act (List Byte) := do
  let mut out : List Byte := []
  for (a, n) in pagePieces (p.bytes / 2 ^ 25 + 2) (cfgVal (← get) 0x4000 0 + p.offset) p.bytes do
    out := out ++ (← poolRead w a n 5)
  return out

/-- The bytes of a loaded plan, looked at without an access (for footprints, which firmware keeps). -/
def planBytesOf (s : State) (id : Nat) : List Byte :=
  match planOf s id with
  | none => []
  | some p =>
    (pagePieces (p.bytes / 2 ^ 25 + 2) (cfgVal s 0x4000 0 + p.offset) p.bytes).flatMap (fun e =>
      match peekPool s 0 e.1 with
      | some pa => (s.pmem.reads pa e.2).map (·.1)
      | none => List.replicate e.2 0)

/-- PLAN_LOAD (R212, R213). -/
def planLoadDef : OpDef where
  need p := if hdrField p 0x10 64 = 0 then 0 else 32
  check k := do
    let s ← get
    let p := slotAt s k
    planLoadParams p
    let id := param p 0xC 16
    if paramBit p 0xE 0 then
      checkParam (planOf s id).isSome 0xC 0 16 7 id 0
      if planInUse s id then throw (.reject busyReject)
      return []
    needXlt
    let n := param p 8 32
    let bs ← readImage k (cmdAsid s k) (param p 0 64) n
    match planCheck bs n with
    | some f => rejectPlan k f
    | none => pure ()
    let s ← get
    let others := s.str.plans.filter (fun e => decide (e.1 ≠ id) && e.2.isSome)
    if others.length ≥ 256 then rejectPlan k ⟨9, 5, 0, 0, 0, 0, others.length, 256⟩
    if (storeRoom s id n).isNone then rejectPlan k ⟨9, 5, 0, 0, 0, 0, n, cfgVal s 0x4001 0⟩
    if planInUse s id then throw (.reject busyReject)
    return []
  body k := do
    let s ← get
    let p := slotAt s k
    let id := param p 0xC 16
    if paramBit p 0xE 0 then
      set { s with str := { s.str with plans := tset none s.str.plans id none } }
      return {}
    let n := param p 8 32
    let bs ← readImage k (cmdAsid s k) (param p 0 64) n
    match storeRoom (← get) id n with
    | none => abortWith 0x20
    | some off =>
      storeWrite k off bs
      modify (fun s => { s with str := { s.str with plans := tset none s.str.plans id (some ⟨off, n⟩) } })
      return {}

/-- The descriptor of a plan's image that loads or stores the tensor at a base. -/
def planTensor (img : List Byte) (base : Nat) (store : Bool) : Option Desc :=
  (planDescs img (planHeader img)).find? (fun d => dKind d == 0 && dStore d == store && d.base == base)

/-! ### Footprints (R188, R208, R211) -/

/-- What a command or stream holds of one core: word ranges, windows, counters, semaphore pairs (R188, R205). -/
structure Footprint where
  words : List (Nat × Nat)
  wins : Nat
  ctrs : Nat
  sems : Nat
  deriving DecidableEq, Repr

/-- The footprint of lane `n` of a standard plan (R208). -/
def laneFoot (n : Nat) : Footprint :=
  ⟨[(n * 0x20000, n * 0x20000 + 0x1FFFF)], 3 * 2 ^ (2 * n), 0xFFFF * 2 ^ (16 * n), 0xF * 2 ^ (4 * n)⟩

/-- The footprint of a loaded plan (R211), its pairs those it has entries for (R205). -/
def imageFoot (bs : List Byte) : Footprint :=
  let h := planHeader bs
  let fs := planFoot bs h
  ⟨fs.map (fun f => (f.base, f.limit)), fs.foldl (fun m f => m ||| f.wins) 0, fs.foldl (fun m f => m ||| f.ctrs) 0,
    2 ^ h.semCount - 1⟩

/-- Whether two footprints share a word, window, counter or pair (R188). -/
def footsMeet (a b : Footprint) : Bool :=
  a.words.any (fun x => b.words.any (fun y => decide (x.1 ≤ y.2 ∧ y.1 ≤ x.2))) || (a.wins &&& b.wins) ≠ 0 ||
    (a.ctrs &&& b.ctrs) ≠ 0 || (a.sems &&& b.sems) ≠ 0

/-- The footprint of a command on a cluster: its lane under a standard plan, else its plan's. -/
def cmdFoot (s : State) (c : Cmd) (h : Hold) : Footprint :=
  let id := cmdPlan s c
  if id = 0 then laneFoot h.lane else imageFoot (planBytesOf s id)

/-- The footprint a standalone stream holds (R214). -/
def streamFoot (s : State) (q : Queue) : Footprint := imageFoot (planBytesOf s q.plan)

/-- Everything held on a core: the unfinished commands of its cluster and the standalone streams on it. -/
def heldFoots (s : State) (core : Nat) : List (Option Nat × Footprint) :=
  (s.cmds.flatMap (fun c => (c.holds.filter (fun h => h.cluster == clusterOf core)).map (fun h => (some c.key, cmdFoot s c h)))) ++
    (s.str.queues.filter (fun e => decide (e.1 / 8 = core) && e.2.state ≠ .free && (e.2.state == .parked || standalone s e.2))).map (fun e =>
      (if e.2.state = .parked then none else some e.2.key, streamFoot s e.2))

/-- The command that owns what a footprint mask names on a core, when it is unfinished. -/
def ownerBy (s : State) (core : Nat) (p : Footprint → Bool) : Option Nat :=
  ((heldFoots s core).filter (fun e => p e.2)).findSome? (·.1)

/-- The command that owns an arrival counter, a window or a pair of a core. -/
def ownerOfCounter (s : State) (core c : Nat) : Option Nat := ownerBy s core (fun f => f.ctrs.testBit c)
def ownerOfWindow (s : State) (core w : Nat) : Option Nat := ownerBy s core (fun f => f.wins.testBit w)

end Sys2Proof.Machine
end

