-- ==== Sys2Proof/Machine/Release.lean ====
section
/-! DEFINITION. What the end of a command releases, and the ends themselves (spec/07_scratchpad.md R182, spec/05_kv_pages.md R111,
spec/08_streams.md R216, R217, R222, spec/12_host_interface.md R312). -/
namespace Sys2Proof.Machine

/-- One stream queue. -/
def queueAt (s : State) (core q : Nat) : Queue := tget Queue.reset s.str.queues (core * 8 + q)

/-- One stream queue replaced. -/
def setQueue (s : State) (core q : Nat) (x : Queue) : State :=
  { s with str := { s.str with queues := tset Queue.reset s.str.queues (core * 8 + q) x } }

/-- A command's hold on a cluster changed. -/
def updHold (s : State) (k g : Nat) (f : Hold → Hold) : State :=
  updCmd s k (fun c => { c with holds := c.holds.map (fun h => if h.cluster = g then f h else h) })

/-- A queue whose stream has ended: FREE, its generation advanced (R217). -/
def endStream (q : Queue) : Queue := { Queue.reset with gen := q.gen + 1 }

/-- A table changed entry by entry, entries that become the default leaving it. -/
def tmap {α : Type} [DecidableEq α] (d : α) (f : Nat → α → α) (t : Table α) : Table α :=
  t.filterMap (fun e => if f e.1 e.2 = d then none else some (e.1, f e.1 e.2))

/-- Whether a queue runs a stream for a command. -/
def runsFor (k : Nat) (q : Queue) : Bool := q.key == k && (q.state == .running || q.state == .faulted)

/-! ### Handoff notices (R187) -/

/-- A handoff notice (R187). -/
def noticeWord (kind queue : Nat) (poison : Bool) (amount ctr tag gaddr : Nat) : Word128 :=
  BitVec.ofNat 128 (gaddr % 2 ^ 27 + tag % 2 ^ 32 * 2 ^ 32 + ctr % 256 * 2 ^ 64 + amount % 2 ^ 32 * 2 ^ 72 + bit poison * 2 ^ 104 +
    queue % 256 * 2 ^ 112 + kind % 256 * 2 ^ 120)

/-- A notice posted (R187). -/
def postNotice (s : State) (core dest : Nat) (n : Word128) : State :=
  bumpSpd { s with spad := { s.spad with notices := s.spad.notices ++ [(dest, n)] } } (clusterOf core) 0x68 1

/-- The DATA notice of a queue's handoff unit, with its destination (R187). -/
def unitNotice (s : State) (core qi : Nat) (q : Queue) : Nat × Word128 :=
  let img := planBytesOf s q.plan
  let h := planHeader img
  let raw := (img.drop (h.descOff + 64 * ((queueEntry img h qi).first + q.unitDesc))).take 64
  let d := descOf (BitVec.ofNat 512 (bytesNat raw))
  (d.base, noticeWord 0 qi q.unitPoison q.unitBytes 0 d.tag (gaddrOf core q.unitFirst))

/-- The streams of a command that runs end, a whole handoff unit with its notice; the queues keep the next generation (R187, R217). -/
def endStreams (s : State) (k : Nat) : State :=
  let s := (s.str.queues.filter (fun e => runsFor k e.2 && e.2.unitDone)).foldl (fun s e =>
    let n := unitNotice s (e.1 / 8) (e.1 % 8) e.2
    postNotice s (e.1 / 8) n.1 n.2) s
  { s with str := { s.str with queues := tmap Queue.reset (fun _ q => if runsFor k q then endStream q else q) s.str.queues } }

/-- The waiters of a command leave the walks and faults they wait for; the faults stand (R221). -/
def dropWaiters (s : State) (k : Nat) : State :=
  let keep (ws : List Waiter) : List Waiter := ws.filter (fun w => w.key ≠ k)
  { s with xlt := { s.xlt with
    miss := s.xlt.miss.map (fun e => (e.1, e.2.map (fun m =>
      { m with waiters := keep m.waiters, retryFor := if m.retryFor = some k then none else m.retryFor })))
    pend := s.xlt.pend.map (fun e => (e.1, e.2.map (fun p => { p with waiters := keep p.waiters })))
    missRegs := s.xlt.missRegs.filter (fun e => e.2.2.key ≠ k) } }

/-- The page moves of a command that ends are aborted (R123). -/
def abortMovesOf (s : State) (k : Nat) : State :=
  let s := (s.pgk.moves.filter (fun m => m.reason == .command k && m.started)).foldl (fun s m =>
    runQuiet (do
      let w : Who := { die := numDie m.page, key := some k }
      let h ← readHdr w m.page
      let _ ← abortMove w m.page h) s) s
  { s with pgk := { s.pgk with moves := s.pgk.moves.filter (fun m => m.reason ≠ .command k) } }

/-- What the links keep for a ring command goes with it: its credits and its blocks (R298, R300). -/
def forgetRing (s : State) (c : Cmd) : State :=
  match c.ringSeq with
  | none => s
  | some seq =>
    let g := (tget Session.reset s.sessions (cmdSession s c.key % 256)).ringGroup
    { s with ktl := { s.ktl with
      credits := s.ktl.credits.filter (fun x => !(decide (x.2.toNat / 2 ^ 48 % 2 ^ 16 = seq.toNat) && decide (x.2.toNat / 2 ^ 45 % 4 = g)))
      inbound := s.ktl.inbound.filter (fun i => i.group ≠ g) } }

/-! ### Restorations that end (R125) -/

/-- RESTORING cleared, near frames not used given back, and every walk that waits for the page goes on (R125). -/
def endRestore (s : State) (page : Nat) : State :=
  let s := runQuiet (do
    let w : Who := { die := numDie page }
    let h ← readHdr w page
    writeHdr w page { h with restoring := false }) s
  let frames := (s.pgk.restores.filter (fun r => r.page == page)).flatMap (fun r => r.frames)
  let s := frames.foldl (fun s f => returnFrame s (numDie f.1) 0 f.2) s
  let s := dropWaits s (fun a => a.restore == some page)
  { s with pgk := { s.pgk with restores := s.pgk.restores.filter (fun r => r.page ≠ page) } }

/-- A restoration that failed: the page stays DROPPED and is recorded, and the walks that wait for it take it as it is (R125). -/
def failRestore (s : State) (r : Restore) : State :=
  let waiting := (s.pgk.restores.filter (fun x => x.page == r.page)).map (fun x => x.key)
  let s := report s { cause := 0x15, source := pgkSource (numDie r.page), key := some r.key, cluster := r.cluster, addr := r.page }
  let s := waiting.foldl (fun s k => updCmd s k (fun c => { c with unrestored := insertNat r.page c.unrestored })) s
  endRestore s r.page

/-- Whether a request is the one whose restoration runs: the first for its page (R125). -/
def runsRestore (s : State) (r : Restore) : Bool := s.pgk.restores.find? (fun x => x.page == r.page) == some r

/-- The restorations of a command that ends: those that run for it complete other than OK and so fail; its other requests go (R125). -/
def endRestoresOf (s : State) (k : Nat) : State :=
  let s := (s.pgk.restores.filter (fun r => r.key == k && runsRestore s r)).foldl failRestore s
  { s with pgk := { s.pgk with restores := s.pgk.restores.filter (fun r => r.key ≠ k) } }

/-- Everything a command holds, released: streams, windows it left OPEN, groups, update units, waiting allocations and restorations,
moves, transfers over the links, waiters and pins. -/
def releaseAll (s : State) (k : Nat) : State :=
  let s := (cmdOf s k).elim s (fun c => forgetRing (c.holds.foldl (fun s h => unpinHold s k h) s) c)
  let s := dropWaits (endRestoresOf (abortMovesOf s k) k) (fun a => a.key == k)
  let s := dropWaiters (closeWindowsOf (endStreams s k) k) k
  let groups := tmap none (fun _ (g : Option Group) => if g.any (fun x => x.key == k) then none else g) s.str.groups
  let s := s.upd.units.foldl (fun s e => if e.2.key = some k ∧ e.2.faulted then bumpFree s (0x5000 + e.1 * 0x80) 0x30 else s) s
  let units := tmap UpdUnit.reset (fun _ (u : UpdUnit) => if u.key = some k then { u with key := none, faulted := false } else u) s.upd.units
  let transfers := s.ktl.transfers.filter (fun t => t.key ≠ k)
  let ports := tmap KtlPort.reset (fun _ (p : KtlPort) => { p with waiting := p.waiting.filter (fun w => w.key ≠ some k) }) s.ktl.ports
  { s with
    str := { s.str with groups := groups }
    upd := { s.upd with units := units }
    ktl := { s.ktl with transfers := transfers, ports := ports } }

/-- A command that holds parts of the machine completes with a success code. -/
def finishCmd (s : State) (k : Nat) (r : Reply) : State := completeCmd (releaseAll s k) k r

/-- The result of UPD_STEP (R272). -/
def updResult (c : Cmd) : BitVec 64 :=
  BitVec.ofNat 64 (c.rows % 2 ^ 32 + 2 ^ 32 * min c.guarded 0xFFFF + 2 ^ 48 * min c.poisonRows 0xFFFF)

/-- The result an aborted command still reports: the rows of an UPD_STEP (R276, R278). -/
def abortResult (c : Cmd) : BitVec 64 := if c.opcode = 0x0502 then updResult c else 0

/-- A command that holds parts of the machine ends with an abort code. -/
def abortCmd (s : State) (k code : Nat) : State :=
  endCmd (releaseAll s k) k code { result := (cmdOf s k).elim 0 abortResult }

/-- The command that an error stops completes ABORTED_FAULT; with no command the record alone remains. -/
def abortOwner (s : State) (k : Option Nat) : State :=
  match k with
  | some k => abortCmd s k 0x20
  | none => s

end Sys2Proof.Machine
end

