-- ==== Sys2Proof/Machine/Keeper.lean ====
section
/-! DEFINITION. What page keepers do of their own: moves, automatic demotion, drops for capacity, evacuation and the removal of far
modules (spec/05_kv_pages.md R119 to R129, spec/09_memory_and_translation.md R236, R239). -/
namespace Sys2Proof.Machine

/-! ### Moves (R123) -/

/-- Moves in progress on a die. -/
def movesOn (s : State) (d : Nat) : List Move := s.pgk.moves.filter (fun m => m.started && numDie m.page == d)

/-- Whether a page may be moved out of its tier now (R123, R129): pin 0, not MOVING, in the source tier. -/
def mayMove (h : PageHdr) (toFar : Bool) : Bool :=
  h.pin == 0 && !h.moving && !h.poison && h.tier == (if toFar then 0 else 1) &&
    (h.state == 2 || h.state == (if toFar then 1 else 3))

/-- A free frame of the other tier of a page's die. -/
def moveFrame (s : State) (d : Nat) (toFar : Bool) : Option Nat := if toFar then freeFar s d else freeNear s d

/-- A frame taken from its pool. -/
def takeFrame (s : State) (d : Nat) (far : Bool) (f : Nat) : State :=
  updPools s d (fun p => if far then { p with far := insertNat f p.far } else { p with near := insertNat f p.near })

/-- A move begins: its frame is taken and MOVING set (R123). -/
def beginMove (s : State) (m : Move) (f : Nat) : State :=
  let d := numDie m.page
  let m' := { m with newFrame := f, started := true }
  match (do
      let w : Who := { die := d }
      let h ← readHdr w m.page
      writeHdr w m.page { h with moving := true } : Act Unit).run s with
  | .ok _ s => takeFrame { s with pgk := { s.pgk with moves := s.pgk.moves ++ [m'] } } d m.toFar f
  | .error _ s => countMove s m false

/-- One waiting move taken up: begun, or skipped when its page may not be moved (R133). -/
def tryMove (s : State) (m : Move) : State :=
  let d := numDie m.page
  let s := faultHdr s m.page
  let ok := (peekHdr s m.page).any (fun h => mayMove h m.toFar)
  match if ok && !dieFenced s d then moveFrame s d m.toFar else none with
  | some f => beginMove s m f
  | none => countMove s m false

/-- Waiting moves taken up while their page keeper has fewer than 16 in progress (R117). -/
def takeUpMoves (s : State) : State :=
  (s.pgk.moves.filter (fun m => !m.started)).foldl (fun s m =>
    if (movesOn s (numDie m.page)).length < 16 then
      tryMove { s with pgk := { s.pgk with moves := removeFirst (fun x => x == m) s.pgk.moves } } m
    else s) s

/-- A move's copy ends and commits: frame and TIER in one step, the old frame returned (R123). -/
def commitMove (s : State) (page : Nat) : State :=
  match moveOf s page with
  | none => s
  | some m =>
    let d := numDie page
    let w : Who := { die := d }
    match (do
        let h ← readHdr w page
        copyFrames w (hdrForm h) d h.tier h.frame d (if m.toFar then 1 else 0) m.newFrame
        let st := if h.state = 2 then 2 else if m.toFar then 3 else 1
        writeHdr w page { h with frame := m.newFrame, tier := if m.toFar then 1 else 0, moving := false, state := st }
        modify (fun s => returnFrame s d h.tier h.frame) : Act Unit).run s with
    | .ok _ s =>
      let s := { s with pgk := { s.pgk with moves := s.pgk.moves.filter (fun x => !(x.page == page && x.started)) } }
      countMove (bumpPgk s d (if m.toFar then 0x48 else 0x50) 1) m true
    | .error _ s =>
      runQuiet (do
        let h ← readHdr w page
        let _ ← abortMove w page h) s

/-! ### Automatic demotion (R121, R122) -/

/-- Whether free near frames are below a percentage of the die's near frames. -/
def nearBelow (s : State) (d pct : Nat) : Bool := decide (nearFree s d * 100 < pct * cfgVal s 0x1016 d)

/-- The order of victims (R121): retain class, then a second key, then touch, then page number. -/
def victimLt (a b : Nat × Nat × Nat × Nat) : Bool :=
  decide (a.1 < b.1) || (a.1 == b.1 && (decide (a.2.1 < b.2.1) || (a.2.1 == b.2.1 &&
    (decide (a.2.2.1 < b.2.2.1) || (a.2.2.1 == b.2.2.1 && decide (a.2.2.2 < b.2.2.2))))))

/-- Insertion into a list ordered by `victimLt`. -/
def insertVictim (x : Nat × Nat × Nat × Nat) : List (Nat × Nat × Nat × Nat) → List (Nat × Nat × Nat × Nat)
  | [] => [x]
  | y :: r => if victimLt x y then x :: y :: r else y :: insertVictim x r

/-- The pages of a die that a test admits, in the order of R121 with a second key of its own. -/
def victims (s : State) (d : Nat) (ok : PageHdr → Bool) (key : PageHdr → Nat) : List Nat :=
  let l := (poolsOf s d).headers.filterMap (fun i =>
    let p := mkNum d i
    match peekHdr s p with
    | some h => if ok h then some (hdrRetain h, key h, h.touch, p) else none
    | none => none)
  (l.foldr insertVictim []).map (fun x => x.2.2.2)

/-- Automatic demotions of one die begun, as many as bring its free near frames to PGK_DEMOTE_HIGH (R121). -/
def demoteDie (s : State) (d : Nat) : State :=
  let frames := cfgVal s 0x1016 d
  if frames = 0 ∨ dieFenced s d then s
  else
    let low := scopeVal s 0x101A d
    let high := scopeVal s 0x101B d
    let was := tget false s.pgk.demoting d
    let on := if !nearBelow s d high then false else if nearBelow s d low then true else was
    let s := { s with pgk := { s.pgk with demoting := tset false s.pgk.demoting d on } }
    let inFlight := ((movesOn s d).filter (fun m => m.toFar)).length
    let goal := if on then (high * frames + 99) / 100 else if s.pgk.allocWaits.any (fun a => a.held.isNone) ∧ nearFree s d = 0 then 1 else 0
    let n := min (goal - nearFree s d - inFlight) (16 - (movesOn s d).length)
    let s := if n = 0 then s else scanHdrs s d
    if n = 0 ∨ dieFenced s d then s
    else
      ((victims s d (fun h => mayMove h true) (fun h => if h.state = 1 then 0 else 1)).take n).foldl (fun s p =>
        match freeFar s d with
        | some f => beginMove s ⟨p, true, 0, .automatic, false⟩ f
        | none => s) s

/-! ### Drops for capacity (R124) -/

/-- Whether a die looks for a page to drop for a waiting allocation: no far frame free, no demotion in progress, a free header for a new
page. -/
def dropLooks (s : State) (a : AllocWait) (d : Nat) : Bool :=
  !dieFenced s d && (freeFar s d).isNone && !(movesOn s d).any (fun m => m.toFar) && (a.only.isSome || (freeHeader s d).isSome)

/-- The page that a die would drop: one that may be dropped, in the order of victims. -/
def dropVictim (s : State) (d : Nat) : Option Nat :=
  (victims s d
    (fun h => (h.state == 1 || h.state == 3) && h.refcount == 1 && h.pin == 0 && !h.moving)
    (fun h => if h.state = 3 then 0 else 1)).head?

/-- The dies asked in turn until one has a page to drop; each that looks reads its headers (R104, R124). -/
def askDrop (a : AllocWait) (s : State) : List Nat → Option Nat × State
  | [] => (none, s)
  | d :: rest =>
    let s := if dropLooks s a d then scanHdrs s d else s
    match if dropLooks s a d then dropVictim s d else none with
    | some p => (some p, s)
    | none => askDrop a s rest

/-- The dies that a waiting allocation asks for a drop, in order (R119, R120, R124). -/
def dropOrder (a : AllocWait) : List Nat := match a.only with
  | some d => [d]
  | none => allocOrder (a.cluster / 4)

/-- One waiting allocation's drop, which serves it where it frees a near frame (R124). -/
def capacityDrop (s : State) (a : AllocWait) : State :=
  if a.dropped ∨ a.held.isSome then s
  else match askDrop a s (dropOrder a) with
    | (none, s) => s
    | (some p, s) =>
      let s := runQuiet (do
        let w : Who := { die := numDie p }
        let h ← readHdr w p
        dropPage w p h 1 false) s
      let a' := { a with dropped := true }
      serveWait { s with pgk := { s.pgk with allocWaits := s.pgk.allocWaits.map (fun x => if x = a then a' else x) } } a'

/-! ### Far modules (R128, R239) -/

/-- Whether a page's far frame lies on a module. -/
def onModule (s : State) (m page : Nat) (h : PageHdr) : Bool :=
  h.tier == 1 && (h.state == 2 || h.state == 3) && decide (frameModule s (numDie page) h.frame = some m)

/-- The pages of a die whose far frames lie on a module, in ascending page number. -/
def pagesOn (s : State) (m d : Nat) : List Nat :=
  ((poolsOf s d).headers.map (mkNum d)).filter (fun p => (peekHdr s p).any (onModule s m p))

/-- Promotions off an EVACUATING module begun (R239). -/
def evacuateDie (s : State) (m d : Nat) : State :=
  let s := scanHdrs s d
  if dieFenced s d then s
  else
    (pagesOn s m d).foldl (fun s p =>
      if nearBelow s d (scopeVal s 0x101A d) ∨ (movesOn s d).length ≥ 16 then s
      else if (peekHdr s p).any (fun h => mayMove h false) then
        match freeNear s d with
        | some f => beginMove s ⟨p, false, 0, .evacuation m, false⟩ f
        | none => s
      else s) s

/-- Everything a page keeper takes up of its own at the end of a step: waiting allocations first (R129), then waiting moves, demotion, drops
and evacuation. -/
def keeperWork (s : State) : State :=
  let s := takeUpMoves (serveWaits s)
  let s := (List.range 8).foldl demoteDie s
  let s := s.pgk.allocWaits.foldl capacityDrop s
  (s.xlt.farModules.filter (fun e => e.2.state == 2)).foldl (fun s e => (List.range 8).foldl (fun s d => evacuateDie s e.1 d) s) s

/-- One page on a removed module (R128): a demotion to it is aborted; a page on it is dropped and recorded. -/
def removePage (s : State) (m page : Nat) : State :=
  let d := numDie page
  let w : Who := { die := d }
  let toGone := (moveOf s page).any (fun x => x.toFar && decide (frameModule s d x.newFrame = some m))
  match peekHdr s page with
  | none => s
  | some h =>
    if toGone then runQuiet (do
      let h ← readHdr w page
      let _ ← abortMove w page h) s
    else if onModule s m page h then
      let s := runQuiet (do
        let h ← readHdr w page
        let h ← abortMove w page h
        dropPage w page h 2 false) s
      report s { cause := 0x16, source := pgkSource d, addr := page, info0 := 2 }
    else s

/-- The groups of 1,024 far frames of a die that lie on a module. -/
def groupsOn (s : State) (m d : Nat) : List Nat :=
  (List.range (scopeVal s 0x1019 d / 1024)).filter (fun i => decide (frameModule s d (i * 1024) = some m))

/-- The removal report reaches every page keeper (R128, R236). -/
def farRemoval (s : State) (m : Nat) : State :=
  let f := farModule s m
  if !f.reported then s
  else
    let s := { s with xlt := { s.xlt with farModules := tset FarModule.reset s.xlt.farModules m { f with reported := false } } }
    (List.range 8).foldl (fun s d =>
      let s := scanHdrs s d
      if dieFenced s d then s
      else
        let s' := ((poolsOf s d).headers.map (mkNum d)).foldl (fun s p => removePage s m p) s
        updPools s' d (fun p => { p with farGone := (groupsOn s m d).foldl (fun l i => insertNat i l) p.farGone })) s

/-! ### Waiting allocations (R119) -/

/-- The wait of an allocation, in ticks: PGK_ALLOC_WAIT at its command's configuration epoch. -/
def allocBudget (s : State) (a : AllocWait) : Nat :=
  ticksCeil ((cmdOf s a.key).elim (cfgVal s 0x1002 0) (fun c => cmdVal s c 0x1002 0))

end Sys2Proof.Machine
end

