-- ==== Sys2Proof/Machine/KvCommands.lean ====
section
/-! DEFINITION. The commands of the page keepers: SEQ_CREATE, SEQ_FREE, SEQ_TRUNCATE, KV_DEMOTE, KV_PROMOTE and KV_RECOMPUTE_LIST
(spec/05_kv_pages.md R112, R130 to R135). -/
namespace Sys2Proof.Machine

/-! ### Sequences as commands name them -/

/-- The page keeper that acts on a sequence for a command (R112). -/
def seqWho (s : State) (k n : Nat) : Who := homeWho s { die := 0, key := some k } n

/-- A sequence's descriptor, once translated memory can be read (R229); without a sequence table every sequence is FREE (R102, R112). -/
def loadSeq (k n : Nat) : Act SeqDesc := do
  needXlt
  let s ← get
  if cfgVal s 0x1001 0 = 0 then return seqOf [] else readSeq (seqWho s k n) n

/-- A sequence ID in the parameter area that must name an ACTIVE sequence. -/
def activeSeq (k o : Nat) : Act SeqDesc := do
  let n := param (slotAt (← get) k) o 16
  let q ← loadSeq k n
  checkParam (q.state == 1) o 0 16 7 n 0
  return q

/-- The sequences a packed ATTN_FWD names: those of the table it was accepted with, before that of its pack table where it can be looked at
(R88). -/
def packSeqs (s : State) (k : Nat) : List Nat :=
  match (cmdOf s k).map (fun c => c.packTable) with
  | some (e :: es) => (e :: es).map (fun v => v / 2 ^ 16 % 65536)
  | _ =>
    let p := slotAt s k
    let base := param p 0x38 64
    (List.range (param p 0x7A 16)).filterMap (fun i =>
      match (xlateNow { die := 0 } (cmdAsid s k) (base + 16 * i) 1 s).1 with
      | .ok pa => some (bytesNat (peekBytes s (pa + 2) 2))
      | .error _ => none)

/-- The sequences that the command of a slot names. -/
def slotSeqs (s : State) (k : Nat) : List Nat :=
  let p := slotAt s k
  let at16 (o : Nat) : Nat := param p o 16
  match slotBits p 0 16 with
  | 0x0201 => [at16 0x10]
  | 0x0202 => [at16 0x08, at16 0x0A]
  | 0x0203 => [at16 0x00]
  | 0x0204 => [at16 0x08]
  | 0x0206 => [at16 0x20]
  | 0x0207 => [at16 0x20]
  | 0x0208 => [at16 0x00]
  | 0x0209 => [at16 0x00]
  | 0x020A => if paramBit p 2 0 then [] else [at16 0x00]
  | 0x0301 => if param p 0x38 64 ≠ 0 then packSeqs s k else [at16 0x5C]
  | 0x0302 => [at16 0x5C]
  | 0x0303 => if paramBit p 0x56 0 then [at16 0x44] else []
  | _ => []

/-- The slots whose commands have not completed: admitted, or waiting in them (R131, R322). -/
def openSlots (s : State) : List Nat := s.cmds.map (fun c => c.key) ++ s.host.handovers

/-- Whether another command in a slot that has not completed names a sequence (R131). -/
def seqBusy (s : State) (k n : Nat) : Bool := (openSlots s).any (fun j => j ≠ k && (slotSeqs s j).contains n)

/-- The busy rule of R131. -/
def checkSeqBusy (k n : Nat) : Act Unit := do
  if seqBusy (← get) k n then throw (.reject busyReject)

/-! ### Page tables walked whole (R113) -/

/-- The valid entries of a node, with their indices. -/
def nodeEntries (w : Who) (node : Nat) : Act (List (Nat × PageEntry)) := do
  let bs ← poolRead (ofDie w (numDie node)) (nodeVa (← get) node) 4096 0
  return (chunksOf 8 512 bs).zipIdx.filterMap (fun e =>
    let x := entryOf (bytesNat e.1)
    if x.v then some (e.2, x) else none)

/-- An entry of a node that is no page entry must name a node (R110, R114). -/
def nodeEntry (w : Who) (e : PageEntry) : Act Unit := if e.kind then pageIllegal w e.number 6 0 else pure ()

/-- The header of the page an entry maps; a KIND or gen that does not match is illegal (R110, R114). -/
def entryPage (w : Who) (e : PageEntry) : Act PageHdr := do
  if !e.kind then pageIllegal w e.number 6 0
  else
    let h ← legalHdr w e.number
    if h.gen ≠ e.gen then pageIllegal w e.number 6 (hdrCtl h) else return h

/-- The page entries below a node, `levels` levels up from P0, in ascending order; each with the indices on its path in base 512 and the
node that holds it. -/
def leafEntries (w : Who) : Nat → Nat → Nat → Act (List (Nat × Nat × PageEntry))
  | 0, _, _ => pure []
  | 1, node, acc => do
    let es ← nodeEntries w node
    return es.map (fun e => (acc * 512 + e.1, node, e.2))
  | n + 2, node, acc => do
    let mut out := []
    for e in (← nodeEntries w node) do
      nodeEntry w e.2
      out := out ++ (← leafEntries w (n + 1) e.2.number (acc * 512 + e.1))
    return out

/-- The nodes of a tree, each after its parent. -/
def treeNodes (w : Who) : Nat → Nat → Act (List Nat)
  | 0, _ => pure []
  | 1, node => pure [node]
  | n + 2, node => do
    let mut out := [node]
    for e in (← nodeEntries w node) do
      nodeEntry w e.2
      out := out ++ (← treeNodes w (n + 1) e.2.number)
    return out

/-- Levels of a sequence's table, D1 and D0 among them (R113). -/
def seqLevels (q : SeqDesc) : Nat := q.depth + 2

/-- Layer, head and page index of a path of a sequence. -/
def leafAt (q : SeqDesc) (path : Nat) : Nat × Nat × Nat :=
  let x := path / 512 ^ q.depth
  (x / q.kvHeads, x % q.kvHeads, path % 512 ^ q.depth)

/-- Entries removed below a node where `gone` says so, their pages' refcounts lowered, nodes left empty sent to quarantine (R132): the
number removed, and whether the node is left empty. -/
def pruneTree (w : Who) (gone : Nat → Bool) : Nat → Nat → Nat → Act (Nat × Bool)
  | 0, _, _ => pure (0, false)
  | 1, node, acc => do
    let mut n := 0
    let mut kept := false
    for e in (← nodeEntries w node) do
      if gone (acc * 512 + e.1) then
        let _ ← entryPage w e.2
        writeEntry w node e.1 0
        decRef w e.2.number
        n := n + 1
      else kept := true
    return (n, !kept)
  | l + 2, node, acc => do
    let mut n := 0
    let mut kept := false
    for e in (← nodeEntries w node) do
      nodeEntry w e.2
      let (m, empty) ← pruneTree w gone (l + 1) e.2.number (acc * 512 + e.1)
      n := n + m
      if empty then
        writeEntry w node e.1 0
        quarantine w .radixNode e.2.number
      else kept := true
    return (n, !kept)

/-! ### SEQ_CREATE (R130) -/

/-- The first fault of a KV format word: R425 with a block no larger than the head dimension, pad_sel 0 and rnd 0 (R130). -/
def kvFormatCheck (w : BitVec 16) (d : Nat) : Option FieldError :=
  let e := fcwCheck { store := true, kv := true, infOk := true } w
  let early := e.any (fun x => x.lo = 13 || x.lo = 5 || x.lo = 0 || x.lo = 7)
  if !early && hasBlocks (fcwFmt w) && decide (blockElems (fcwBlk w) > d) then some ⟨8, 7, 6, fcwBlk w, 0⟩
  else match e with
    | some x => some x
    | none => if fcwRnd w then some ⟨10, 10, 6, 1, 0⟩ else none

/-- A format word in the parameter area, its first fault named by its bits in the 16-bit field (R425). -/
def checkFormat (o : Nat) (e : Option FieldError) : Act Unit :=
  match e with
  | none => pure ()
  | some x => rejectAt (paramLoc o) x.check x.hi x.lo x.found x.limit

/-- A waymark list read from the command's address space and checked (R83, R130). -/
def readMarks (k base count : Nat) : Act (List Nat) := do
  let s ← get
  if count = 0 then return []
  else
    let bs ← readCtl (whoCmd k) (cmdAsid s k) base (4 * count) 2
    let ms := (chunksOf 4 count bs).map (fun b => bytesNat b % 2 ^ 26)
    match (List.range (count - 1)).find? (fun i => decide (ms.getD (i + 1) 0 ≤ ms.getD i 0)) with
    | some i => rejectItem (structLoc 2 0) (i + 1) 1 25 0 (ms.getD (i + 1) 0) (ms.getD i 0)
    | none => return ms

/-- A recipe table must be named when the session has automatic recompute (R130, R155). -/
def checkRecipe (k o : Nat) : Act Unit := do
  let s ← get
  let p := slotAt s k
  let auto := (tget Session.reset s.sessions (cmdSession s k % 256)).autoRecompute
  checkVa p o
  checkParam (param p o 64 ≠ 0 || !auto) o 0 64 7 (param p o 64) 0

/-- A home die and a retention class (R130, R155). -/
def checkHome (s : State) (p : SlotWord) (o : Nat) : Act Unit := do
  let d := param p o 8
  checkParam (decide (d < 8) && decide (cfgVal s 0x1013 d > 0)) o 0 8 (if d < 8 then 7 else 1) d 7
  checkParam (decide (param p (o + 1) 8 ≤ 3)) (o + 1) 0 8 1 (param p (o + 1) 8) 3

/-- The resources of a new sequence: the translation bases, the sequence table and a node for its root (R104, R130). -/
def checkNewSeq : Act Unit := do
  needXlt
  let s ← get
  if cfgVal s 0x1001 0 = 0 then rejectAt (configLoc 0x1001 0) 7 63 0 0 0
  else pure ()

/-- REJECTED_BUSY while the home die has no free node (R130, R155). -/
def checkRoot (home : Nat) : Act Unit := do
  if (freeNode (← get) home).isNone then throw (.reject busyReject)

/-- The D1 node of a new sequence (R130). -/
def newRoot (w : Who) (home : Nat) : Act Nat := do
  match freeNode (← get) home with
  | some i => takeNode w home i
  | none => throw (.reject busyReject)

/-- SEQ_CREATE (R130). -/
def seqCreateDef : OpDef where
  check k := do
    let s ← get
    let p := slotAt s k
    let n := param p 0x1A 8
    checkVa p 0
    checkParam (n ≠ 0 || param p 0 64 == 0) 0 0 64 1 (param p 0 64) 0
    checkRecipe k 8
    let id := param p 0x10 16
    let q ← loadSeq k id
    checkParam (q.state == 0) 0x10 0 16 7 id 0
    checkRange 0x12 0 16 (param p 0x12 16) 1 256
    checkRange 0x14 0 8 (param p 0x14 8) 1 255
    checkParam (decide (param p 0x15 8 ≤ 1)) 0x15 0 8 6 (param p 0x15 8) 1
    checkFormat 0x16 (kvFormatCheck (BitVec.ofNat 16 (param p 0x16 16)) (dimOf (param p 0x15 8)))
    checkHome s p 0x18
    checkParam (decide (n ≤ 64)) 0x1A 0 8 1 n 64
    reservedParam p 0x1B 0 8
    reservedParam p 0x1C 0 32
    reservedFrom p 0x20
    checkNewSeq
    let _ ← readMarks k (param p 0 64) n
    checkRoot (param p 0x18 8)
    return []
  body k := do
    let s ← get
    let p := slotAt s k
    let home := param p 0x18 8
    let w : Who := { die := home, key := some k }
    let marks ← readMarks k (param p 0 64) (param p 0x1A 8)
    let root ← newRoot w home
    let tpp := tppLog2 (param p 0x16 16 % 32) (dimOf (param p 0x15 8))
    let auto := (tget Session.reset s.sessions (cmdSession s k % 256)).autoRecompute
    writeSeq w (param p 0x10 16) {
      state := 1, homeDie := home, kvHeads := param p 0x14 8, hd := param p 0x15 8, layers := param p 0x12 16,
      fmtKv := param p 0x16 16, tppLog2 := tpp, depth := if tpp ≤ 7 then 3 else 2, retain := param p 0x19 8,
      waymarkCount := marks.length, session := cmdSession s k, flags := bit auto, length := 0, mapped := 0, dirRoot := root,
      dropped := 0, recipeBase := param p 8 64, created := s.now }
    writeWaymarks w (param p 0x10 16) marks
    return {}

/-! ### SEQ_FREE (R131) -/

/-- SEQ_FREE (R131). -/
def seqFreeDef : OpDef where
  check k := do
    let p := slotAt (← get) k
    let _ ← activeSeq k 0
    reservedParam p 2 0 16
    reservedParam p 4 0 32
    reservedFrom p 8
    needXlt
    checkSeqBusy k (param p 0 16)
    return []
  body k := do
    let s ← get
    let n := param (slotAt s k) 0 16
    let w := seqWho s k n
    let q ← loadSeq k n
    let leaves ← leafEntries w (seqLevels q) q.dirRoot 0
    let nodes ← treeNodes w (seqLevels q) q.dirRoot
    for e in leaves do
      let _ ← entryPage w e.2.2
      decRef w e.2.2.number
    for x in nodes do
      quarantine w .radixNode x
    let q ← readSeq w n
    writeSeq w n { q with state := 0 }
    return { result := BitVec.ofNat 64 leaves.length }

/-! ### SEQ_TRUNCATE (R132) -/

/-- SEQ_TRUNCATE (R132). -/
def seqTruncateDef : OpDef where
  check k := do
    let p := slotAt (← get) k
    let set_ := paramBit p 0xA 0
    let n := param p 0x10 8
    checkVa p 0
    checkParam ((set_ && n ≠ 0) || param p 0 64 == 0) 0 0 64 1 (param p 0 64) 0
    let q ← activeSeq k 8
    reservedParam p 0xA 1 15
    checkParam (decide (param p 0xC 27 ≤ q.length)) 0xC 0 27 1 (param p 0xC 27) q.length
    reservedParam p 0xC 27 5
    checkParam (decide (n ≤ (if set_ then 64 else 0))) 0x10 0 8 1 n (if set_ then 64 else 0)
    reservedParam p 0x11 0 24
    reservedFrom p 0x14
    needXlt
    let _ ← readMarks k (param p 0 64) n
    checkSeqBusy k (param p 8 16)
    return []
  body k := do
    let s ← get
    let p := slotAt s k
    let n := param p 8 16
    let w := seqWho s k n
    let q ← loadSeq k n
    let len := param p 0xC 27
    let marks ← readMarks k (param p 0 64) (param p 0x10 8)
    let (removed, _) ← pruneTree w (fun path => decide ((leafAt q path).2.2 * 2 ^ q.tppLog2 ≥ len)) (seqLevels q) q.dirRoot 0
    let q ← readSeq w n
    let q := { q with length := len, mapped := q.mapped - removed }
    if paramBit p 0xA 0 then
      writeSeq w n { q with waymarkCount := marks.length }
      writeWaymarks w n marks
    else writeSeq w n q
    return { result := BitVec.ofNat 64 removed }

/-! ### KV_DEMOTE and KV_PROMOTE (R133) -/

/-- The checks of KV_DEMOTE and KV_PROMOTE (R133). -/
def checkMove (k : Nat) : Act (List ClampEntry) := do
  let p := slotAt (← get) k
  let q ← activeSeq k 0
  reservedParam p 2 1 15
  checkParam (decide (param p 4 16 < q.layers)) 4 0 16 1 (param p 4 16) (q.layers - 1)
  checkParam (decide (param p 4 16 + param p 6 16 ≤ q.layers)) 6 0 16 1 (param p 6 16) (q.layers - param p 4 16)
  reservedParam p 8 26 6
  checkParam (decide (param p 8 26 + param p 0xC 27 ≤ 2 ^ 26)) 0xC 0 27 1 (param p 0xC 27) (2 ^ 26 - param p 8 26)
  reservedParam p 0xC 27 5
  checkParam (decide (param p 0x10 8 = 0xFF ∨ param p 0x10 8 < q.kvHeads)) 0x10 0 8 1 (param p 0x10 8) (q.kvHeads - 1)
  reservedParam p 0x11 0 24
  reservedFrom p 0x14
  needXlt
  return []

/-- Whether the selection of R133 takes a page of a sequence. -/
def inSelection (p : SlotWord) (q : SeqDesc) (path : Nat) : Bool :=
  let (layer, head, i) := leafAt q path
  let hiL := if param p 6 16 = 0 then q.layers else param p 4 16 + param p 6 16
  let lo := param p 8 26
  let hi := if param p 0xC 27 = 0 then q.length else lo + param p 0xC 27
  decide (param p 4 16 ≤ layer ∧ layer < hiL) && (param p 0x10 8 == 0xFF || param p 0x10 8 == head) &&
    decide (i * 2 ^ q.tppLog2 < hi ∧ lo < (i + 1) * 2 ^ q.tppLog2)

/-- KV_DEMOTE and KV_PROMOTE: the moves of the selection handed to the page keepers, the other pages skipped (R133). -/
def moveBody (toFar : Bool) (k : Nat) : Act Reply := do
  let s ← get
  let p := slotAt s k
  let n := param p 0 16
  let w := seqWho s k n
  let q ← loadSeq k n
  for e in (← leafEntries w (seqLevels q) q.dirRoot 0) do
    if inSelection p q e.1 then
      let h ← entryPage w e.2.2
      if mayMove h toFar && (h.state ≠ 2 || paramBit p 2 0) then
        modify (fun s => { s with pgk := { s.pgk with moves := s.pgk.moves ++ [⟨e.2.2.number, toFar, 0, .command k, false⟩] } })
      else modify (fun s => updCmd s k (fun c => { c with skipped := c.skipped + 1 }))
  let s ← get
  if s.pgk.moves.any (fun m => m.reason == .command k) then throw (.park .moving)
  else return { result := BitVec.ofNat 64 ((cmdOf s k).elim 0 (fun c => c.skipped)) }

/-- KV_DEMOTE (R133). -/
def kvDemoteDef : OpDef where
  check := checkMove
  body := moveBody true

/-- KV_PROMOTE (R133). -/
def kvPromoteDef : OpDef where
  check := checkMove
  body := moveBody false

/-- KV_DEMOTE and KV_PROMOTE commands whose moves have all committed or been aborted complete (R133). -/
def settleMoves (s : State) : State :=
  s.cmds.foldl (fun s c =>
    if c.stage == .moving && decide (c.opcode = 0x0208 ∨ c.opcode = 0x0209) &&
        !s.pgk.moves.any (fun m => m.reason == .command c.key) then
      let c := (cmdOf s c.key).getD c
      completeCmd s c.key { result := BitVec.ofNat 64 (c.moved * 2 ^ 32 + c.skipped % 2 ^ 32) }
    else s) s

/-! ### KV_RECOMPUTE_LIST (R134, R135) -/

/-- A recompute record (R135); a page that held no valid token has no positions, and its two fields are free values. -/
def recomputeRecord (page seq : Nat) (h : PageHdr) (free : Nat) : List Byte :=
  let lo := (List.range 256).find? (fun i => h.valid.testBit i)
  let hi := Nat.log2 h.valid
  let count := match lo with
    | some l => hi - l + 1
    | none => free % 65536
  let pos := match lo with
    | some l => h.firstPos + l
    | none => free / 65536
  natBytes 4 page ++ natBytes 2 seq ++ natBytes 2 h.layer ++ natBytes 1 h.kvHead ++ natBytes 1 h.reason ++ natBytes 2 count ++
    natBytes 4 (pos % 2 ^ 26) ++ natBytes 8 (h.dropHi * 2 ^ 48 + h.touch * 65536) ++ natBytes 4 (h.refcount % 2 ^ 24) ++ natBytes 4 0

/-- The selection a KV_RECOMPUTE_LIST names: a sequence, or 65536 for ALL (R134). -/
def listSelection (p : SlotWord) : Nat := if paramBit p 2 0 then 65536 else param p 0 16

/-- The DROPPED pages of a selection: where each stands in the list, its page and the sequence its record names (R134). -/
def droppedPages (k : Nat) : Act (List (Nat × Nat × Nat × PageHdr)) := do
  let s ← get
  let p := slotAt s k
  let mut out := []
  if paramBit p 2 0 then
    for page in usedPages s do
      let h ← readHdr { die := numDie page, key := some k } page
      if h.state = 4 then out := out ++ [(page, page, h.writerSeq, h)]
  else
    let n := param p 0 16
    let w := seqWho s k n
    let q ← loadSeq k n
    for e in (← leafEntries w (seqLevels q) q.dirRoot 0) do
      let h ← entryPage w e.2.2
      if h.state = 4 then out := out ++ [(e.1, e.2.2.number, n, h)]
  return out

/-- KV_RECOMPUTE_LIST (R134). A seq_id that is not ACTIVE is rejected, which R134 does not state (DESIGN CHOICE, log 54). -/
def kvRecomputeListDef : OpDef where
  need p := 32 * param p 8 16
  check k := do
    let s ← get
    let p := slotAt s k
    if paramBit p 2 0 then checkParam (param p 0 16 == 0) 0 0 16 1 (param p 0 16) 0
    else
      let _ ← activeSeq k 0
    reservedParam p 2 1 15
    let cur := param p 4 32
    checkParam (cur == 0 || s.pgk.cursors.any (fun c => c.1 == cur && c.2.1 == listSelection p)) 4 0 32 7 cur 0
    checkRange 8 0 16 (param p 8 16) 1 4096
    reservedParam p 0xA 0 48
    reservedFrom p 0x10
    needXlt
    return []
  body k := do
    let p := slotAt (← get) k
    let cur := param p 4 32
    let from_ := match (← get).pgk.cursors.find? (fun c => c.1 == cur) with
      | some c => c.2.2
      | none => 0
    let all ← droppedPages k
    let rest := all.filter (fun e => decide (e.1 ≥ from_))
    let take := rest.take (param p 8 16)
    let mut bytes : List Byte := []
    for e in take do
      let s ← get
      if e.2.2.2.valid = 0 then
        let (f, s') := freshWord s
        set s'
        bytes := bytes ++ recomputeRecord e.2.1 e.2.2.1 e.2.2.2 f.toNat
      else bytes := bytes ++ recomputeRecord e.2.1 e.2.2.1 e.2.2.2 0
    let s ← get
    let more := decide (rest.length > take.length)
    let next := if more then s.pgk.cursors.length + 1 else 0xFFFFFFFF
    if more then
      let at_ := ((rest.drop take.length).map (·.1)).headD 0
      set { s with pgk := { s.pgk with cursors := s.pgk.cursors ++ [(next, listSelection p, at_)] } }
    longAct k bytes { result := BitVec.ofNat 64 (take.length + 2 ^ 32 * next) }

end Sys2Proof.Machine
end

