-- ==== Sys2Proof/Machine/Spine.lean ====
section
/-! DEFINITION. Prefix sharing: forks, the spine indexes, lookup, publication, mapping and retirement (spec/06_prefix_sharing.md R137 to
R151, R155 to R157). -/
namespace Sys2Proof.Machine

/-! ### Nodes of a table that is written (R118, R119) -/

/-- A missing node with no free node in the home die fails at once (R119): recorded, counted for the requesting die. -/
def nodeFailed {α : Type} (w : Who) (home requesting : Nat) : Act α := do
  modify (fun s => bumpPgk (report s {
    cause := 0x14, source := pgkSource home, key := w.key, cluster := w.cluster, addr := home }) requesting 0x70 1)
  abortWith 0x20

/-! ### SEQ_FORK (R148, R155) -/

/-- The pages of a source mapped into a new sequence (R148); REJECTED_BUSY when its home die has no free node. Answers the entries
mapped. -/
def forkPages (w : Who) (src dst : SeqDesc) (lim : Nat) : Act Nat := do
  let mut n := 0
  for e in (← leafEntries w (seqLevels src) src.dirRoot 0) do
    let (layer, head, i) := leafAt src e.1
    if i < lim then
      let _ ← entryPage w e.2.2
      match (← buildPath w dst.homeDie (pathOf dst layer head i) dst.dirRoot) with
      | none => throw (.reject busyReject)
      | some (node, j) =>
        incRef w e.2.2.number
        writeEntry w node j (entryNat true e.2.2.gen e.2.2.number)
        n := n + 1
  return n

/-- Everything SEQ_FORK does (R148). -/
def forkWork (k : Nat) : Act Nat := do
  let s ← get
  let p := slotAt s k
  let src := param p 8 16
  let dst := param p 0xA 16
  let len := param p 0xC 27
  let home := param p 0x10 8
  let q ← loadSeq k src
  let marks ← readWaymarks (seqWho s k src) src q
  let keep := marks.filter (fun m => decide (m < len))
  let w : Who := { die := home, key := some k }
  let root ← newRoot w home
  let auto := (tget Session.reset s.sessions (cmdSession s k % 256)).autoRecompute
  let d : SeqDesc := { q with
    state := 1, homeDie := home, retain := param p 0x11 8, waymarkCount := keep.length, session := cmdSession s k, flags := bit auto,
    length := len, mapped := 0, dirRoot := root, dropped := 0, recipeBase := param p 0 64, created := s.now }
  let n ← forkPages (seqWho s k src) q d ((len + 2 ^ q.tppLog2 - 1) / 2 ^ q.tppLog2)
  writeSeq w dst { d with mapped := n }
  writeWaymarks w dst keep
  return n

/-- SEQ_FORK (R148, R155). -/
def seqForkDef : OpDef where
  check k := do
    let s ← get
    let p := slotAt s k
    let src := param p 8 16
    let dst := param p 0xA 16
    checkRecipe k 0
    let q ← activeSeq k 8
    let d ← loadSeq k dst
    checkParam (d.state == 0 && dst ≠ src) 0xA 0 16 7 dst 0
    checkRange 0xC 0 27 (param p 0xC 27) 1 q.length
    reservedParam p 0xC 27 5
    checkHome s p 0x10
    reservedParam p 0x12 0 16
    reservedParam p 0x14 0 32
    reservedFrom p 0x18
    needXlt
    if (openSlots s).any (fun j => j ≠ k && slotBits (slotAt s j) 0 16 == 0x0303 && (slotSeqs s j).contains src) then
      throw (.reject busyReject)
    match (forkWork k).run s with
    | .error (.reject r) _ => throw (.reject r)
    | _ => return []
  body k := do
    let n ← forkWork k
    return { result := BitVec.ofNat 64 n }

/-! ### Chain hashes (R139) -/

/-- One step of the chain hash (R139). -/
def hashStep (h w : BitVec 64) : BitVec 64 :=
  let x := (h ^^^ w) * 0x9E3779B97F4A7C15#64
  x ^^^ (x >>> 31)

/-- The hash of a page under the hash of the page above it (R139). -/
def hashPage (h : BitVec 64) (ws : List (BitVec 64)) : BitVec 64 :=
  hashStep (ws.foldl hashStep h) (BitVec.ofNat 64 ws.length)

/-- The parameter word of a sequence and a key kind (R139). -/
def paramWord (q : SeqDesc) (digest : Bool) : Nat :=
  q.layers + q.kvHeads * 2 ^ 16 + q.hd * 2 ^ 24 + q.fmtKv * 2 ^ 32 + q.tppLog2 * 2 ^ 48 + bit digest * 2 ^ 56

/-- The die and the bucket a hash selects (R139). -/
def hashDie (h : BitVec 64) : Nat := h.toNat / 2 ^ 61 % Config.kerur.dies
def hashBucket (s : State) (h : BitVec 64) : Nat := h.toNat % cfgVal s 0x2013 (hashDie h)

/-! ### Spine nodes (R140 to R142) -/

/-- A spine node (R140). -/
structure SpineNode where
  hash : Nat
  ns : Nat
  gen : Nat
  children : Nat
  qEpoch : Nat
  stale : Bool
  state : Nat
  parent : Nat
  pageIndex : Nat
  setRoot : Nat
  keySlot : Nat
  key0 : Nat
  pw : Nat
  lastHit : Nat
  hits : Nat
  deriving DecidableEq, Repr

/-- The ctl word of a spine node (R140). A 65,536th child takes its 16-bit count round to 0 (DESIGN CHOICE, log 66). -/
def spineCtl (n : SpineNode) : Nat :=
  n.state + 4 * bit n.stale + 256 * (n.qEpoch % 256) + 2 ^ 32 * (n.children % 65536) + 2 ^ 48 * (n.gen % 65536)

/-- The 64 bytes of a spine node (R140). -/
def spineBytes (n : SpineNode) : List Byte :=
  natBytes 8 n.hash ++ natBytes 8 n.ns ++ natBytes 8 (spineCtl n) ++ natBytes 4 n.parent ++ natBytes 4 (n.pageIndex % 2 ^ 22) ++
    natBytes 4 n.setRoot ++ natBytes 4 n.keySlot ++ natBytes 8 n.key0 ++ natBytes 8 n.pw ++ natBytes 4 n.lastHit ++
    natBytes 4 n.hits

/-- A spine node from its bytes. -/
def spineOf (bs : List Byte) : SpineNode :=
  let f (o n : Nat) : Nat := bytesNat ((bs.drop o).take n)
  let c := f 0x10 8
  { hash := f 0 8
    ns := f 8 8
    gen := c / 2 ^ 48
    children := c / 2 ^ 32 % 65536
    qEpoch := c / 256 % 256
    stale := c.testBit 2
    state := c % 4
    parent := f 0x18 4
    pageIndex := f 0x1C 4 % 2 ^ 22
    setRoot := f 0x20 4
    keySlot := f 0x24 4
    key0 := f 0x28 8
    pw := f 0x30 8
    lastHit := f 0x38 4
    hits := f 0x3C 4 }

/-- An access of the spine index of a die, for a command (R137). -/
def spnWho (w : Who) (d : Nat) : Who := { w with die := d, pool := 0xC068 }

/-- A spine node read; a reserved state is illegal (R143). -/
def readSpine (w : Who) (n : Nat) : Act SpineNode := do
  let bs ← poolRead (spnWho w (numDie n)) (spineVa (← get) n) 64 0
  let x := spineOf bs
  if x.state = 3 then spineIllegal w n 7 (spineCtl x) else return x

/-- A spine node written. -/
def writeSpine (w : Who) (n : Nat) (x : SpineNode) : Act Unit := do
  poolWrite (spnWho w (numDie n)) (spineVa (← get) n) (spineBytes x)

/-- The handle of a node (R140), and of the root. -/
def handleOf (gen n : Nat) : Nat := gen % 65536 * 2 ^ 48 + n
def rootHandle : Nat := 2 ^ 64 - 1

/-- The slots of a bucket (R142). -/
def readBucket (w : Who) (d b : Nat) : Act (List Nat) := do
  let bs ← poolRead (spnWho w d) (cfgVal (← get) 0x2012 d + b * 32) 32 0
  return (chunksOf 4 8 bs).map bytesNat

/-- One slot of a bucket written. -/
def writeSlot (w : Who) (d b i n : Nat) : Act Unit := do
  poolWrite (spnWho w d) (cfgVal (← get) 0x2012 d + b * 32 + 4 * i) (natBytes 4 n)

/-- The nodes a bucket holds, with their slots: a slot that names no LIVE node whose hash selects the bucket, or repeats an earlier slot, is
empty (R142). -/
def bucketNodes (w : Who) (d b : Nat) : Act (List (Nat × Nat × SpineNode)) := do
  let slots ← readBucket w d b
  let s ← get
  let mut out : List (Nat × Nat × SpineNode) := []
  for e in slots.zipIdx do
    let n := e.1
    if n ≠ 0xFFFFFFFF && numDie n == d && (poolsOf s d).spineNodes.contains (numIdx n) && !out.any (fun x => x.2.1 == n) then
      let x ← readSpine w n
      if x.state = 1 ∧ x.hash % cfgVal s 0x2013 d = b then out := out ++ [(e.2, n, x)]
  return out

/-- The key words a key slot stores (R137, R140). -/
def readKeySlot (w : Who) (d slot n : Nat) : Act (List (BitVec 64)) := do
  let bs ← poolRead (spnWho w d) (cfgVal (← get) 0x2014 d + slot * 2048) (8 * n) 0
  return (chunksOf 8 n bs).map (fun c => BitVec.ofNat 64 (bytesNat c))

/-! ### Retirement (R151) -/

/-- The entries of a node's set; an entry whose gen is not its page's is illegal (R141, R143). -/
def setPages (w : Who) (n : Nat) (x : SpineNode) : Act (List PageEntry) := do
  let es ← leafEntries w 2 x.setRoot 0
  for e in es do
    let h ← readHdr w e.2.2.number
    if h.gen ≠ e.2.2.gen then spineIllegal w n 6 (spineCtl x)
  return es.map (fun e => e.2.2)

/-- A node removed from its bucket, its references dropped, everything of it sent to quarantine; a parent left STALE with no children
is retired in turn (R151). -/
def retire (w : Who) : Nat → Nat → Act Unit
  | 0, _ => pure ()
  | fuel + 1, n => do
    let x ← readSpine w n
    if x.state ≠ 1 ∨ x.children ≠ 0 then spineIllegal w n 8 (spineCtl x)
    let d := numDie n
    let b := hashBucket (← get) (BitVec.ofNat 64 x.hash)
    for e in (← bucketNodes w d b) do
      if e.2.1 = n then writeSlot w d b e.1 0xFFFFFFFF
    for e in (← setPages w n x) do
      decRef w e.number
    for m in (← treeNodes w 2 x.setRoot) do
      quarantine w .setNode m
    if x.keySlot ≠ 0xFFFFFFFF then quarantine w .keySlot (mkNum d x.keySlot)
    writeSpine w n { x with state := 2, qEpoch := (← get).pgk.epoch.toNat }
    quarantine w .spineNode n
    modify (fun s => bumpSpn s d 0x50 1)
    if x.parent ≠ 0xFFFFFFFF then
      let y ← readSpine w x.parent
      let y := { y with children := y.children - 1 }
      writeSpine w x.parent y
      if y.state = 1 ∧ y.stale ∧ y.children = 0 then retire w fuel x.parent

/-- A node marked STALE, and retired at once when it has no children (R146, R151). -/
def markStale (w : Who) (n : Nat) : Act Unit := do
  let x ← readSpine w n
  writeSpine w n { x with stale := true }
  if x.children = 0 then retire w (x.pageIndex + 1) n

/-- The retirable nodes among some, best victim first: STALE ones, then the oldest last_hit, then the lowest number. The parent of the
page being published is not retired. -/
def bestVictim (keep : Nat) (l : List (Nat × SpineNode)) : Option Nat :=
  let ok := l.filter (fun e => e.2.state == 1 && e.2.children == 0 && e.1 ≠ keep)
  let keys := ok.map (fun e => (bit (!e.2.stale), e.2.lastHit, e.1, 0))
  ((keys.foldr insertVictim []).head?).map (fun k => k.2.2.1)

/-- A node of a die retired for want of a pool object (R151). -/
def retireOnDie (w : Who) (d keep : Nat) : Act Unit := do
  let mut l : List (Nat × SpineNode) := []
  for i in (poolsOf (← get) d).spineNodes do
    let n := mkNum d i
    l := l ++ [(n, ← readSpine w n)]
  match bestVictim keep l with
  | some n => retire w (2 ^ 22) n
  | none => pure ()

/-! ### Lookup (R144) -/

/-- What a lookup of one page looks for. -/
structure PageKey where
  hash : BitVec 64
  ns : Nat
  pw : Nat
  parent : Nat
  index : Nat
  words : List (BitVec 64)
  digest : Bool

/-- Whether a node is a candidate (R144). -/
def isCandidate (q : PageKey) (x : SpineNode) : Bool :=
  x.state == 1 && !x.stale && x.hash == q.hash.toNat && x.ns == q.ns && x.pw == q.pw && x.parent == q.parent &&
    x.pageIndex == q.index

/-- Whether a candidate's key words are the supplied ones (R144). -/
def verifyNode (w : Who) (q : PageKey) (d : Nat) (x : SpineNode) : Act Bool := do
  if x.key0 ≠ (q.words.headD 0).toNat then return false
  else if q.digest then return true
  else
    let ws ← readKeySlot w d x.keySlot q.words.length
    return ws == q.words

/-- The match of one page, none when it has none, and the collisions met (R144). -/
def lookupPage (w : Who) (q : PageKey) : Act (Option Nat × Nat) := do
  let d := hashDie q.hash
  modify (fun s => bumpSpn s d 0x30 1)
  if cfgVal (← get) 0x2011 d = 0 then return (none, 0)
  let mut found : Option Nat := none
  let mut bad := 0
  for e in (← bucketNodes w d (hashBucket (← get) q.hash)) do
    if found.isNone && isCandidate q e.2.2 then
      if (← verifyNode w q d e.2.2) then
        found := some e.2.1
        writeSpine w e.2.1 { e.2.2 with lastHit := touchNow (← get), hits := min (e.2.2.hits + 1) 0xFFFFFFFF }
        modify (fun s => bumpSpn s d 0x38 1)
      else
        bad := bad + 1
        modify (fun s => bumpSpn s d 0x40 1)
  return (found, bad)

/-! ### MAP (R146) -/

/-- The target entries of a page index: the layer, head and set entry of each (R141, R146). -/
def mapTargets (q : SeqDesc) (set_ : List (Nat × Nat × PageEntry)) : List (Nat × Nat × PageEntry) :=
  set_.map (fun e => (e.1 / q.kvHeads, e.1 % q.kvHeads, e.2.2))

/-- Whether every entry of a page index in the target is a hole (R146 step 1). -/
def allHoles (w : Who) (q : SeqDesc) (i : Nat) : Act Bool := do
  let mut ok := true
  for x in List.range (q.layers * q.kvHeads) do
    if ok then
      match (← followPath w (pathOf q (x / q.kvHeads) (x % q.kvHeads) i) q.dirRoot) with
      | some _ => ok := false
      | none => pure ()
  return ok

/-- A page of a set that MAP and publication may take: LIVE, SHARED or DEMOTED with POISON 0 (R145, R146). -/
def takeable (h : PageHdr) : Bool := (h.state == 1 || h.state == 2 || h.state == 3) && !h.poison

/-- References taken on the pages of a set, undone when one cannot be (R146 steps 2 and 3). -/
def takeRefs (w : Who) (pages : List PageEntry) : Act Bool := do
  let mut taken : List Nat := []
  let mut ok := true
  for e in pages do
    if ok then
      let h ← legalHdr w e.number
      if takeable h then
        incRef w e.number
        taken := taken ++ [e.number]
      else ok := false
  if !ok then
    for n in taken do decRef w n
  return ok

/-- Entries added to a sequence's mapped count, and its length raised to a number of positions (R146). -/
def countMapped (w : Who) (seq n len : Nat) : Act Unit := do
  let q ← readSeq w seq
  writeSeq w seq { q with mapped := q.mapped + n, length := max q.length len }

/-- The entries of one page index written into the target, after `done` of them; references of entries that find no node are given back
before the command ends, and the entries written are counted (R118, R119, R146 step 4). -/
def mapEntries (w : Who) (seq : Nat) (q : SeqDesc) (i : Nat) : List (Nat × Nat × PageEntry) → Nat → Act Nat
  | [], done => pure done
  | (layer, head, e) :: rest, done => do
    match (← buildPath w q.homeDie (pathOf q layer head i) q.dirRoot) with
    | none =>
      for x in e :: rest.map (fun r => r.2.2) do decRef w x.number
      countMapped w seq done 0
      nodeFailed w q.homeDie q.homeDie
    | some (node, j) =>
      writeEntry w node j (entryNat true e.gen e.number)
      mapEntries w seq q i rest (done + 1)

/-- One matched page index mapped into the target: a stop code, or none when it is mapped (R146). -/
def mapIndex (w : Who) (seq node i : Nat) : Act (Option Nat) := do
  let q ← readSeq w seq
  if !(← allHoles w q i) then return some 4
  else
    let x ← readSpine w node
    let pages ← setPages w node x
    if !(← takeRefs w pages) then
      markStale w node
      return some 3
    else
      let es ← leafEntries w 2 x.setRoot 0
      let n ← mapEntries w seq q i (mapTargets q es) 0
      countMapped w seq n ((i + 1) * 2 ^ q.tppLog2)
      return none

/-! ### Publication (R145) -/

/-- The source's entries of a page index that may be published, none at the first page that may not (R145). -/
def sourcePages (w : Who) (q : SeqDesc) (i : Nat) : Act (Option (List PageEntry)) := do
  let mut out : List PageEntry := []
  let mut ok := true
  for x in List.range (q.layers * q.kvHeads) do
    if ok then
      match (← findPage w q (x / q.kvHeads) (x % q.kvHeads) i) with
      | none => ok := false
      | some (_, _, e) =>
        let h ← legalHdr w e.number
        if takeable h && h.valid % 2 ^ 2 ^ q.tppLog2 == 2 ^ 2 ^ q.tppLog2 - 1 then out := out ++ [e] else ok := false
  return if ok then some out else none

/-- S0 nodes of a set of so many entries. -/
def setLeaves (n : Nat) : Nat := (n + 511) / 512

/-- What a die lacks to publish a page: a spine node, a key slot or set nodes (R145). -/
def poolLacks (s : State) (d entries : Nat) (digest : Bool) : Bool :=
  let p := poolsOf s d
  (freeIn p.spineNodes (cfgVal s 0x2011 d)).isNone ||
    (!digest && (freeIn p.keySlots (cfgVal s 0x2015 d)).isNone) ||
    decide (cfgVal s 0x1013 d < p.nodes.length + 1 + setLeaves entries)

/-- A node of a die's pool taken for a set. -/
def takeSetNode (w : Who) (d : Nat) : Act Nat := do
  match freeNode (← get) d with
  | some i => takeNode w d i
  | none => abortWith 0x20

/-- The set of a page index built from its entries (R141). -/
def buildSet (w : Who) (d : Nat) (es : List PageEntry) : Act Nat := do
  let root ← takeSetNode w d
  for c in (chunksOf 512 es.length es).zipIdx do
    let leaf ← takeSetNode w d
    for e in c.1.zipIdx do
      writeEntry w leaf e.2 (entryNat true e.1.gen e.1.number)
    writeEntry w root c.2 (entryNat false 0 leaf)
  return root

/-- A page without a match published (R145): the new node, or the stop code. -/
def publishPage (w : Who) (q : PageKey) (seq : SeqDesc) : Act (Except Nat Nat) := do
  match (← sourcePages w seq q.index) with
  | none => return .error 2
  | some es =>
    let d := hashDie q.hash
    let b := hashBucket (← get) q.hash
    if poolLacks (← get) d es.length q.digest then retireOnDie w d q.parent
    if poolLacks (← get) d es.length q.digest then return .error 5
    let held ← bucketNodes w d b
    if held.length ≥ 8 then
      match bestVictim q.parent (held.map (fun e => e.2)) with
      | some v => retire w (2 ^ 22) v
      | none => pure ()
    let held ← bucketNodes w d b
    match (List.range 8).find? (fun i => !held.any (fun e => e.1 == i)) with
    | none => return .error 6
    | some slot =>
      let s ← get
      let idx := lowestFree 0 (poolsOf s d).spineNodes
      let key := lowestFree 0 (poolsOf s d).keySlots
      let n := mkNum d idx
      set (updPools s d (fun p => { p with
        spineNodes := insertNat idx p.spineNodes
        keySlots := if q.digest then p.keySlots else insertNat key p.keySlots }))
      if !q.digest then
        poolWrite (spnWho w d) (cfgVal s 0x2014 d + key * 2048) (q.words.flatMap (fun x => natBytes 8 x.toNat))
      let old ← readSpine w n
      if old.state ≠ 0 then spineIllegal w n 8 (spineCtl old)
      let root ← buildSet w d es
      for e in es do incRef w e.number
      writeSpine w n {
        hash := q.hash.toNat, ns := q.ns, gen := old.gen, children := 0, qEpoch := 0, stale := false, state := 1, parent := q.parent,
        pageIndex := q.index, setRoot := root, keySlot := if q.digest then 0xFFFFFFFF else key, key0 := (q.words.headD 0).toNat,
        pw := q.pw, lastHit := touchNow (← get), hits := 0 }
      writeSlot w d b slot n
      if q.parent ≠ 0xFFFFFFFF then
        let y ← readSpine w q.parent
        writeSpine w q.parent { y with children := y.children + 1 }
      modify (fun s => bumpSpn s d 0x48 1)
      return .ok n

/-! ### The walk along a prefix -/

/-- Where a lookup or publication stands: the nodes matched, pages published, collisions, deepest node and its hash, and the stop. -/
structure PrefixWalk where
  matched : List Nat
  published : Nat
  collisions : Nat
  parent : Nat
  hash : BitVec 64
  stop : Nat
  stopDie : Option Nat

/-- One page of a lookup or of a publication from `src` (R144, R145). -/
def prefixStep (w : Who) (ns pw : Nat) (digest : Bool) (src : Option SeqDesc) (st : PrefixWalk) (i : Nat)
    (ws : List (BitVec 64)) : Act PrefixWalk := do
  if st.stop ≠ 0 then return st
  else
    let h := hashPage st.hash ws
    let q : PageKey := ⟨h, ns, pw, st.parent, i, ws, digest⟩
    let (found, bad) ← lookupPage w q
    let st := { st with collisions := st.collisions + bad }
    match found with
    | some n => return { st with matched := st.matched ++ [n], parent := n, hash := h }
    | none =>
      match src with
      | none => return { st with stop := 1 }
      | some seq =>
        match (← publishPage w q seq) with
        | .error c => return { st with stop := c, stopDie := some (hashDie h) }
        | .ok n => return { st with published := st.published + 1, parent := n, hash := h }

/-- The matched pages mapped in ascending order until one cannot be: pages mapped and the stop (R146). -/
def mapMatched (w : Who) (seq : Nat) : List (Nat × Nat) → Nat → Nat → Act (Nat × Nat)
  | [], n, stop => pure (n, stop)
  | (node, i) :: rest, n, stop => do
    match (← mapIndex w seq node i) with
    | some c => return (n, c)
    | none => mapMatched w seq rest (n + 1) stop

/-! ### Commands (R156, R157) -/

/-- The fields of PREFIX_LOOKUP and PREFIX_PUBLISH (R156). -/
def pfBase (p : SlotWord) : Nat := param p 0 64
def pfNs (p : SlotWord) : Nat := param p 8 64
def pfParent (p : SlotWord) : Nat := param p 0x10 64
def pfLo (p : SlotWord) : Nat := param p 0x18 22
def pfCount (p : SlotWord) : Nat := param p 0x1C 32
def pfSeq (p : SlotWord) : Nat := param p 0x20 16
def pfMap (p : SlotWord) : Bool := paramBit p 0x22 0
def pfDigest (p : SlotWord) : Bool := paramBit p 0x22 1
def pfWithdraw (p : SlotWord) : Bool := paramBit p 0x22 2

/-- The parent handle names a LIVE node with the command's ns and pw and the page index before page_lo (R156). A withdrawal names no root
as parent, and its page_lo 0 leaves the page index unasked (DESIGN CHOICE, log 66). -/
def parentOk (w : Who) (p : SlotWord) (q : SeqDesc) : Act Bool := do
  let h := pfParent p
  let n := h % 2 ^ 32
  let s ← get
  if h = rootHandle then return !pfWithdraw p
  else if h / 2 ^ 32 % 65536 ≠ 0 ∨ !(poolsOf s (numDie n)).spineNodes.contains (numIdx n) then return false
  else
    let x ← readSpine w n
    return x.state == 1 && x.gen == h / 2 ^ 48 && x.ns == pfNs p && x.pw == paramWord q (pfDigest p) &&
      (pfWithdraw p || x.pageIndex + 1 == pfLo p)

/-- The checks of PREFIX_LOOKUP and PREFIX_PUBLISH (R137, R156). -/
def checkPrefix (publish : Bool) (k : Nat) : Act (List ClampEntry) := do
  let s ← get
  let p := slotAt s k
  let wd := publish && pfWithdraw p
  let q ← loadSeq k (pfSeq p)
  checkVa p 0
  checkParam (!wd || pfBase p == 0) 0 0 64 1 (pfBase p) 0
  checkParam (← parentOk (seqWho s k (pfSeq p)) p q) 0x10 0 64 7 (pfParent p) 0
  checkParam (if wd || pfParent p == rootHandle then pfLo p == 0 else true) 0x18 0 22 1 (pfLo p) 0
  reservedParam p 0x18 22 10
  let most := if wd then 0 else min 65536 (2 ^ 22 - pfLo p)
  checkRange 0x1C 0 32 (pfCount p) (bit (!wd)) most
  if publish && !wd && q.state == 1 then
    checkParam (decide ((pfLo p + pfCount p) * 2 ^ q.tppLog2 ≤ q.length)) 0x1C 0 32 1 (pfCount p) (q.length / 2 ^ q.tppLog2 - pfLo p)
  let _ ← activeSeq k 0x20
  if publish then checkParam (!pfMap p) 0x22 0 1 1 1 0
  else checkParam (!pfWithdraw p) 0x22 2 1 1 1 0
  reservedParam p 0x22 3 13
  reservedParam p 0x24 0 32
  reservedFrom p 0x28
  needXlt
  if publish then
    match (List.range 8).find? (fun d => cfgVal s 0x2011 d == 0) with
    | some d => rejectAt (configLoc 0x2011 d) 7 63 0 0 0
    | none => pure ()
  if (publish && !wd) || pfMap p then checkSeqBusy k (pfSeq p)
  return []

/-- The spine report (R157). -/
def spineReport (matched done handle collisions stop : Nat) : List Byte :=
  natBytes 4 matched ++ natBytes 4 done ++ natBytes 8 handle ++ natBytes 4 collisions ++ natBytes 4 stop ++ natBytes 8 0

/-- The reply with a spine report (R157). -/
def spineReply (k matched done handle collisions stop : Nat) : Act Reply := do
  longAct k (spineReport matched done handle collisions stop) { result := BitVec.ofNat 64 (matched + 2 ^ 32 * done) }

/-- The handle of a node of the walk: the parent given when it is still the one (R157). -/
def walkHandle (w : Who) (p : SlotWord) (start n : Nat) : Act Nat := do
  if n = start then return pfParent p
  else
    let x ← readSpine w n
    return handleOf x.gen n

/-- The key words of the command, page by page (R138, R156). -/
def readKeyWords (k : Nat) (p : SlotWord) (perPage : Nat) : Act (List (List (BitVec 64))) := do
  let n := pfCount p * perPage
  let bs ← readCtl (whoCmd k) (cmdAsid (← get) k) (pfBase p) (8 * n) 4
  return chunksOf perPage (pfCount p) ((chunksOf 8 n bs).map (fun c => BitVec.ofNat 64 (bytesNat c)))

/-- PREFIX_PUBLISH with WITHDRAW (R151, R156). -/
def withdraw (k : Nat) : Act Reply := do
  let s ← get
  let p := slotAt s k
  markStale (seqWho s k (pfSeq p)) (pfParent p % 2 ^ 32)
  spineReply k 0 0 (pfParent p) 0 0

/-- PREFIX_LOOKUP and PREFIX_PUBLISH (R144 to R146). -/
def prefixBody (publish : Bool) (k : Nat) : Act Reply := do
  let s ← get
  let p := slotAt s k
  if publish && pfWithdraw p then withdraw k
  else
    let w := seqWho s k (pfSeq p)
    let q ← loadSeq k (pfSeq p)
    let pw := paramWord q (pfDigest p)
    let words ← readKeyWords k p (if pfDigest p then 1 else 2 ^ q.tppLog2)
    let start := pfParent p % 2 ^ 32
    let root := hashStep (BitVec.ofNat 64 (pfNs p)) (BitVec.ofNat 64 pw)
    let h0 ← if pfParent p = rootHandle then pure root else do
      let x ← readSpine w start
      pure (BitVec.ofNat 64 x.hash)
    let mut st : PrefixWalk := ⟨[], 0, 0, start, h0, 0, none⟩
    for e in words.zipIdx do
      st ← prefixStep w (pfNs p) pw (pfDigest p) (if publish then some q else none) st (pfLo p + e.2) e.1
    let handle ← walkHandle w p start st.parent
    if publish then
      modify (fun s => { s with pgk := { s.pgk with
        poolEmpty := if st.stop = 5 ∨ st.stop = 6 then st.stopDie.toList else [] } })
      spineReply k st.matched.length st.published handle st.collisions st.stop
    else if pfMap p then
      let (n, stop) ← mapMatched w (pfSeq p) (st.matched.zipIdx.map (fun e => (e.1, pfLo p + e.2))) 0 st.stop
      countMapped w (pfSeq p) 0 ((pfLo p + n) * 2 ^ q.tppLog2)
      spineReply k st.matched.length n handle st.collisions stop
    else spineReply k st.matched.length 0 handle st.collisions st.stop

/-- PREFIX_LOOKUP (R144, R146, R156). -/
def prefixLookupDef : OpDef where
  need _ := 32
  check := checkPrefix false
  body := prefixBody false

/-- PREFIX_PUBLISH (R145, R151, R156). -/
def prefixPublishDef : OpDef where
  need _ := 32
  check := checkPrefix true
  body := prefixBody true

end Sys2Proof.Machine
end

