-- ==== Sys2Proof/Machine/Remote.lean ====
section
/-! DEFINITION. Remote writes: firing of arrival counters, the remote port, acknowledgements and window events
(spec/07_scratchpad.md R174 to R187). -/
namespace Sys2Proof.Machine

/-! ### Firing (R179) -/

/-- The first granule of a fill range that is already FULL. -/
def firstFull (s : State) (core : Nat) (a : ArrivalCounter) : Option Nat :=
  ((List.range a.fillCount).map (fun i => a.fillFirst + i)).find? (fun g => tagFull s core g)

/-- An overrun: recorded, and the command that owns the counter ends (R179; one record a step, log 23). -/
def tagOverrun (s : State) (core c g : Nat) : State :=
  let k := ownerOfCounter s core c
  let s := { s with spad := { s.spad with overrun := tset false s.spad.overrun (clusterOf core) true } }
  let s := report s {
    cause := 0x0B, source := core, key := k, cluster := clusterOf core, addr := gaddrOf core (g * 256), info0 := c }
  abortOwner s k

/-- The queue at its next instruction. -/
def nextInstr (q : Queue) : Queue := { q with pc := q.pc + 1, wait := .program }

/-- The waits on a counter whose value its count has reached end: a cycle after the comparison holds, three before the firing that may reduce
the count (R179). -/
def releaseCounted (s : State) (core c : Nat) : State :=
  (List.range 8).foldl (fun s qi =>
    let q := queueAt s core qi
    match q.wait with
    | .counter c' v =>
      if c' = c ∧ (q.state = .running ∨ q.state = .faulted) ∧ v.toNat ≤ (arrivalOf s core c).count.toNat then setQueue s core qi (nextInstr q)
      else s
    | _ => s) s

/-- A counter fires as often as its count allows, after the waits that its count ends (R179). -/
def fireCounter (s : State) (core c : Nat) : State :=
  let a := arrivalOf s core c
  let n := firings a
  if n = 0 then s
  else
    let s := releaseCounted s core c
    let full := match firstFull s core a with
      | some g => some g
      | none => if n ≥ 2 ∧ a.fillCount > 0 then some a.fillFirst else none
    let s := setTags (setArrival s core c (fired a)) core a.fillFirst a.fillCount true
    let s := bumpSpd s (clusterOf core) 0x48 n
    match full with
    | some g => tagOverrun s core c g
    | none => s

/-! ### Remote write requests (R174) -/

/-- The fields of a remote write request (R174). -/
def rqStamp (r : Word128) : Nat := (r.extractLsb' 112 16).toNat
def rqGen (r : Word128) : BitVec 8 := r.extractLsb' 104 8
def rqWin (r : Word128) : Nat := (r.extractLsb' 101 3).toNat
def rqPriv (r : Word128) : Bool := r.getLsbD 100
def rqWriter (r : Word128) : BitVec 16 := r.extractLsb' 84 16
def rqCtr (r : Word128) : Nat := (r.extractLsb' 78 6).toNat
def rqWords (r : Word128) : Nat := (r.extractLsb' 73 5).toNat
def rqNarrow (r : Word128) : Bool := r.getLsbD 72
def rqMask (r : Word128) : BitVec 16 := r.extractLsb' 56 16
def rqReserved (r : Word128) : BitVec 29 := r.extractLsb' 27 29
def rqGaddr (r : Word128) : Nat := (r.extractLsb' 0 27).toNat

/-- A request built from its fields (R174). -/
def makeRequest (stamp gen win : Nat) (priv : Bool) (writer ctr words : Nat) (narrow : Bool) (mask gaddr : Nat) : Word128 :=
  BitVec.ofNat 128 (gaddr % 2 ^ 27 + mask % 65536 * 2 ^ 56 + bit narrow * 2 ^ 72 + words % 32 * 2 ^ 73 + ctr % 64 * 2 ^ 78 +
    writer % 65536 * 2 ^ 84 + bit priv * 2 ^ 100 + win % 8 * 2 ^ 101 + gen % 256 * 2 ^ 104 + stamp % 65536 * 2 ^ 112)

/-- A negative acknowledgement (R176). -/
def nakWord (code gen win writer gaddr : Nat) : Word128 :=
  BitVec.ofNat 128 (gaddr % 2 ^ 27 + writer % 65536 * 2 ^ 84 + win % 8 * 2 ^ 109 + gen % 256 * 2 ^ 112 + code % 256 * 2 ^ 120)

/-- An acknowledgement (R176). -/
def ackWord (gen win words writer gaddr : Nat) : Word128 :=
  BitVec.ofNat 128 (gaddr % 2 ^ 27 + writer % 65536 * 2 ^ 84 + words % 32 * 2 ^ 100 + win % 8 * 2 ^ 109 + gen % 256 * 2 ^ 112)

/-- An ACK or NAK on its way to a sender. -/
def sendAck (s : State) (src : BitVec 16) (w : Word128) : State :=
  { s with spad := { s.spad with acks := s.spad.acks ++ [⟨src, w⟩] } }

/-- The power and fences of a target: a core or cluster that is fenced, or a cluster gated in K3 or deeper (R175, R373). -/
def targetGone (s : State) (core : Nat) : Bool :=
  let g := clusterOf core
  let c := clusterPower s g
  isFenced s core || clusterFenced s g || !c.powered || decide (c.k ≥ 3) || decide (s.pwr.device ≥ 4)

/-- R175: whether a request is malformed, given its physical source. -/
def requestMalformed (src : BitVec 16) (r : Word128) : Bool :=
  rqWriter r ≠ src || rqPriv r ≠ decide (src.toNat ≥ 0x8000) || rqReserved r ≠ 0 || rqWords r == 0 || decide (rqWords r > 16) ||
    (rqNarrow r && rqWords r ≠ 1) || decide (rqGaddr r % 2 ^ 19 + rqWords r > 2 ^ 19)

/-- A refusal NO_TARGET or MALFORMED (R175, R176): counted, recorded for an ordinary write and for every MALFORMED one. The NAK of a privileged
write carries its window's generation. -/
def refuseOther (s : State) (src : BitVec 16) (r : Word128) (code : Nat) : State :=
  let g := rqGaddr r / 2 ^ 22
  let s := bumpSpd s g 0x60 1
  let s := if src.toNat < 0x8000 ∨ code = 4 then report s {
      cause := 0x0C, source := src.toNat, unit := if src.toNat < 0x8000 then 0xFF else rqWin r, addr := rqGaddr r, info0 := code, info1 := (r.extractLsb' 64 64).toNat } else s
  let gen := if src.toNat < 0x8000 then 0 else (windowOf s (rqGaddr r / 2 ^ 19) (rqWin r)).gen.toNat
  sendAck s src (nakWord code gen (rqWin r) (rqWriter r).toNat (rqGaddr r))

/-- The words of an admitted request written (R165, R166). -/
def writeWords (s : State) (r : Word128) (data : List (Word128 × Bool)) : State :=
  let core := rqGaddr r / 2 ^ 19
  let w := rqGaddr r % 2 ^ 19
  let g := clusterOf core
  let d (i : Nat) : Word128 × Bool := data.getD i (0, false)
  if rqNarrow r then bumpSpd (spadNarrow s core w (rqMask r) (d 0).1 (d 0).2) g 0x20 1
  else
    let ws := (List.range (rqWords r)).map (fun i => w + i)
    let s := if busiestBank true ws > 1 then bumpSpd s g 0x18 1 else s
    (List.range (rqWords r)).foldl (fun s i => spadWrite s core (w + i) (d i).1 (d i).2) s

/-- An ordinary remote write admitted: its words, then its count (R177). -/
def ordinaryWrite (s : State) (r : Word128) (data : List (Word128 × Bool)) : State :=
  let core := rqGaddr r / 2 ^ 19
  let s := writeWords s r data
  let s := setArrival s core (rqCtr r) (addArrival (arrivalOf s core (rqCtr r)) (rqWords r))
  fireCounter (bumpSpd s (clusterOf core) 0x40 (rqWords r)) core (rqCtr r)

/-- Whether a window admits a writer's class (R181). -/
def windowAdmits (w : Window) (src : BitVec 16) : Bool :=
  let v := src.toNat % 2 ^ 14
  match src.toNat / 2 ^ 14 with
  | 2 => w.wFw
  | 3 => if 0x10 ≤ v ∧ v < 0x14 then w.wKtl else if 0x20 ≤ v ∧ v < 0x28 then w.wPgk else false
  | _ => false

/-- A refusal by a window: counted, logged, answered (R176, R184). -/
def refuseWindow (s : State) (src : BitVec 16) (r : Word128) (code : Nat) : State :=
  let core := rqGaddr r / 2 ^ 19
  let g := clusterOf core
  let w := windowOf s core (rqWin r)
  let s := if w.state ≥ 3 then report s {
      cause := 0x0D, source := core, cluster := g, unit := rqWin r, addr := gaddrOf core 0, info0 := rqWin r,
      info1 := windowWord w / 2 ^ 64 } else s
  let s := bumpSpd (setWindow s core (rqWin r) (refusedOnce w)) g 0x58 1
  let s := logAdd s 0x0001 (0xC040 + g) 0 (natBytes 4 (rqGaddr r) ++ natBytes 1 (rqWin r) ++ natBytes 1 (rqGen r).toNat ++
    natBytes 1 w.gen.toNat ++ natBytes 1 code ++ natBytes 2 (rqWriter r).toNat)
  sendAck s src (nakWord code w.gen.toNat (rqWin r) (rqWriter r).toNat (rqGaddr r))

/-- The checks of R183 on a privileged write, in order: none when it is admitted. -/
def windowRefusal (s : State) (src : BitVec 16) (r : Word128) : Option Nat :=
  let w := windowOf s (rqGaddr r / 2 ^ 19) (rqWin r)
  let a := rqGaddr r % 2 ^ 19
  if (s.now % 65536 + 65536 - rqStamp r) % 65536 > 3840 then some 1
  else if w.state ≠ 1 ∨ rqGen r ≠ w.gen then some 1
  else if !windowAdmits w src ∨ a < w.base.toNat ∨ a + rqWords r > w.limit.toNat + 1 then some 2
  else none

/-- An admitted write completes: its words are written, in_flight falls, the ACK leaves (R176, R183). -/
def completeWrite (s : State) (e : BitVec 16 × Word128 × List (Word128 × Bool)) : State :=
  let r := e.2.1
  let core := rqGaddr r / 2 ^ 19
  let s := writeWords s r e.2.2
  let w := windowOf s core (rqWin r)
  let s := setWindow s core (rqWin r) { w with inFlight := w.inFlight - 1 }
  sendAck s e.1 (ackWord (rqGen r).toNat (rqWin r) (rqWords r) (rqWriter r).toNat (rqGaddr r))

/-- The admitted writes that `which` picks complete, oldest first. A write takes 4 cycles (R189), less than a tick, so every admitted write is
complete at the next tick, and before its ACK or the end of its window's CLOSING is seen (log 39). -/
def completeWrites (s : State) (which : Word128 → Bool) : State :=
  let mine := s.spad.admitted.filter (fun e => which e.2.1)
  let s := { s with spad := { s.spad with admitted := s.spad.admitted.filter (fun e => !which e.2.1) } }
  mine.foldl completeWrite s

/-- The oldest admitted write of a window completes. -/
def completeOldest (s : State) (core win : Nat) : State :=
  match s.spad.admitted.findIdx? (fun e => rqGaddr e.2.1 / 2 ^ 19 == core && rqWin e.2.1 == win) with
  | none => s
  | some i =>
    match s.spad.admitted[i]? with
    | none => s
    | some e => completeWrite { s with spad := { s.spad with admitted := s.spad.admitted.eraseIdx i } } e

/-- A privileged remote write at its window: refused, or admitted, its words to be written (R183). At most 32 are in flight at a window: a
write takes 4 cycles, so the oldest has completed by then (R181, R189; log 39). -/
def privilegedWrite (s : State) (src : BitVec 16) (r : Word128) (data : List (Word128 × Bool)) : State :=
  match windowRefusal s src r with
  | some code => refuseWindow s src r code
  | none =>
    let core := rqGaddr r / 2 ^ 19
    let s := if (windowOf s core (rqWin r)).inFlight ≥ 32 then completeOldest s core (rqWin r) else s
    let w := windowOf s core (rqWin r)
    let s := bumpSpd (setWindow s core (rqWin r) { w with inFlight := w.inFlight + 1 }) (clusterOf core) 0x50 1
    { s with spad := { s.spad with admitted := s.spad.admitted ++ [(src, r, data)] } }

/-- A request at the remote port of its core (R175, R177, R183): `src` is its physical source. -/
def remotePort (s : State) (src : BitVec 16) (r : Word128) (data : List (Word128 × Bool)) : State :=
  if requestMalformed src r then refuseOther s src r 4
  else if targetGone s (rqGaddr r / 2 ^ 19) then refuseOther s src r 3
  else if rqPriv r then privilegedWrite s src r data
  else ordinaryWrite s r data

/-! ### Windows of the owner (R182) -/

/-- An illegal window operation: recorded, and the owning command ends (R182). -/
def windowIllegal (s : State) (core win : Nat) (owner : Option Nat) : State :=
  let s := report s {
    cause := 0x0D, source := core, key := owner, cluster := clusterOf core, unit := win, addr := gaddrOf core 0, info0 := win,
    info1 := windowWord (windowOf s core win) / 2 ^ 64 }
  abortOwner s owner

/-- A record of an operation on a window whose state is the reserved one (R182). -/
def windowReserved (s : State) (core win : Nat) (owner : Option Nat) : State :=
  report s {
    cause := 0x0D, source := core, key := owner, cluster := clusterOf core, unit := win, addr := gaddrOf core 0, info0 := win,
    info1 := windowWord (windowOf s core win) / 2 ^ 64 }

/-- A CLOSING window's writes in flight end, and it becomes CLOSED (R182, R183). -/
def windowClose (s : State) (core win : Nat) : State :=
  let s := completeWrites s (fun r => rqGaddr r / 2 ^ 19 == core && rqWin r == win)
  setWindow s core win (closedNow s.now (windowOf s core win))

end Sys2Proof.Machine
end

