-- ==== Sys2Proof/Machine/Streams.lean ====
section
/-! DEFINITION. Stream queues: tiles, transfers, delivery and the standalone streams (spec/08_streams.md R191 to R220). -/
namespace Sys2Proof.Machine

/-! ### The tile in hand -/

/-- The plan image a stream runs from. -/
def streamImage (s : State) (q : Queue) : List Byte := planBytesOf s q.plan

/-- The queue's entry in its plan (R210). -/
def streamEntry (img : List Byte) (qi : Nat) : QueueEntry := queueEntry img (planHeader img) qi

/-- The descriptor in hand (R203). -/
def curDesc (q : Queue) : Desc := descOf (q.basket.headD 0)

/-- The loop levels of a descriptor (R197); a KV descriptor has none. -/
def descLevels (img : List Byte) (d : Desc) : List LoopLevel :=
  if dKind d = 1 then [] else loopLevels (loopTable img (planHeader img) (dLoop d))

/-- The program of a descriptor (R199). -/
def descProgram (img : List Byte) (d : Desc) : List Nat := progWords (progBytes img (planHeader img) (dProg d))

/-- The loop address of a tile, modulo 2⁵² (R198). -/
def loopAddress (d : Desc) (lv : List LoopLevel) (idx : List Nat) : Nat :=
  (d.base + ((lv.zip idx).map (fun e => e.1.stride * e.2)).foldl (· + ·) 0) % 2 ^ 52

/-- One level advanced in the mixed-radix order, with its carry (R198). -/
def advanceLevel (lv : List LoopLevel) (c : Bool × List Nat) (o : Nat) : Bool × List Nat :=
  if c.1 then
    let l := lv.findIdx (fun x => x.order == o)
    let i := c.2.getD l 0 + 1
    if i < (lv.getD l ⟨1, 0, 0⟩).bound then (false, c.2.set l i) else (true, c.2.set l 0)
  else c

/-- The indices of the next tile of a descriptor, none after its last (R198). -/
def nextLoops (lv : List LoopLevel) (idx : List Nat) : Option (List Nat) :=
  let r := (List.range lv.length).foldl (advanceLevel lv) (true, idx)
  if r.1 then none else some r.2

/-- Valid rows of the tile in hand (R195). -/
def validRows (d : Desc) (idx : List Nat) : Nat :=
  if dRowLvl d = 7 then d.rows else min d.rows (d.extRows - idx.getD (dRowLvl d) 0 * d.rows)

/-- Valid bytes of each row of the tile in hand (R195). -/
def validBytes (d : Desc) (idx : List Nat) : Nat :=
  if dColLvl d = 7 then d.rowBytes else min d.rowBytes (d.extBytes - idx.getD (dColLvl d) 0 * d.rowBytes)

/-- The scratchpad word of the buffer of tile `slot` of the stream: its ring slot, or spad (R193, R194, R199). -/
def tileWord (img : List Byte) (qi slot : Nat) (d : Desc) : Nat :=
  let w := d.spad % 2 ^ 19
  if dRing d then
    let e := streamEntry img qi
    (e.ringBase + slot % max 1 e.slots * e.ringStride + w) % 2 ^ 19
  else w

/-- The tile that a queue issues next (R191, R202). -/
def frontTile (q : Queue) : IssuedTile := ⟨q.desc, q.basket.headD 0, q.loops, q.tile, q.streamTile, q.op, [], false⟩

/-- The first word of a tile's buffer: where its program said, else its slot (R199, R201). -/
def bufferOf (img : List Byte) (qi : Nat) (t : IssuedTile) : Nat :=
  match t.op with
  | .emit _ w => w
  | _ => tileWord img qi t.slot (descOf t.raw)

/-- Whether a tile reads or writes its buffer: a store declared empty does not (R201). -/
def touchesBuffer (t : IssuedTile) : Bool :=
  match t.op with
  | .emit _ _ => true
  | _ => !dStore (descOf t.raw)

/-! ### The plan step a queue runs in (R209) -/

/-- The hold of the compute command that a queue runs for; none for a standalone stream. -/
def queueHold (s : State) (core : Nat) (q : Queue) : Option Hold :=
  (cmdOf s q.key).bind (fun c => c.holds.find? (fun h => h.cluster == clusterOf core))

/-- Whether a core's cluster clock runs: the limiter has not stopped it (R401). -/
def clockRuns (s : State) (core : Nat) : Bool := !(clusterPower s (clusterOf core)).stopped

/-- Whether a queue runs: its stream is RUNNING or FAULTED, its clock runs, and one of a compute command runs within a plan step (R191, R209,
R217, R401). -/
def queueRuns (s : State) (core : Nat) (q : Queue) : Bool :=
  (q.state == .running || q.state == .faulted) && clockRuns s core && (queueHold s core q).all (fun h => h.unit.isSome)

/-- Whether a store queue takes its tiles from a load queue of its plan that names it as its consumer (R193, R210). -/
def chainFed (img : List Byte) (qi : Nat) : Bool :=
  (List.range 8).any (fun p => decide ((streamEntry img p).count > 0) && (streamEntry img p).consumer == 8 + qi)

/-- Whether the other end of a queue's link is an array port, the output path or the reduction unit, which take each tile as soon as it is
delivered and make each tile as soon as it is asked for (R193, R205; DESIGN CHOICE, log 60). -/
def unitLinked (s : State) (core qi : Nat) (q : Queue) (store : Bool) : Bool :=
  let img := streamImage s q
  let c := (streamEntry img qi).consumer
  if store then (queueHold s core q).isSome && !chainFed img qi else decide (1 ≤ c ∧ c ≤ 3)

/-! ### Transfers of a tile (R192, R195) -/


/-- A run cut at 256-byte boundaries (R192). -/
def lines256 : Nat → Nat → Nat → List (Nat × Nat)
  | 0, _, _ => []
  | fuel + 1, a, n =>
    if n = 0 then []
    else
      let k := min n (256 - a % 256)
      (a, k) :: lines256 fuel (a + k) (n - k)

/-- The memory address of row `r` of a tile moved to or from `mem`; a global scratchpad address counts words. -/
def rowAddress (d : Desc) (mem r : Nat) : Nat := (if dKind d = 2 then mem * 16 else mem) + r * d.rowStride

/-- The address of the block scales of what stands at address `a` of a descriptor's tensor (R195). -/
def scaleAddress (d : Desc) (a : Nat) : Nat :=
  let base := if dKind d = 2 then d.base * 16 else d.base
  (((d.scaleBase : Int) + ((a : Int) - base) * scaleBytes (fcwFmt d.fmt) / blockBytes d.fmt) % (2 ^ 52 : Int)).toNat

/-- The memory address at which a transfer begins. -/
def transferAddress (d : Desc) (mem : Nat) (x : Transfer) : Nat :=
  let a := rowAddress d mem x.row
  if x.scale then scaleAddress d a + x.byte else a + x.byte

/-- The scratchpad words of a transfer; its scales stand beside them (log 38). -/
def transferWords (d : Desc) (word : Nat) (x : Transfer) : List Nat :=
  if x.scale then []
  else (List.range ((x.byte + x.bytes + 15) / 16 - x.byte / 16)).map (fun i =>
    (word + x.row * (d.rowBytes / 16) + x.byte / 16 + i) % 2 ^ 19)

/-- A transfer of a tagged tile cut where its words pass from one granule to the next; its mark applies to the granule of the last part (R169). -/
def granuleParts (d : Desc) (word : Nat) (x : Transfer) : List Transfer :=
  let first := word + x.row * (d.rowBytes / 16)
  let cut := (((first + x.byte / 16) / 256 + 1) * 256 - first) * 16
  if !dTagged d ∨ x.scale ∨ x.byte + x.bytes ≤ cut then [x]
  else [{ x with bytes := cut - x.byte, marks := none }, { x with byte := cut, bytes := x.byte + x.bytes - cut }]

/-- Whether row `r` of a tile lies in a page of the no-map list (R220). -/
def rowUnmapped (q : Queue) (d : Desc) (mem r bytes : Nat) : Bool :=
  let a := rowAddress d mem r
  decide (dKind d = 0 ∧ bytes > 0) && q.noMap.any (fun p => decide (vpageOf a ≤ p ∧ p ≤ vpageOf (a + bytes - 1)))

/-- The transfers of a tile in row order: each row's bytes, then its scales (R192, R195). A row in an unmapped page moves nothing (R220). -/
def tileTransfers (q : Queue) (d : Desc) (mem word rows bytes : Nat) : List Transfer :=
  (List.range rows).flatMap (fun r =>
    let a := rowAddress d mem r
    let lost := rowUnmapped q d mem r bytes
    let n := if hasBlocks (fcwFmt d.fmt) then bytes / blockBytes d.fmt * scaleBytes (fcwFmt d.fmt) else 0
    let sa := scaleAddress d a
    let data := (lines256 (bytes / 256 + 2) a bytes).map (fun e => { row := r, byte := e.1 - a, bytes := e.2 : Transfer })
    let scales := (lines256 (n / 256 + 2) sa n).map (fun e => { row := r, byte := e.1 - sa, bytes := e.2, scale := true : Transfer })
    (data ++ scales).flatMap (fun x => granuleParts d word { x with
      done := lost, lost := lost
      marks := if dMark d && !lost then (transferWords d word x).getLast?.map granuleIdx else none }))

/-- The granules of a list of words, each once. -/
def wordGranules (ws : List Nat) : List Nat := (ws.map granuleIdx).eraseDups

/-- The words of a tile's buffer. -/
def bufferWords (d : Desc) (word : Nat) : List Nat := (List.range (tileWords d)).map (fun i => (word + i) % 2 ^ 19)

/-- A block of padding as it is stored, with its scale: the padding value narrowed to the stored format (R31, R33, log 38). -/
def padBlock (d : Desc) : Nat × List Nat :=
  let f := fcwFmt d.fmt
  let v := f32Num (padValue d.fmt d.padValue)
  if hasBlocks f then storeBlock d.fmt (fun _ => .rne) (List.replicate (blockElems (fcwBlk d.fmt)) v)
  else (0, [narrowCode (elemFmt f) .rne v])

/-- One stored row of padding. -/
def padRow (d : Desc) : List Byte :=
  let f := fcwFmt d.fmt
  let codes := (padBlock d).2
  packElems f (List.replicate (d.rowBytes * 8 / elemBits f / max 1 codes.length) codes).flatten

/-- The padding word at a byte offset of a row. -/
def padWord (pad : List Byte) (o : Nat) : Word128 := BitVec.ofNat 128 (bytesNat ((pad.drop o).take 16))

/-- On whose behalf a stream accesses memory. -/
def whoStream (q : Queue) (core qi index : Nat) : Who :=
  { die := core / 32, key := some q.key, cluster := clusterOf core, origin := 0, core := core, queue := qi, index := index }

/-- The handle of a stream (R214). -/
def streamHandle (q : Queue) (core qi : Nat) : Nat := q.gen.toNat * 2 ^ 56 + core * 2 ^ 27 + qi * 2 ^ 24

/-! ### Bounds on issue (R192, R193) -/

/-- Transfers of a tile that have not completed. -/
def openTransfers (t : IssuedTile) : Nat := (t.transfers.filter (fun x => !x.done)).length

/-- A queue runs ahead of its transfers no further than its outstanding limit: tiles issued count with their open transfers, at least one
each (R193, R202; log 38). -/
def aheadFull (e : QueueEntry) (q : Queue) : Bool := decide ((q.issued.map (fun t => max 1 (openTransfers t))).sum ≥ max 1 e.outstanding)

/-- A ring tile waits for a free slot, a linked load tile for the consumer (R193). -/
def slotFull (e : QueueEntry) (q : Queue) (d : Desc) : Bool :=
  (dRing d && decide (q.streamTile ≥ q.released + max 1 e.slots)) || (e.linked && !dStore d && decide (q.streamTile > q.released + 4))

/-- The memory runs that the open transfers of a tile read or write. -/
def openRuns (t : IssuedTile) : List (Nat × Nat) :=
  match t.op with
  | .emit mem _ => (t.transfers.filter (fun x => !x.done)).map (fun x => (transferAddress (descOf t.raw) mem.toNat x, x.bytes))
  | _ => []

/-- Whether two runs of a list each share a byte. -/
def anyOverlap (a b : List (Nat × Nat)) : Bool := a.any (fun u => b.any (fun v => runsOverlap u.1 u.2 v.1 v.2))

/-- Whether two tiles of a queue may not be in flight together: they share a buffer and one of them loads, or they share memory and one of
them stores. Transfers complete in any order, and that order never changes what is written (R192). -/
def tilesClash (img : List Byte) (qi : Nat) (a b : IssuedTile) : Bool :=
  let x := descOf a.raw
  let y := descOf b.raw
  let buffers := !(dStore x && dStore y) && touchesBuffer a && touchesBuffer b &&
    runsOverlap (bufferOf img qi a) (tileWords x) (bufferOf img qi b) (tileWords y)
  buffers || ((dStore x || dStore y) && dKind x == dKind y && anyOverlap (openRuns a) (openRuns b))

/-! ### Issue (R193, R202, R205) -/

/-- A queue's next tile begins to wait, its stall timer from now with the budget in force (R171). -/
def waitFor (s : State) (q : Queue) (w : QueueWait) : Queue := { q with wait := w, stall := ⟨0, stallBudget s⟩ }

/-- Whether the next tile of a queue comes from its multicast group: the queue is a receiver and attached (R222). -/
def groupFeeds (s : State) (core qi : Nat) (q : Queue) : Bool :=
  let e := streamEntry (streamImage s q) qi
  decide (e.group ≥ 128) && (tget none s.str.groups (4 * clusterOf core + e.group % 4)).any (fun g =>
    g.key == q.key && g.receivers.any (fun r => r.core == core && r.attached))

/-- Whether a queue is a detached receiver of its multicast group (R224). -/
def receivesAlone (s : State) (core qi : Nat) (q : Queue) : Bool :=
  let e := streamEntry (streamImage s q) qi
  decide (e.group ≥ 128) && (tget none s.str.groups (4 * clusterOf core + e.group % 4)).any (fun g =>
    g.key == q.key && g.receivers.any (fun r => r.core == core && !r.attached))

/-- The queue past a tile: at the next tile of the descriptor, or at the next descriptor (R191). `used` tells whether the tile used a slot
number; a descriptor of the plan's step queue ends the plan step (R209). -/
def pastTile (s : State) (core qi : Nat) (q : Queue) (used : Bool) : Queue :=
  let img := streamImage s q
  let q := { q with
    streamTile := if used then q.streamTile + 1 else q.streamTile, op := .undecided, semTaken := false, wait := .none }
  match nextLoops (descLevels img (curDesc q)) q.loops with
  | some idx => { q with loops := idx, tile := q.tile + 1 }
  | none => { q with
      desc := q.desc + 1, basket := q.basket.drop 1, loops := List.replicate 6 0, tile := 0
      wait := if (queueHold s core q).isSome && qi == (planHeader img).stepQueue then .boundary else .none }

/-- The next tile with its transfers, as it is issued. -/
def issuedFront (q : Queue) : IssuedTile :=
  let d := curDesc q
  { frontTile q with transfers := match q.op with
    | .emit mem w => tileTransfers q d mem.toNat w (validRows d q.loops) (validBytes d q.loops)
    | _ => [] }

/-- The count that a tile takes before it is issued: a producer takes from empty, a consumer from full; the units at the other end of a link
make and take tiles as they are asked (R205; log 60). -/
def takesFull (s : State) (core qi : Nat) (q : Queue) (d : Desc) : Bool := dStore d && !unitLinked s core qi q true

/-- The count that a delivered tile adds to (R205). -/
def postsFull (s : State) (core qi : Nat) (q : Queue) (d : Desc) : Bool := !dStore d && !unitLinked s core qi q false

/-- A page of discarded store rows recorded, once, for the queue that stores them; the command's output is poison (R220). -/
def noteStorePage (core qi : Nat) (s : State) (page : Nat) : State :=
  let q := queueAt s core qi
  if q.noMapRec.contains page then s
  else
    updCmd (report (setQueue s core qi { q with noMapRec := q.noMapRec ++ [page] }) {
      cause := 0x11, source := core, key := some q.key, cluster := clusterOf core, unit := qi, addr := page * 2 ^ 25 }) q.key
      (fun c => { c with poison := true })

/-- The pages of the no-map list that rows of a store tile of memory lie in (R220). -/
def storePages (q : Queue) (t : IssuedTile) : List Nat :=
  let d := descOf t.raw
  match t.op with
  | .emit mem _ =>
    if !dStore d then []
    else q.noMap.filter (fun p => (List.range (validRows d t.loops)).any (fun r =>
      rowUnmapped { q with noMap := [p] } d mem.toNat r (validBytes d t.loops)))
  | _ => []

/-- The next tile issued once its slot, the bounds on issue and its semaphore allow, and whether it was (R193, R205). A tile that the reduction
unit makes stands FULL when it is issued (log 60). -/
def tryIssue (s : State) (core qi : Nat) : State × Bool :=
  let q := queueAt s core qi
  let d := curDesc q
  let img := streamImage s q
  let e := streamEntry img qi
  let t := issuedFront q
  let full := takesFull s core qi q d
  let sem := semAt s core (dSem d)
  if slotFull e q d then (setQueue s core qi { q with wait := .slot }, false)
  else if aheadFull e q ∨ q.issued.any (fun u => tilesClash img qi u t) then (setQueue s core qi { q with wait := .transfers }, false)
  else if dHasSem d ∧ !q.semTaken ∧ semCount sem full = 0 then
    (setQueue s core qi (waitFor s q (.semaphore (dSem d) full true)), false)
  else
    let take := dHasSem d && !q.semTaken
    let s := if take then setSem s core (dSem d) (semTake sem full) else s
    let q := if take then { q with semTaken := true } else q
    let s := if dTagged d && unitLinked s core qi q true && dStore d then
      (wordGranules (bufferWords d (bufferOf img qi t))).foldl (fun s x => setTags s core (x % 2048) 1 true) s else s
    if groupFeeds s core qi q then (setQueue s core qi { q with wait := .group }, false)
    else
      let s := setQueue s core qi (pastTile s core qi { q with issued := q.issued ++ [t] } true)
      ((storePages q t).foldl (noteStorePage core qi) s, true)

/-- The registers of the next tile's program (R199). -/
def tileRegs (img : List Byte) (qi : Nat) (q : Queue) : List (BitVec 64) :=
  let d := curDesc q
  BitVec.ofNat 64 (loopAddress d (descLevels img d) q.loops) :: BitVec.ofNat 64 (tileWord img qi q.streamTile d) :: List.replicate 14 0

/-- One move of a queue's next tile: it begins, or is issued; false when it waits (R191, R199, R202, R203). -/
def pumpOne (s : State) (core qi : Nat) : State × Bool :=
  let q := queueAt s core qi
  let img := streamImage s q
  let d := curDesc q
  if q.desc ≥ (streamEntry img qi).count then (setQueue s core qi { q with wait := .transfers }, false)
  else if q.basket.isEmpty then (setQueue s core qi { q with wait := .basket }, false)
  else if q.op ≠ .undecided then tryIssue s core qi
  else
    let q := { q with regs := tileRegs img qi q, pc := 0 }
    if dHasProg d then (setQueue s core qi { q with wait := .program }, false)
    else
      let op := .emit (BitVec.ofNat 64 (loopAddress d (descLevels img d) q.loops)) (tileWord img qi q.streamTile d)
      tryIssue (setQueue s core qi { q with op := op }) core qi

/-- Whether a queue's next tile can be tried: nothing but its own earlier tiles or their slots hold it. -/
def pumpable (s : State) (core qi : Nat) : Bool :=
  let q := queueAt s core qi
  q.state == .running && queueRuns s core q && (q.wait == .none || q.wait == .slot || q.wait == .transfers)

/-- A queue issues tiles until one waits. -/
def pump : Nat → State → Nat → Nat → State
  | 0, s, _, _ => s
  | fuel + 1, s, core, qi =>
    if pumpable s core qi then
      let (s, more) := pumpOne s core qi
      if more then pump fuel s core qi else s
    else s

/-! ### Slot tags of accesses (R169) -/

/-- The first granule that blocks a tagged access to words of a tile, each part of a beat checked against its own granule (R169). -/
def tagBlock (s : State) (core : Nat) (t : IssuedTile) (ws : List Nat) : Option Nat :=
  let d := descOf t.raw
  if !dTagged d then none
  else (wordGranules ws).find? (fun g => tagFull s core g != dStore d)

/-- An access of a queue blocks on a granule's tag (R169, R171). -/
def blockOn (s : State) (core qi g : Nat) (write : Bool) : State :=
  setQueue s core qi { queueAt s core qi with tagWait := some (g, write, ⟨0, stallBudget s⟩) }

/-- The places of the transfers of a queue's issued tiles that `p` picks: tile, transfer. -/
def transfersWhere (q : Queue) (p : Transfer → Bool) : List (Nat × Nat) :=
  (q.issued.zipIdx).flatMap (fun t => (t.1.transfers.zipIdx.filter (fun x => p x.1)).map (fun x => (t.2, x.2)))

/-- A transfer of a queue changed. -/
def updTransfer (s : State) (core qi ti xi : Nat) (f : Transfer → Transfer) : State :=
  let q := queueAt s core qi
  setQueue s core qi { q with issued := q.issued.modify ti (fun t => { t with transfers := t.transfers.modify xi f }) }

/-- A transfer is issued, its tagged access admitted first; a store to the package handoff starts its timer (R169, R172, R192). -/
def launchOne (s : State) (core qi : Nat) (at_ : Nat × Nat) : State :=
  let q := queueAt s core qi
  match q.issued[at_.1]? with
  | none => s
  | some t =>
    match t.transfers[at_.2]? with
    | none => s
    | some x =>
      let word := bufferOf (streamImage s q) qi t
      if q.tagWait.isSome then s
      else match tagBlock s core t (transferWords (descOf t.raw) word x) with
        | some g => blockOn s core qi g (!dStore (descOf t.raw))
        | none =>
          let s := updTransfer s core qi at_.1 at_.2 (fun x => { x with sent := true })
          let q := queueAt s core qi
          if dKind (descOf t.raw) = 3 ∧ q.handoff.isNone ∧ (queueHold s core q).isNone then
            setQueue s core qi { q with handoff := some ⟨0, stallBudget s⟩ }
          else s

/-- Whether a transfer of a store tile waits for an earlier one of the tile whose bytes it shares: the later row is the one left (R192). -/
def waitsOverlap (q : Queue) (e : Nat × Nat) : Bool :=
  match q.issued[e.1]? with
  | none => false
  | some t =>
    let d := descOf t.raw
    match t.op, t.transfers[e.2]? with
    | .emit mem _, some x =>
      let run (y : Transfer) : Nat × Nat := (transferAddress d mem.toNat y, y.bytes)
      dStore d && decide (d.rowStride < d.rowBytes) &&
        (t.transfers.take e.2).any (fun y => !y.done && y.scale == x.scale && runsOverlap (run y).1 (run y).2 (run x).1 (run x).2)
    | _, _ => false

/-- A queue issues transfers of its tiles, in order, up to its outstanding limit (R192). -/
def launch (s : State) (core qi : Nat) : State :=
  let q := queueAt s core qi
  if q.state ≠ .running ∨ !queueRuns s core q ∨ q.tagWait.isSome then s
  else
    let flying := (transfersWhere q (fun x => x.sent && !x.done)).length
    let room := max 1 (streamEntry (streamImage s q) qi).outstanding - flying
    let next_ := (transfersWhere q (fun x => !x.sent && !x.done)).takeWhile (fun e => !waitsOverlap q e)
    (next_.take room).foldl (fun s e => launchOne s core qi e) s

/-! ### Beats (R166, R167) -/

/-- Whether a conflict of a command on a cluster is already recorded (R167). -/
def conflictNoted (c : Cmd) (g : Nat) : Bool :=
  if c.holds.isEmpty then c.conflict else c.holds.any (fun h => h.cluster == g && h.conflict)

/-- A beat of data traffic: conflicts counted, the first of a command on a cluster recorded (R166, R167). -/
def dataBeat (s : State) (q : Queue) (core qi : Nat) (write : Bool) (ws : List Nat) : State :=
  let m := busiestBank write ws
  if m ≤ 1 then s
  else
    let g := clusterOf core
    let s := bumpSpd (bumpSpd s g 0x08 1) g 0x10 (m - 1)
    if (cmdOf s q.key).any (fun c => conflictNoted c g) then s
    else
      let s := updCmd s q.key (fun c => { c with
        conflict := true, holds := c.holds.map (fun h => if h.cluster = g then { h with conflict := true } else h) })
      report s {
        cause := 0x09, source := core, key := some q.key, cluster := g, unit := qi, addr := gaddrOf core (ws.headD 0 % 2 ^ 19),
        info0 := m }

/-- The words gathered into a queue's next beat go to the banks. -/
def flushBeat (s : State) (core qi : Nat) : State :=
  let q := queueAt s core qi
  if q.beat.isEmpty then s else dataBeat (setQueue s core qi { q with beat := [] }) q core qi q.beatWrite q.beat

/-- One word more in a queue's next beat, which goes to the banks when it has 16. A word that two transfers of a load share is written whole,
once (R164, R165). -/
def addWord (core qi : Nat) (write : Bool) (s : State) (w : Nat) : State :=
  let q := queueAt s core qi
  if write ∧ q.beat.getLast? = some w then s
  else
    let s := setQueue s core qi { q with beat := q.beat ++ [w], beatWrite := write }
    if q.beat.length ≥ 15 then flushBeat s core qi else s

/-- The words of an access of a queue, in beats of up to 16: an access that no longer fits in the beat begins one, shorter ones share it (R166,
R167; DESIGN CHOICE, log 66). -/
def addBeat (s : State) (core qi : Nat) (write : Bool) (ws : List Nat) : State :=
  let q := queueAt s core qi
  let s := if q.beatWrite ≠ write ∨ q.beat.length + ws.length > 16 then flushBeat s core qi else s
  ws.foldl (addWord core qi write) s

/-! ### The end of a stream (R214 to R217) -/

/-- A stream whose last descriptor is delivered: PARKED or FREE, and its command completes with the handle (R214). A PARKED stream keeps
its ring and semaphores. -/
def streamEnd (s : State) (core qi : Nat) : State :=
  let s := flushBeat s core qi
  let q := queueAt s core qi
  let r : Reply := { result := BitVec.ofNat 64 (streamHandle q core qi) }
  let q' := if q.persist then { Queue.reset with
      state := .parked, gen := q.gen, key := q.key, session := q.session, plan := q.plan, persist := true, params := q.params,
      streamTile := q.streamTile, released := q.released } else endStream q
  finishCmd (setQueue s core qi q') q.key r

/-- A queue with every tile of its list delivered ends; a compute command's queue stands until its plan's last step ends. -/
def endIfDone (s : State) (core qi : Nat) : State :=
  let q := queueAt s core qi
  if q.state = .running ∧ q.wait = .transfers ∧ q.desc ≥ (streamEntry (streamImage s q) qi).count ∧ q.issued.isEmpty ∧ !q.unitDone then
    if (queueHold s core q).isSome then setQueue s core qi { q with wait := .done } else streamEnd s core qi
  else s

/-- A queue issues what it can, sends what it may, and ends when it has delivered everything (R191 to R193, R214). At most 64 tiles are
issued at a time. -/
def runAhead (s : State) (core qi : Nat) : State := endIfDone (launch (pump 65 s core qi) core qi) core qi

/-! ### Transfers (R192, R195) -/

/-- The command's output carries poison (R168, R410). -/
def notePoison (s : State) (k : Nat) : State := updCmd s k (fun c => { c with poison := true })

/-- Granules read with the error patterns a transfer met: `flip` is XORed on the near-tier granules it reads, in order (R407). -/
def flipMemory (m : Mem) (pa n : Nat) (flip : List Granule) : Mem :=
  let gs := (List.range ((pa + n + 15) / 16 - pa / 16)).map (fun i => (pa / 16 + i) * 16)
  (gs.zip flip).foldl (fun m e => if e.2 = 0 then m else m.setGranule e.1 (m.granule e.1 ^^^ e.2)) m

/-- Whether two runs of bytes of a row share a word. -/
def sharesWord (t u : Transfer) (w : Nat) : Bool :=
  let a := w * 16
  t.row == u.row && !u.scale && decide (u.byte < a + 16 ∧ a < u.byte + u.bytes)

/-- The bytes of a load transfer written into the tile's buffer, whole words at a time: a word whose other bytes have not come yet holds
padding there (R160, R195). -/
def storeLoaded (s : State) (core : Nat) (it : IssuedTile) (word : Nat) (t : Transfer) (bs : List (Byte × Bool)) : State :=
  let d := descOf it.raw
  let pad := padRow d
  (List.range ((t.byte + t.bytes + 15) / 16 - t.byte / 16)).foldl (fun s i =>
    let w := t.byte / 16 + i
    let a := (word + t.row * (d.rowBytes / 16) + w) % 2 ^ 19
    let came := it.transfers.any (fun u => u.done && sharesWord t u w)
    let old := if came then (s.spad.mem.deliver (spadAddr core a)) else (padWord pad (w * 16), false)
    let mine := (List.range 16).filterMap (fun k =>
      let o := w * 16 + k
      if t.byte ≤ o ∧ o < t.byte + t.bytes then (bs[o - t.byte]?).map (fun b => (k, b)) else none)
    let x := mine.foldl (fun (x : Word128) e =>
      let v : Word128 := e.2.1.setWidth 128
      (x &&& ~~~(BitVec.ofNat 128 255 <<< (8 * e.1))) ||| (v <<< (8 * e.1))) old.1
    spadWrite s core a x (old.2 || mine.any (fun e => e.2.2))) s

/-- The block scales that stand beside a row of a tile's buffer, by the row's first word (log 38). -/
def scalesAt (s : State) (core w : Nat) : List (Byte × Bool) := tget [] s.spad.scales (gaddrOf core (w % 2 ^ 19))

/-- Scale bytes `o` on of a row's block scales replaced. -/
def setScales (s : State) (core w o : Nat) (bs : List (Byte × Bool)) : State :=
  let old := scalesAt s core w
  let l := (List.range (max old.length (o + bs.length))).map (fun i =>
    if o ≤ i ∧ i < o + bs.length then bs.getD (i - o) (0, false) else old.getD i (0, false))
  { s with spad := { s.spad with scales := tset [] s.spad.scales (gaddrOf core (w % 2 ^ 19)) l } }

/-- The first word of a row of a tile's buffer. -/
def rowWord (d : Desc) (word r : Nat) : Nat := word + r * (d.rowBytes / 16)

/-- The bytes of a store transfer read from the buffer, each with its word's poison; those of its scales from beside it. -/
def readStored (s : State) (q : Queue) (core : Nat) (d : Desc) (word : Nat) (t : Transfer) : List (Byte × Bool) × State :=
  if t.scale then
    let l := scalesAt s core (rowWord d word t.row)
    ((List.range t.bytes).map (fun i => l.getD (t.byte + i) (0, false)), s)
  else
    let (ws, s) := (transferWords d word t).foldl (fun (acc : List (Word128 × Bool) × State) w =>
      let (x, s) := spadRead acc.2 (some q.key) core w
      (acc.1 ++ [x], s)) ([], s)
    let bytes := ws.flatMap (fun x => (List.range 16).map (fun i => (x.1.extractLsb' (8 * i) 8, x.2)))
    ((bytes.drop (t.byte % 16)).take t.bytes, s)

/-- A code error of a cached line, met by a read: a corrected granule, or a line dropped and read again from the stack. Both are recorded as
CORRECTED, with the die slice's translation unit as source, since the hamper has no identity of its own (R231, R407; log 50). -/
def hamperError (s : State) (w : Who) (g : Nat) (o : CodeOutcome) : State :=
  let line := g / 256
  let die := line / 2 ^ 31
  let key := hamperSet line
  let (i, e) := match o with
    | .corrected i e => (i, e)
    | _ => (0, 0)
  let ways := tget [] s.xlt.hamper key
  let ways := match o with
    | .corrected _ _ => ways
    | _ => ways.filter (fun l => l ≠ line)
  let s := bumpXlt { s with xlt := { s.xlt with hamper := tset [] s.xlt.hamper key ways } } die 0x58 1
  report s { cause := 0x01, source := xltSource die, key := w.key, cluster := w.cluster, addr := g, info0 := i + e * 256 + 4 * 65536 }

/-- The flipped bits that a read of the near tier meets, granule by granule: in the hamper where the line is cached, else in the stack. -/
def meetFlips (s : State) (w : Who) (pa n : Nat) (flip : List Granule) : State :=
  match regionOf pa with
  | .near _ =>
    let gs := (List.range ((pa + n + 15) / 16 - pa / 16)).map (fun i => (pa / 16 + i) * 16)
    (gs.zip flip).foldl (fun s e =>
      let cached := hamperHas s (e.1 / 256)
      let met : CodeOutcome := if cached ∧ e.2 ≠ (0 : Granule) then decodeOutcome (s.pmem.granule e.1 ^^^ e.2) else .clean
      match met with
      | .corrected i x => hamperError s w e.1 (.corrected i x)
      | .uncorrectable => hamperError s w e.1 .uncorrectable
      | _ => { s with pmem := flipMemory s.pmem e.1 16 [e.2] }) s
  | _ => s

/-- Bytes with their poison written to physical memory. -/
def physWriteMarked (w : Who) (pa : Nat) (bs : List (Byte × Bool)) (s : State) : State :=
  (poisonRuns 0 bs).foldl (fun s e => physWrite w (pa + e.1) e.2.1 e.2.2 s) s

/-- One REMOTE store transfer: ordinary write requests of whole words, and a narrow one for a last part of a word (R174, R194). -/
def remoteTransfer (s : State) (core ctr a : Nat) (bs : List (Byte × Bool)) : State :=
  let src := BitVec.ofNat 16 core
  let full := bs.length / 16
  let wordAt (i : Nat) : Word128 × Bool :=
    let c := (bs.drop (16 * i)).take 16
    (BitVec.ofNat 128 (bytesNat (c.map (·.1))), c.any (·.2))
  let s := if full = 0 then s else
    remotePort s src (makeRequest 0 0 0 false core ctr full false 0 (a / 16)) ((List.range full).map wordAt)
  let rest := bs.length % 16
  if rest = 0 then s
  else remotePort s src (makeRequest 0 0 0 false core ctr 1 true (2 ^ rest - 1) (a / 16 + full)) [wordAt full]

/-- The words a HANDOFF transfer gives the package handoff (R187). -/
def handoffTransfer (s : State) (a : Nat) (bs : List (Byte × Bool)) : State :=
  let n := (bs.length + 15) / 16
  let words := (List.range n).map (fun i =>
    let c := (bs.drop (16 * i)).take 16
    (a + 16 * i, (BitVec.ofNat 128 (bytesNat (c.map (·.1))) : Word128), c.any (·.2)))
  { s with spad := { s.spad with handoff := s.spad.handoff ++ words } }

/-- A transfer's translation: an address, or the miss it leaves; a request that joins a pending fault leaves the queue FAULTED (R218,
R246). -/
def transferXlate (s : State) (q : Queue) (core qi : Nat) (at_ : Nat × Nat) (va access : Nat) : Option Nat × State :=
  let die := core / 32
  let asid := cmdAsid s q.key
  match cachedPa s (some core) die asid va access with
  | (some pa, s) => (some pa, s)
  | (none, s) =>
    let faulted := (pendingFor s die asid va).isSome
    let s := missRequest s die asid (waiterOf (whoStream q core qi at_.2) va access)
    let s := updTransfer s core qi at_.1 at_.2 (fun x => { x with fault := some (vpageOf va) })
    (none, if faulted then setQueue s core qi { queueAt s core qi with state := .faulted } else s)

/-- Whether a store tile of a plan step is staged, to be drained after its commit, and whether it writes at all: the tiles of the reduction
unit are the command's results, which its plan step stages itself (R366; log 60). -/
def stagedStore (s : State) (core : Nat) (q : Queue) : Bool := (queueHold s core q).isSome

/-- A transfer between physical memory and the buffer or the scales beside it. -/
def memTransfer (s : State) (q : Queue) (core qi : Nat) (at_ : Nat × Nat) (it : IssuedTile) (word : Nat) (t : Transfer) (pa : Nat)
    (flip : List Granule) : State :=
  let d := descOf it.raw
  let w := whoStream q core qi at_.2
  let g := clusterOf core
  let s :=
    if dStore d then
      let (bs, s) := readStored s q core d word t
      let s := if bs.any (·.2) then notePoison s q.key else s
      if stagedStore s core q then bumpStr s g 0x20 t.bytes
      else bumpStr (physWriteMarked w pa bs s) g 0x20 t.bytes
    else
      let s := meetFlips s w pa t.bytes flip
      let (bs, s) := physRead w pa t.bytes s
      let s := if bs.any (·.2) then notePoison s q.key else s
      let s := if t.scale then setScales s core (rowWord d word t.row) t.byte bs else storeLoaded s core it word t bs
      bumpStr s g 0x18 t.bytes
  updTransfer s core qi at_.1 at_.2 (fun x => { x with done := true })

/-- The timer of a store to the package handoff after a word was accepted: anew while more wait (R187). -/
def handoffMoved (s : State) (core qi : Nat) : State :=
  let q := queueAt s core qi
  let more := q.unitDone || q.issued.any (fun t => dKind (descOf t.raw) == 3 && t.transfers.any (fun x => x.sent && !x.done && !x.scale))
  setQueue s core qi { q with handoff := if more then some ⟨0, stallBudget s⟩ else none }

/-- A transfer to another scratchpad or to the package handoff (R187, R194); that of a plan step goes to step staging with its tile (R366). -/
def awayTransfer (s : State) (q : Queue) (core qi : Nat) (at_ : Nat × Nat) (it : IssuedTile) (word a : Nat) (t : Transfer) : State :=
  let d := descOf it.raw
  let s := addBeat s core qi false (transferWords d word t)
  let (bs, s) := readStored s q core d word t
  let bad := bs.any (·.2)
  let s := if bad then notePoison s q.key else s
  let s := updTransfer (bumpStr s (clusterOf core) 0x20 t.bytes) core qi at_.1 at_.2 (fun x => { x with done := true })
  let q := queueAt s core qi
  let s := if bad then setQueue s core qi { q with issued := q.issued.modify at_.1 (fun t => { t with bad := true }) } else s
  if stagedStore s core q then s
  else if dKind d = 2 then remoteTransfer s core (dCtr d) a bs
  else handoffMoved (handoffTransfer s a bs) core qi

/-- One transfer in flight completes or meets a miss (R192, R218); fenced memory ends the command (R18). -/
def doTransfer (s : State) (core qi : Nat) (at_ : Nat × Nat) (flip : List Granule) : State :=
  let q := queueAt s core qi
  match q.issued[at_.1]? with
  | none => s
  | some it =>
    match it.op, it.transfers[at_.2]? with
    | .emit mem word, some t =>
      let d := descOf it.raw
      let a := transferAddress d mem.toNat t
      if t.done ∨ t.fault.isSome then s
      else if (dKind d = 2 ∨ dKind d = 3) ∧ !t.scale then awayTransfer s q core qi at_ it word a t
      else
        match transferXlate s q core qi at_ a (if dStore d then 2 else 1) with
        | (none, s) => s
        | (some pa, s') =>
          if paFenced s' pa then abortCmd s' q.key 0x20
          else if regionOf pa = .host ∧ dStore d ∧ hostHeld s q.key then s
          else memTransfer (addBeat s' core qi (!dStore d) (transferWords d word t)) q core qi at_ it word t pa flip
    | _, _ => s

/-! ### Delivery (R191, R205, R220) -/

/-- The rows of a load tile that lie in a page of the no-map list (R220). -/
def lostRow (t : IssuedTile) (r : Nat) : Bool := t.transfers.any (fun x => x.row == r && x.lost)

/-- The words of a row that a load tile fills with padding, none where its own transfers fill it (R195, R201, R220). -/
def paddedWords (t : IssuedTile) (r : Nat) : List Nat :=
  let d := descOf t.raw
  let n := d.rowBytes / 16
  match t.op with
  | .emit _ _ =>
    let b := validBytes d t.loops
    if r ≥ validRows d t.loops ∨ b = 0 ∨ lostRow t r then List.range n else (List.range n).filter (fun w => decide (16 * w ≥ b))
  | _ => List.range n

/-- Whether the padding of a row is poison: the row lies in an unmapped page, or an LDS of the program met poison (R220, R410). -/
def poisonPad (t : IssuedTile) (r : Nat) : Bool := lostRow t r || t.op == .poison

/-- The scratchpad words that a load tile fills with padding. -/
def padWords (t : IssuedTile) (word : Nat) : List Nat :=
  let d := descOf t.raw
  (List.range d.rows).flatMap (fun r => (paddedWords t r).map (fun w => (rowWord d word r + w) % 2 ^ 19))

/-- Whether a transfer that has not completed touches a granule. -/
def writesGranule (img : List Byte) (qi : Nat) (t : IssuedTile) (g : Nat) (x : Transfer) : Bool :=
  !x.done && (transferWords (descOf t.raw) (bufferOf img qi t) x).any (fun w => granuleIdx w == g)

/-- The marks that can be made now: those of completed accesses, once every other access of the tile to the granule and every earlier write of
the queue to it has completed. The accesses of a tile to one granule count as one, so that its own mark blocks none of them; a granule that
the tile pads is marked when it is delivered (R169; DESIGN CHOICE, log 38). -/
def readyMarks (img : List Byte) (qi : Nat) (q : Queue) : List (Nat × Nat × Nat) :=
  (transfersWhere q (fun x => x.done && x.marks.isSome)).filterMap (fun e =>
    match q.issued[e.1]? with
    | none => none
    | some t => ((t.transfers[e.2]?).bind (·.marks)).bind (fun g =>
      let load := !dStore (descOf t.raw)
      let before := load && (q.issued.take e.1).any (fun u => !dStore (descOf u.raw) && u.transfers.any (writesGranule img qi u g))
      let pads := load && (padWords t (bufferOf img qi t)).any (fun w => granuleIdx w == g)
      if before || pads || t.transfers.any (writesGranule img qi t g) then none else some (e.1, e.2, g)))

/-- The marks of completed accesses made (R169). -/
def makeMarks (s : State) (core qi : Nat) : State :=
  let q := queueAt s core qi
  (readyMarks (streamImage s q) qi q).foldl (fun s e =>
    let store := (q.issued[e.1]?).any (fun t => dStore (descOf t.raw))
    updTransfer (setTags s core (e.2.2 % 2048) 1 (!store)) core qi e.1 e.2.1 (fun x => { x with marks := none })) s

/-- One row of a tile padded, its padding's block scales beside it. -/
def padOneRow (s : State) (core qi : Nat) (t : IssuedTile) (pad : List Byte) (word r : Nat) : State :=
  let d := descOf t.raw
  let f := fcwFmt d.fmt
  let ws := paddedWords t r
  let bad := poisonPad t r
  let s := addBeat s core qi true (ws.map (fun w => (rowWord d word r + w) % 2 ^ 19))
  let s := ws.foldl (fun s w => spadWrite s core ((rowWord d word r + w) % 2 ^ 19) (padWord pad (16 * w)) bad) s
  if hasBlocks f ∧ !ws.isEmpty then
    let z := scaleBytes f
    let first := (16 * ws.headD 0 + blockBytes d.fmt - 1) / blockBytes d.fmt
    let n := d.rowBytes / blockBytes d.fmt - first
    setScales s core (rowWord d word r) (first * z)
      ((List.replicate n ((natBytes z (padBlock d).1).map (fun b => (b, false)))).flatten)
  else s

/-- The padding of a load tile at its delivery (R195, R201, R220, R410). -/
def padTile (s : State) (core qi : Nat) (q : Queue) (t : IssuedTile) : State :=
  let d := descOf t.raw
  let pad := padRow d
  let word := bufferOf (streamImage s q) qi t
  let s := (List.range d.rows).foldl (fun s r => padOneRow s core qi t pad word r) s
  let lost := ((List.range d.rows).filter (lostRow t)).length
  let s := if lost > 0 ∨ t.op = .poison then notePoison s q.key else s
  if lost > 0 then bumpStr s (clusterOf core) 0x40 lost else s

/-- The queues that a consumer queue's tile releases let go on when they waited for a slot (R193). -/
def releaseLinked (s : State) (core qi : Nat) (plan : Nat) : State :=
  (List.range 8).foldl (fun s p =>
    let q := queueAt s core p
    if p ≠ qi ∧ q.plan = plan ∧ (q.state = .running ∨ q.state = .faulted) ∧ (streamEntry (streamImage s q) p).consumer = 8 + qi ∧
        q.released < q.streamTile then
      runAhead (setQueue s core p { q with released := q.released + 1 }) core p
    else s) s

/-- An over-post: recorded, and the command ends (R205). -/
def overPost (s : State) (core pair : Nat) (k : Nat) : State :=
  let s := report s {
    cause := 0x0F, source := core, key := some k, cluster := clusterOf core, addr := gaddrOf core 0, info0 := pair,
    info1 := (semWord (semAt s core pair)).toNat }
  abortCmd s k 0x20

/-! ### Handoff units (R187) -/

/-- The queue after the notice of its unit. -/
def unitEnded (q : Queue) : Queue := { q with unitDone := false, unitTiles := 0, unitBytes := 0, unitPoison := false }

/-- The DATA notice of a whole handoff unit posted (R187). -/
def postUnit (s : State) (core qi : Nat) : State :=
  let q := queueAt s core qi
  if !q.unitDone then s
  else
    let n := unitNotice s core qi q
    handoffMoved (setQueue (postNotice s core n.1 n.2) core qi (unitEnded q)) core qi

/-- A tile added to its handoff unit; a unit that is whole waits for its notice, and a descriptor's last tile ends its unit (R187). -/
def countUnit (s : State) (core qi : Nat) (q : Queue) (t : IssuedTile) : State :=
  let d := descOf t.raw
  let fresh := q.unitTiles = 0 ∨ q.unitDesc ≠ t.desc
  let bytes := if touchesBuffer t then validRows d t.loops * validBytes d t.loops else 0
  let n := if fresh then 1 else q.unitTiles + 1
  let whole := decide (n ≥ d.unit)
  setQueue s core qi { q with
    unitDesc := t.desc
    unitFirst := if fresh then bufferOf (streamImage s q) qi t else q.unitFirst
    unitTiles := n
    unitBytes := (if fresh then 0 else q.unitBytes) + bytes
    unitPoison := (!decide fresh && q.unitPoison) || t.bad
    unitDone := whole
    handoff := if whole && q.handoff.isNone then some ⟨0, stallBudget s⟩ else q.handoff }

/-- A store tile of a plan step is staged for the drain, the rows in unmapped pages left out (R220, R366). A tile for memory that the
reduction unit makes is the command's result, which its plan step stages itself (log 60). -/
def stageTile (s : State) (core qi : Nat) (q : Queue) (t : IssuedTile) : State :=
  let d := descOf t.raw
  let away := dKind d = 2 ∨ dKind d = 3
  match t.op, queueHold s core q with
  | .emit mem word, some _ =>
    if (dKind d ≠ 0 ∧ !away) ∨ (dKind d = 0 ∧ !chainFed (streamImage s q) qi) then s
    else
      let b := validBytes d t.loops
      let row (r : Nat) : List (Byte × Bool) :=
        if lostRow t r then []
        else ((transferWords d word { row := r, byte := 0, bytes := b }).flatMap (fun w =>
          let x := s.spad.mem.deliver (spadAddr core w)
          (List.range 16).map (fun i => (x.1.extractLsb' (8 * i) 8, x.2)))).take b
      let z := b / blockBytes d.fmt * scaleBytes (fcwFmt d.fmt)
      let scaleRow (r : Nat) : List (Byte × Bool) := if lostRow t r then [] else (scalesAt s core (rowWord d word r)).take z
      let rows := (List.range (validRows d t.loops)).map row
      let asid := cmdAsid s q.key
      let a := rowAddress d mem.toNat 0
      let scales := if hasBlocks (fcwFmt d.fmt) then
          (List.range (validRows d t.loops)).map (fun r =>
            ({ kind := 0, asid := asid, dest := scaleAddress d (rowAddress d mem.toNat r), stride := 0, rows := [scaleRow r] } : Staged)) else []
      let tile : Staged := {
        kind := dKind d, asid := asid, dest := if dKind d = 2 then mem.toNat else a, stride := d.rowStride, rows := rows
        core := core, ctr := if dKind d = 2 then dCtr d else 0 }
      updHold s q.key (clusterOf core) (fun h => { h with streamed := h.streamed ++ tile :: scales })
  | _, _ => s

/-- A load tile that a plan step's program declared empty, or that met poison, noted for the units that read it: where the tile lies in its
tensor (R33, R201, R410). -/
def noteEmpty (s : State) (core : Nat) (q : Queue) (t : IssuedTile) : State :=
  let d := descOf t.raw
  match t.op, queueHold s core q with
  | .emit _ _, _ => s
  | _, none => s
  | op, some _ =>
    let base := loopAddress d (descLevels (streamImage s q) d) t.loops
    let e : EmptyTile := ⟨base, d.rowStride, d.rows, d.rowBytes, op == .poison⟩
    if dKind d ≠ 0 ∨ dStore d then s else updHold s q.key (clusterOf core) (fun h => { h with emptied := h.emptied ++ [e] })

/-- A handoff notice of a plan step staged behind the tiles it follows (R187, R366). -/
def stageNotice (s : State) (core : Nat) (q : Queue) (dest : Nat) (n : Word128) : State :=
  updHold s q.key (clusterOf core) (fun h => { h with streamed := h.streamed ++
    [{ kind := 3, asid := cmdAsid s q.key, dest := dest, stride := 0, rows := [], core := core, notice := some (dest, n) }] })

/-- In a plan step the notice of a whole unit is staged at once (R366). -/
def settleUnit (s : State) (core qi : Nat) : State :=
  let q := queueAt s core qi
  if !stagedStore s core q ∨ !q.unitDone then s
  else
    let n := unitNotice s core qi q
    setQueue (stageNotice s core q n.1 n.2) core qi { unitEnded q with handoff := none }

/-- The beats in which an array port reads a tile: up to 16 words of a row each (R164, R167). -/
def feedBeats (s : State) (core qi : Nat) (q : Queue) (d : Desc) (word : Nat) : State :=
  (List.range d.rows).foldl (fun s r =>
    (chunksOf 16 (d.rowBytes / 16) ((List.range (d.rowBytes / 16)).map (fun w => (rowWord d word r + w) % 2 ^ 19))).foldl
      (fun s ws => dataBeat s q core qi false ws) s) s

/-- The oldest issued tile delivered: padding and its marks, counts, release, semaphore post, handoff unit (R169, R187, R191, R193, R205).
The units that take a tile as it is delivered read it with the tile's own marks (log 60). -/
def deliverTile (s : State) (core qi : Nat) (t : IssuedTile) : State :=
  let q := queueAt s core qi
  let d := descOf t.raw
  let g := clusterOf core
  let word := bufferOf (streamImage s q) qi t
  let s := if dStore d then stageTile s core qi q t else padTile (noteEmpty s core q t) core qi q t
  let s := if dStore d ∨ !dMark d then s
    else (wordGranules (padWords t word)).foldl (fun s x => setTags s core (x % 2048) 1 true) s
  let s := if !dStore d ∧ dMark d ∧ unitLinked s core qi q false then
      (wordGranules (bufferWords d word)).foldl (fun s x => setTags s core (x % 2048) 1 false) s else s
  let s := if !dStore d ∧ unitLinked s core qi q false then feedBeats s core qi q d word else s
  let s := bumpStr s g (if dStore d then 0x10 else 0x08) 1
  let s := if receivesAlone s core qi q then bumpStr s g 0x68 1 else s
  let linked := (streamEntry (streamImage s q) qi).linked && !dStore d && !unitLinked s core qi q false
  let q := queueAt s core qi
  let s := setQueue s core qi { q with issued := q.issued.drop 1, released := if linked then q.released else t.slot + 1 }
  let s := releaseLinked s core qi q.plan
  let post := if dHasSem d then semPost (semAt s core (dSem d)) (postsFull s core qi q d) else none
  if dHasSem d ∧ post.isNone then overPost s core (dSem d) q.key
  else
    let s := match post with
      | some p => setSem s core (dSem d) p
      | none => s
    if dKind d = 3 then settleUnit (countUnit s core qi (queueAt s core qi) t) core qi else s

/-- The first granule that blocks an array port's tagged read of a tile that it takes at its delivery: one that neither the tile's own mark nor
another makes FULL (R169, R170). -/
def feedBlock (s : State) (core qi : Nat) (q : Queue) (t : IssuedTile) (word : Nat) : Option Nat :=
  let d := descOf t.raw
  if dStore d ∨ !dTagged d ∨ dMark d ∨ !unitLinked s core qi q false then none
  else (wordGranules (bufferWords d word)).find? (fun g => !tagFull s core g)

/-- What stands in the way of delivering a queue's oldest issued tile: a transfer, an unposted notice, or a tag, which blocks a write of the
words it pads or an array port's read; the block tells its granule and whether it writes. -/
def deliverable (s : State) (core qi : Nat) : Option (Except (Nat × Bool) IssuedTile) :=
  let q := queueAt s core qi
  match q.issued with
  | [] => none
  | t :: _ =>
    if q.unitDone ∨ (q.state ≠ .running ∧ q.state ≠ .faulted) ∨ openTransfers t > 0 then none
    else
      let word := bufferOf (streamImage s q) qi t
      match if dStore (descOf t.raw) then none else tagBlock s core t (padWords t word), feedBlock s core qi q t word with
      | some g, _ => some (.error (g, true))
      | none, some g => some (.error (g, false))
      | none, none => some (.ok t)

/-- A command told to stop ends at the tile boundary (R344). -/
def stopsHere (s : State) (k : Nat) : Option Nat := (cmdOf s k).bind (fun c => if c.holds.isEmpty then c.stop else none)

/-- Every tile that is ready is delivered, in order (R191). -/
def deliverReady : Nat → State → Nat → Nat → State
  | 0, s, _, _ => s
  | fuel + 1, s, core, qi =>
    match deliverable s core qi with
    | none => s
    | some (.error (g, write)) => if (queueAt s core qi).tagWait.isSome then s else blockOn s core qi g write
    | some (.ok t) =>
      let k := (queueAt s core qi).key
      let s := deliverTile s core qi t
      match stopsHere s k with
      | some code => abortCmd s k code
      | none => deliverReady fuel s core qi

/-- What follows a completed access or a released one: marks, deliveries, and the queue goes on. -/
def goOn (s : State) (core qi : Nat) : State := runAhead (deliverReady 65 (makeMarks s core qi) core qi) core qi

/-- The translation unit that a stream needs is fenced: its command ends (R18). -/
def streamFenced (s : State) (core : Nat) : Bool := isFenced s (xltSource (core / 32))

/-- The transfers in flight (R192). -/
def inFlight (q : Queue) : List (Nat × Nat) := transfersWhere q (fun x => x.sent && !x.done && x.fault.isNone)

/-- TRANSFER_COMPLETE: one transfer in flight completes, and the tiles that are then ready are delivered (R191, R192). A tile without
transfers is delivered (log 24). Transfers issued before a fault complete while the queue is FAULTED (R218). -/
def transferComplete (s : State) (core qi index : Nat) (flip : List Granule) : State :=
  let q := queueAt s core qi
  if !queueRuns s core q ∨ q.issued.isEmpty then s
  else if streamFenced s core then abortCmd s q.key 0x20
  else
    match inFlight q with
    | [] => goOn s core qi
    | l => goOn (doTransfer s core qi (l.getD (index % l.length) (0, 0)) flip) core qi

/-! ### Faults (R218, R220) -/

/-- Whether the fault of a page still stands for a queue: recorded and not answered. -/
def faultStands (s : State) (q : Queue) (core page : Nat) : Bool := (pendingFor s (core / 32) (cmdAsid s q.key) (page * 2 ^ 25)).isSome

/-- The transfers of a queue changed. -/
def mapTransfers (f : Transfer → Transfer) (q : Queue) : Queue :=
  { q with issued := q.issued.map (fun t => { t with transfers := t.transfers.map f }) }

/-- A queue goes on after the answer for a page: the transfers that waited for it are issued again, and the queue is RUNNING when no other
fault stands (R218). -/
def streamResume (s : State) (core qi va : Nat) : State :=
  let q := queueAt s core qi
  if q.state ≠ .running ∧ q.state ≠ .faulted then s
  else
    let page := vpageOf va
    let q' := mapTransfers (fun x => if x.fault = some page then { x with fault := none, sent := false } else x) q
    let still := (transfersWhere q' (fun x => x.fault.any (faultStands s q core))).isEmpty
    let s := if q.state = .faulted ∧ still then bumpStr s (clusterOf core) 0x38 1 else s
    goOn (setQueue s core qi { q' with state := if still then .running else q.state }) core qi

/-- A queue's transfer met a translation fault: it stops issuing (R218). -/
def streamFault (s : State) (core qi : Nat) : State :=
  let q := queueAt s core qi
  if q.state = .running then setQueue s core qi { q with state := .faulted } else s

/-- The rows of an issued tile that lie in the pages of the no-map list move nothing more: load rows are delivered as poison padding, store
rows discarded (R220). -/
def loseRows (q : Queue) (t : IssuedTile) : IssuedTile :=
  match t.op with
  | .emit mem _ =>
    let d := descOf t.raw
    { t with transfers := t.transfers.map (fun x =>
        if rowUnmapped q d mem.toNat x.row (validBytes d t.loops) then { x with done := true, lost := true, fault := none, marks := none }
        else x) }
  | _ => t

/-- NO_MAPPING: the page enters the no-map list of four; a store's page is recorded once, its rows discarded (R220). -/
def streamNoMap (s : State) (core qi va : Nat) : State :=
  let q := queueAt s core qi
  if q.state ≠ .running ∧ q.state ≠ .faulted then s
  else
    let page := vpageOf va
    let l := q.noMap.filter (fun p => p ≠ page) ++ [page]
    let l := if l.length > 4 then l.drop 1 else l
    let q := { q with noMap := l, noMapHit := true, noMapRec := q.noMapRec.filter (fun p => p ≠ page) }
    let s := (q.issued.flatMap (fun t => (storePages q t).filter (fun p => p = page))).foldl (noteStorePage core qi) (setQueue s core qi q)
    let q := queueAt s core qi
    streamResume (setQueue s core qi { q with issued := q.issued.map (loseRows q) }) core qi va

/-! ### Baskets (R203) -/

/-- A descriptor that breaks R194 to R198: recorded, and the command ends (R203). -/
def descInvalid (s : State) (q : Queue) (core qi va i : Nat) : State :=
  let s := report s {
    cause := 0x10, source := core, key := some q.key, cluster := clusterOf core, unit := qi, addr := va, info0 := i }
  abortCmd s q.key 0x20

/-- The descriptors of a basket read through the plan store's pool (R203). -/
def readBasket (w : Who) (va n : Nat) : Act (List Byte) := do
  let mut out : List Byte := []
  for (a, k) in pagePieces 3 va (64 * n) do
    out := out ++ (← poolRead w a k 5)
  return out

/-- The first descriptor of a basket that fails its checks (R194, R203). -/
def basketInvalid (img : List Byte) (ds : List (BitVec 512)) : Option Nat :=
  let h := planHeader img
  let levels (t : Nat) : Nat := le (loopTable img h t) 0 1
  let env : DescEnv := ⟨h.loopCount, h.progCount, levels, true, false⟩
  (ds.mapIdx (fun i d => if (descCheck env ⟨0, 0, 0⟩ (descOf d)).isSome then some i else none)).findSome? id

/-- BASKET_ARRIVAL: up to 16 descriptors of the list arrive and are checked (R203). -/
def basketArrival (s : State) (core qi : Nat) : State :=
  let q := queueAt s core qi
  let img := streamImage s q
  let h := planHeader img
  let e := streamEntry img qi
  let at_ := q.desc + q.basket.length
  if !queueRuns s core q ∨ q.basket.length > 8 ∨ at_ ≥ e.count then s
  else
    let n := min (16 - at_ % 16) (e.count - at_)
    let off := (planOf s q.plan).elim 0 (fun p => p.offset)
    let va := cfgVal s 0x4000 0 + off + h.descOff + 64 * (e.first + at_)
    let w := { whoStream q core qi 0 with origin := 1 }
    match (readBasket w va n).run s with
    | .error _ s => abortCmd s q.key 0x20
    | .ok bs s =>
      let s := bumpStr (bumpStr s (clusterOf core) 0x28 1) (clusterOf core) 0x18 (64 * n)
      let ds := (chunksOf 64 n bs).map (fun c => BitVec.ofNat 512 (bytesNat c))
      match basketInvalid img ds with
      | some i => descInvalid s q core qi (va + 64 * i) (at_ + i)
      | none =>
        let s := setQueue s core qi { q with basket := q.basket ++ ds }
        if q.wait = .basket then runAhead (setQueue s core qi { queueAt s core qi with wait := .none }) core qi else s

/-! ### Placing and halting (R214 to R216) -/

/-- A stream starts or starts again at descriptor 0 (R214, R215). -/
def startQueue (q : Queue) (k session plan : Nat) (persist : Bool) (params : List (BitVec 64)) : Queue :=
  { Queue.reset with
    state := .running, gen := q.gen, key := k, session := session, plan := plan, persist := persist, params := params,
    loops := List.replicate 6 0, streamTile := q.streamTile, released := q.released, wait := .basket }

/-- The pairs of a plan set on a core when a command starts there (R205). -/
def startSems (s : State) (core : Nat) (img : List Byte) : State :=
  let h := planHeader img
  (List.range h.semCount).foldl (fun s i => setSem s core i (semStart (le img (h.semOff + 8 * i + 4) 2))) s

/-- Tags of the granules that a plan uses, set on a core when a command starts there (R173; log 31). -/
def startTags (s : State) (core : Nat) (img : List Byte) : State :=
  let mask := (imageFoot img).words.foldl (fun m w => m ||| granuleMask (granuleIdx w.1) (granuleIdx w.2 + 1 - granuleIdx w.1)) 0
  let tags := (tagsOf s core &&& ~~~mask) ||| (Config.initialTags s.freeCtr &&& mask)
  { s with freeCtr := s.freeCtr + 1, spad := { s.spad with tags := tset 0 s.spad.tags core tags } }

/-- P2 to P7 of STREAM_ARM or STREAM_REARM at a parameter offset (R199). -/
def streamParams (p : SlotWord) (o split : Nat) : List (BitVec 64) :=
  BitVec.ofNat 64 split :: 0 :: (List.range 6).map (fun i => BitVec.ofNat 64 (param p (o + 8 * i) 64))

/-- The core and queue a stream command names. -/
def armTarget (p : SlotWord) : Nat × Nat := (param p 0x34 32 / 2 ^ 19 % 256, param p 0x32 8 % 8)
def handleTarget (h : Nat) : Nat × Nat := (h / 2 ^ 27 % 256, h / 2 ^ 24 % 8)

/-- The admitted STREAM_ARM or STREAM_REARM of a queue that the scheduler has not yet placed: its stream counts as RUNNING (R217). -/
def armWaiting (s : State) (core qi : Nat) : Option Nat :=
  (s.cmds.find? (fun c => c.stage ≠ .checking && c.placedAt.isNone &&
    ((c.opcode == 0x0401 && armTarget (slotAt s c.key) == (core, qi)) ||
      (c.opcode == 0x0402 && handleTarget (param (slotAt s c.key) 0 64) == (core, qi))))).map (·.key)

/-- The state of a queue's standalone stream (R217). -/
def streamState (s : State) (core qi : Nat) : StreamState :=
  if (armWaiting s core qi).isSome then .running else (queueAt s core qi).state

/-- Whether a placed STREAM_ARM may start: its queue is FREE and no footprint on its core meets its own (R188, R214). -/
def armFits (s : State) (k : Nat) : Bool :=
  let p := slotAt s k
  let (core, qi) := armTarget p
  (queueAt s core qi).state == .free && !isFenced s core && !isFenced s (0xC040 + clusterOf core) &&
    !(heldFoots s core).any (fun e => footsMeet e.2 (imageFoot (planBytesOf s (param p 0x30 16))))

/-- STREAM_ARM starts its stream (R214). -/
def armStream (s : State) (k : Nat) : State :=
  let p := slotAt s k
  let (core, qi) := armTarget p
  let plan := param p 0x30 16
  let s := startSems (startTags s core (planBytesOf s plan)) core (planBytesOf s plan)
  setQueue s core qi (startQueue { queueAt s core qi with streamTile := 0, released := 0 } k (cmdSession s k) plan (paramBit p 0x33 0)
    (streamParams p 0 (param p 0x38 16)))

/-- STREAM_REARM starts its PARKED stream again (R215); a stream that has ended meanwhile leaves the command nothing to run. Tags
stand as they are: R173 sets them when a stream is armed (DESIGN CHOICE, log 66). -/
def rearmStream (s : State) (k : Nat) : State :=
  let p := slotAt s k
  let h := param p 0 64
  let (core, qi) := handleTarget h
  let q := queueAt s core qi
  if q.gen.toNat ≠ h / 2 ^ 56 ∨ q.state ≠ .parked then abortCmd s k 0x20
  else setQueue s core qi (startQueue q k (cmdSession s k) q.plan q.persist (streamParams p 8 (q.params.headD 0).toNat))

/-- The 32 bytes of a resume record: the first tile not yet delivered (R218, R219). -/
def resumeRecord (q : Queue) : List Byte :=
  let t := q.issued.headD (frontTile q)
  natBytes 4 t.desc ++ natBytes 4 (1 + 2 * bit q.noMapHit) ++ (List.range 6).flatMap (fun i => natBytes 4 (t.loops.getD i 0))

/-- A transfer already issued completes, its translation with it: one that misses the caches is walked, one that waits for a walk goes on; one
that faults does not complete (R216, R218). -/
def drainTransfer (core qi : Nat) (s : State) (at_ : Nat × Nat) : State :=
  let q := queueAt s core qi
  match q.issued[at_.1]? with
  | none => s
  | some it =>
    match it.op, it.transfers[at_.2]? with
    | .emit mem _, some t =>
      let d := descOf it.raw
      if t.fault.any (faultStands s q core) then s
      else if (dKind d = 2 ∨ dKind d = 3) ∧ !t.scale then doTransfer s core qi at_ []
      else
        let va := transferAddress d mem.toNat t
        match xlateOwn (whoStream q core qi at_.2) (cmdAsid s q.key) va (if dStore d then 2 else 1) s with
        | (.ok _, s) => doTransfer (updTransfer s core qi at_.1 at_.2 (fun x => { x with fault := none })) core qi at_ []
        | (.error _, s) => s
    | _, _ => s

/-- The transfers already issued complete, and the tiles they finish are delivered, with their notices; the queue stays at the boundary
(R187, R216). -/
def drainIssued (s : State) (core qi : Nat) : State :=
  let s := (transfersWhere (queueAt s core qi) (fun x => x.sent && !x.done)).foldl (drainTransfer core qi) s
  let n := (queueAt s core qi).issued.length + 1
  postUnit ((List.range n).foldl (fun s _ => deliverReady 1 (postUnit (makeMarks s core qi) core qi) core qi) s) core qi

/-- STREAM_HALT (R216): the stream stops at its tile boundary, its command ends, its generation advances. Answers the resume record. -/
def haltStream (s : State) (core qi : Nat) : List Byte × State :=
  match armWaiting s core qi with
  | some k =>
    (resumeRecord { Queue.reset with loops := [] }, setQueue (abortCmd s k 0x20) core qi (endStream (queueAt s core qi)))
  | none =>
    let s := drainIssued s core qi
    let q := queueAt s core qi
    if q.state = .running ∨ q.state = .faulted then (resumeRecord q, abortCmd s q.key 0x20)
    else if q.state = .parked then (List.replicate 32 0, setQueue s core qi (endStream q))
    else (List.replicate 32 0, s)

/-! ### Commands -/

/-- STREAM_ARM (R214). -/
def streamArmDef : OpDef where
  placed := true
  check k := do
    let s ← get
    let p := slotAt s k
    let id := param p 0x30 16
    checkParam (planOf s id).isSome 0x30 0 16 7 id 0
    let q := param p 0x32 8
    checkParam (decide (q < 8)) 0x32 0 8 1 q 7
    let img := planBytesOf s id
    checkParam (decide ((streamEntry img q).count > 0)) 0x32 0 8 7 q 0
    reservedParam p 0x33 1 7
    reservedParam p 0x34 0 19
    reservedParam p 0x34 27 5
    reservedParam p 0x3A 0 48
    reservedFrom p 0x40
    needXlt
    let (core, qi) := armTarget p
    if streamState s core qi ≠ .free then throw (.reject busyReject)
    return []
  body _ := pure {}

/-- The check of a stream handle (R215 to R217). -/
def checkHandle (k : Nat) : Act (Nat × Nat) := do
  let s ← get
  let p := slotAt s k
  let h := param p 0 64
  reservedParam p 0 0 24
  reservedParam p 0 35 21
  let (core, qi) := handleTarget h
  let standalone := (queueHold s core (queueAt s core qi)).isNone
  checkParam (standalone && streamState s core qi ≠ .free && (queueAt s core qi).gen.toNat == h / 2 ^ 56) 0 0 64 7 h 0
  return (core, qi)

/-- STREAM_REARM (R215). -/
def streamRearmDef : OpDef where
  placed := true
  check k := do
    let (core, qi) ← checkHandle k
    let s ← get
    reservedFrom (slotAt s k) 0x38
    needXlt
    if streamState s core qi ≠ .parked then throw (.reject busyReject)
    return []
  body _ := pure {}

/-- STREAM_HALT (R216). -/
def streamHaltDef : OpDef where
  need p := if hdrField p 0x10 64 = 0 then 0 else 32
  check k := do
    let _ ← checkHandle k
    reservedFrom (slotAt (← get) k) 8
    return []
  body k := do
    let s ← get
    let (core, qi) := handleTarget (param (slotAt s k) 0 64)
    let (rec_, s') := haltStream s core qi
    set s'
    if hdrField (slotAt s k) 0x10 64 = 0 then return {} else longAct k rec_ {}

end Sys2Proof.Machine
end

