-- ==== Sys2Proof/Machine/Faults.lean ====
section
/-! DEFINITION. What ends a walk or a fault: WALK_END, FAULT_FETCH, FAULT_RESOLVE, and the far-tier events (spec/09_memory_and_translation.md
R235 to R239, R246, R250 to R256). -/
namespace Sys2Proof.Machine

/-! ### Waiters (R246, R249, R255) -/

/-- The compute opcodes (R317). -/
def isCompute (op : Nat) : Bool := op == 0x0301 || op == 0x0302 || op == 0x0303 || op == 0x0304

/-- Whether a waiter is a transfer of a stream queue. -/
def isQueueWaiter (s : State) (w : Waiter) : Bool :=
  let q := queueAt s w.core w.queue
  decide (w.origin = 0) && q.key == w.key && !(transfersWhere q (fun x => x.fault == some (vpageOf w.va))).isEmpty

/-- Whether a waiter is an access of a plan step of a compute command's own. -/
def isStepWaiter (s : State) (w : Waiter) : Bool :=
  w.cluster ≠ 0xFF && (cmdOf s w.key).any (fun c => isCompute c.opcode) && !isQueueWaiter s w

/-- An update unit stopped at a row, or let on (R249); how many cycles it stood only timing decides (R280; log 14). -/
def setUnitFault (s : State) (stack : Nat) (on : Bool) : State :=
  let u := tget UpdUnit.reset s.upd.units stack
  let s := if u.faulted && !on then bumpFree s (0x5000 + stack * 0x80) 0x30 else s
  { s with upd := { s.upd with units := tset UpdUnit.reset s.upd.units stack { u with faulted := on } } }

/-- A waiter whose access may proceed. -/
def releaseWaiter (s : State) (w : Waiter) : State :=
  if (cmdOf s w.key).isNone then s
  else if isStepWaiter s w then
    let stalled := (cmdOf s w.key).any (fun c => c.holds.any (fun h => h.cluster == w.cluster && h.faulted))
    updHold (if stalled then bumpStr s w.cluster 0x38 1 else s) w.key w.cluster (fun h => { h with faulted := false })
  else match w.origin with
    | 0 => streamResume s w.core w.queue w.va
    | 1 => streamResume s w.core w.queue w.va
    | 2 => setUnitFault s w.stack false
    | _ => updCmd s w.key (fun c => { c with ready := true })

/-- A waiter whose walk faulted: a stream queue and an update unit stop, everything else waits already (R218, R249). -/
def stopWaiter (s : State) (w : Waiter) : State :=
  if isStepWaiter s w then updHold s w.key w.cluster (fun h => { h with faulted := true })
  else match w.origin with
    | 0 => streamFault s w.core w.queue
    | 1 => streamFault s w.core w.queue
    | 2 => setUnitFault s w.stack true
    | _ => s

/-- The no-map list of a queue of a plan step's own accesses (R220). -/
def noMapOf (l : List (Nat × List Nat)) (queue : Nat) : List Nat := ((l.find? (fun e => e.1 == queue)).map (·.2)).getD []

/-- A page entered into a queue's no-map list of four, a fifth replacing the oldest (R220). -/
def addNoMap (l : List (Nat × List Nat)) (queue page : Nat) : List (Nat × List Nat) :=
  let ps := (noMapOf l queue).filter (fun p => p ≠ page) ++ [page]
  (queue, if ps.length > 4 then ps.drop 1 else ps) :: l.filter (fun e => e.1 ≠ queue)

/-- A page of discarded store rows of a plan step recorded, once (R220). -/
def noteHoldPage (s : State) (k g core queue page : Nat) : State :=
  let noted := (cmdOf s k).any (fun c => c.holds.any (fun h => h.cluster == g && h.noMapRec.contains page))
  if noted then s
  else
    let s := updHold s k g (fun h => { h with noMapRec := h.noMapRec ++ [page] })
    report s { cause := 0x11, source := core, key := some k, cluster := g, unit := queue, addr := page * 2 ^ 25 }

/-- NO_MAPPING for a plan step's transfer: its page enters its queue's no-map list, a store's page is recorded (R220). -/
def holdNoMap (s : State) (w : Waiter) : State :=
  let page := vpageOf w.va
  let s := if w.access / 2 % 2 = 1 then noteHoldPage s w.key w.cluster w.core w.queue page else s
  updHold (bumpStr s w.cluster 0x38 1) w.key w.cluster (fun h =>
    { h with faulted := false, noMap := addNoMap h.noMap (w.core * 8 + w.queue) page })

/-- NO_MAPPING at one waiter (R255). -/
def noMapWaiter (s : State) (w : Waiter) : State :=
  if (cmdOf s w.key).isNone then s
  else if w.origin ≠ 0 then abortCmd s w.key 0x20
  else if isStepWaiter s w then holdNoMap s w
  else streamNoMap s w.core w.queue w.va

/-! ### Requests held in miss registers (R246) -/

/-- Requests held on a die retry, oldest first: one that joins a pending fault stops its engine; those that still find the table full stay
held. -/
def retryHeld (s : State) (die : Nat) : State :=
  let mine := s.xlt.missRegs.filter (fun e => e.1 == die)
  let s := { s with xlt := { s.xlt with missRegs := s.xlt.missRegs.filter (fun e => e.1 ≠ die) } }
  mine.foldl (fun s e =>
    let stops := (pendingFor s die e.2.1 e.2.2.va).isSome
    match mergeWaiter s die e.2.1 e.2.2 with
    | some s => if stops then stopWaiter s e.2.2 else s
    | none =>
      match (List.range 64).find? (fun i => missAt s die i == none) with
      | some i => takeMiss s die i e.2.1 (vpageOf e.2.2.va) [e.2.2] none
      | none => { s with xlt := { s.xlt with missRegs := s.xlt.missRegs ++ [e] } }) s

/-! ### WALK_END (R246) -/

/-- The waiters of a valid leaf: it goes into the cache of every core that has one; those with the rights go on, the others move together to
one RIGHTS fault (R246). -/
def leafWaiters (s : State) (die asid : Nat) (e : XltEntry) (ws : List Waiter) : State :=
  let ok (w : Waiter) : Bool := rightsOk e.entry.toNat w.access
  let s := ((ws.filter (fun w => w.origin = 0)).map (fun w => w.core)).eraseDups.foldl (fun s c => fillCore s c e) s
  let s := (ws.filter ok).foldl releaseWaiter s
  match ws.filter (fun w => !ok w) with
  | [] => s
  | w :: rest => raiseFault ((w :: rest).foldl stopWaiter s) die asid w.va w.access 2 e.level (w :: rest)

/-- The commands of waiters ended ABORTED_FAULT. -/
def abortWaiters (s : State) (ws : List Waiter) : State :=
  ws.foldl (fun s w => if (cmdOf s w.key).isNone then s else abortCmd s w.key 0x20) s

/-- Whether one of a die slice's 16 walkers has a miss-table entry: they take entries oldest first (R246). -/
def hasWalker (s : State) (die : Nat) (m : MissEntry) : Bool :=
  decide (((misses s die).filter (fun e => e.2.order < m.order)).length < 16)

/-- WALK_END: the walk of a miss-table entry that a walker has ends (R246, R249, R255). -/
def walkEnd (s : State) (die idx : Nat) : State :=
  match missAt s die idx with
  | none => s
  | some m =>
    if isFenced s (xltSource die) ∨ !hasWalker s die m then s
    else match m.waiters with
      | [] => retryHeld (setMiss s die idx none) die
      | w :: _ =>
        let who : Who := { die := die, key := some w.key, cluster := w.cluster }
        let (r, s) := walk who m.retryFor.isSome m.asid w.va s
        let s := setMiss s die idx none
        let s := match r with
          | .leaf e => leafWaiters (fillDie s die e) die m.asid e m.waiters
          | .fault c l => raiseFault (m.waiters.foldl stopWaiter s) die m.asid w.va w.access c l m.waiters
          | .fenced => abortWaiters s m.waiters
        retryHeld s die

/-! ### Held faults (R252) -/

/-- Held faults written into the queue while it has room, oldest first (R251, R252). -/
def writeHeld : Nat → State → State
  | 0, s => s
  | fuel + 1, s =>
    match s.xlt.heldOrder with
    | [] => s
    | id :: rest =>
      if s.xlt.queue.length ≥ 1024 then s
      else
        let s := { s with xlt := { s.xlt with heldOrder := rest } }
        match (allPendings s).find? (fun e => e.2.2.faultId == id) with
        | some (die, idx, p) =>
          writeHeld fuel (queuePut (setPend s die idx (some { p with record := .queued })) id (faultBytes s p))
        | none => writeHeld fuel s

/-! ### FAULT_FETCH (R253) -/

/-- A copied record's pending entry is marked fetched. -/
def markCopied (s : State) (id : Nat) : State :=
  match (allPendings s).find? (fun e => e.2.2.faultId == id) with
  | some (die, idx, p) => setPend s die idx (some { p with record := .fetched })
  | none => s

/-- FAULT_FETCH (R253). The overflow flag clears when no fault is left held once the freed slots are filled (R252). -/
def faultFetchDef : OpDef where
  need p := 32 * param p 0 16
  check k := do
    let p := slotAt (← get) k
    checkRange 0 0 16 (param p 0 16) 1 1024
    reservedParam p 2 0 48
    reservedFrom p 8
    return []
  body k := do
    let s ← get
    let n := param (slotAt s k) 0 16
    let take := s.xlt.queue.take n
    let ovf := s.xlt.overflow
    let r ← longAct k (take.flatMap (fun q => q.bytes)) {}
    modify (fun s => take.foldl (fun s q => markCopied s q.faultId)
      { s with xlt := { s.xlt with queue := s.xlt.queue.drop take.length } })
    let s ← get
    let held := s.xlt.heldOrder.length
    let left := s.xlt.queue.length
    let s := writeHeld (held + 1) s
    set (if s.xlt.heldOrder.isEmpty then { s with xlt := { s.xlt with overflow := false } } else s)
    return { r with result := BitVec.ofNat 64 (take.length + 2 ^ 16 * left + 2 ^ 32 * min held 0xFFFF + 2 ^ 63 * bit ovf) }

/-! ### FAULT_RESOLVE (R254, R255) -/

/-- An answer of FAULT_RESOLVE: its code and fault_id (R254). -/
def answerAt (p : SlotWord) (i : Nat) : Nat × Nat := (param p (0x10 + 8 * i) 8, param p (0x14 + 8 * i) 32)

/-- The answer entries checked (R254). -/
def checkAnswers (p : SlotWord) : List Nat → Act Unit
  | [] => pure ()
  | i :: rest => do
    let o := 0x10 + 8 * i
    if i < param p 0xD 8 then
      let a := param p o 8
      if a ≥ 3 then rejectItem (paramLoc o) i 6 7 0 a 2
      let r := param p (o + 1) 24
      if r ≠ 0 then rejectItem (paramLoc o) i 8 31 8 r 0
    else
      let v := param p o 64
      if v ≠ 0 then rejectItem (paramLoc o) i 3 63 0 v 0
    checkAnswers p rest

/-- Every cached translation that meets a range removed from every die slice (R254). -/
def invalidate (s : State) (all : Bool) (asid lo n : Nat) : State :=
  let hit (e : XltEntry) : Bool := (all || e.asid == asid) && decide (e.vbase < lo + n ∧ lo < e.vbase + e.size)
  let clean (t : Table (List XltEntry)) : Table (List XltEntry) :=
    tmap [] (fun _ (es : List XltEntry) => es.filter (fun e => !hit e)) t
  let s := { s with xlt := { s.xlt with
    coreCache := clean s.xlt.coreCache, dieCache := clean s.xlt.dieCache, walkCache := clean s.xlt.walkCache } }
  (List.range 8).foldl (fun s d => bumpXlt s d 0x40 1) s

/-- The cached translations of one page dropped on one die slice (R255). -/
def dropPageCaches (s : State) (die asid va : Nat) : State :=
  let lo := vpageOf va * 2 ^ 25
  let keep (es : List XltEntry) : List XltEntry :=
    es.filter (fun e => !(e.asid == asid && decide (e.vbase < lo + 2 ^ 25 ∧ lo < e.vbase + e.size)))
  { s with xlt := { s.xlt with
    coreCache := tmap [] (fun c (es : List XltEntry) => if c / 32 = die then keep es else es) s.xlt.coreCache
    dieCache := tset [] s.xlt.dieCache die (keep (tget [] s.xlt.dieCache die)) } }

/-- A pending entry freed; requests held for want of one retry (R246, R255). -/
def freePending (s : State) (die idx : Nat) (p : PendEntry) : State :=
  let s := setPend s die idx none
  let s := { s with xlt := { s.xlt with heldOrder := s.xlt.heldOrder.filter (fun i => i ≠ p.faultId) } }
  writeHeld (s.xlt.heldOrder.length + 1) s

/-- RETRY: the fault's waiters wait on a walk of their own, which FAULT_RESOLVE waits for; none when no miss-table entry is free (R255). -/
def retryFault (s : State) (k die idx : Nat) (p : PendEntry) : Option State :=
  match (List.range 64).find? (fun i => missAt s die i == none) with
  | none => none
  | some i =>
    let s := freePending (dropPageCaches s die p.asid p.va) die idx p
    some (takeMiss s die i p.asid (vpageOf p.va) p.waiters (some k))

/-- One answer applied, counted by its command; none when a RETRY must wait for a miss-table entry (R254, R255). -/
def applyAnswer (s : State) (k : Nat) (a : Nat × Nat) : Option State :=
  match (allPendings s).find? (fun e => e.2.2.faultId == a.2) with
  | none => some (updCmd s k (fun c => { c with stale := c.stale + 1, round := c.round + 1 }))
  | some (die, idx, p) =>
    let count (s : State) : State := updCmd s k (fun c => { c with applied := c.applied + 1, round := c.round + 1 })
    match a.1 with
    | 0 => (retryFault s k die idx p).map count
    | 1 => some (retryHeld (p.waiters.foldl noMapWaiter (freePending (count s) die idx p)) die)
    | _ => some (retryHeld (abortWaiters (freePending (count s) die idx p) p.waiters) die)

/-- The answers that have not been applied, in entry order, as far as they can be (R254). -/
def applyAnswers (k : Nat) (p : SlotWord) : Nat → State → State
  | 0, s => s
  | fuel + 1, s =>
    let at_ := (cmdOf s k).elim 12 (fun c => c.round)
    if at_ ≥ param p 0xD 8 then s
    else match applyAnswer s k (answerAt p at_) with
      | some s => applyAnswers k p fuel s
      | none => s

/-- FAULT_RESOLVE in progress: answers go on, and it completes when every RETRY walk has ended (R254). -/
def settleResolve (s : State) (k : Nat) : State :=
  let p := slotAt s k
  let s := applyAnswers k p 12 s
  match cmdOf s k with
  | none => s
  | some c =>
    let walks := s.xlt.miss.any (fun e => e.2.any (fun m => decide (m.retryFor = some k)))
    if c.round ≥ param p 0xD 8 && !walks then
      completeCmd s k { result := BitVec.ofNat 64 (c.applied + 2 ^ 16 * c.stale) }
    else s

/-- FAULT_RESOLVE commands in progress. -/
def settleResolves (s : State) : State :=
  s.cmds.foldl (fun s c => if c.stage == .inProgress && c.opcode == 0x0902 then settleResolve s c.key else s) s

/-- FAULT_RESOLVE (R254). -/
def faultResolveDef : OpDef where
  check k := do
    let p := slotAt (← get) k
    let va := param p 0 64
    checkVa p 0
    checkParam (decide (va % 2 ^ 25 = 0)) 0 0 52 2 va (2 ^ 25)
    let all := paramBit p 0xE 0
    checkParam (!all || param p 0xC 8 == 0) 0xC 0 8 1 (param p 0xC 8) 0
    checkParam (decide (param p 0xD 8 ≤ 12)) 0xD 0 8 1 (param p 0xD 8) 12
    reservedParam p 0xE 1 15
    checkAnswers p (List.range 12)
    reservedFrom p 0x70
    return []
  body k := do
    let s ← get
    let p := slotAt s k
    let s := if param p 8 32 = 0 then s else invalidate s (paramBit p 0xE 0) (param p 0xC 8) (param p 0 52) (param p 8 32 * 2 ^ 25)
    set s
    throw (.park .inProgress)

/-! ### ATTACH and fenced units (R256) -/

/-- Every pending fault whose record has been fetched is written again, REQUEUED, ahead of faults not yet recorded (R256). -/
def requeueFaults (s : State) : State :=
  let old := (allPendings s).filter (fun e => e.2.2.record == .fetched)
  let ids := old.map (fun e => e.2.2.faultId)
  let s := old.foldl (fun s e => setPend s e.1 e.2.1 (some { e.2.2 with requeued := true, record := .held })) s
  let room := 1024 - s.xlt.queue.length
  let s := (ids.drop room).foldl (fun s _ => bumpFqOvf { s with xlt := { s.xlt with overflow := true } }) s
  let s := { s with xlt := { s.xlt with heldOrder := ids ++ s.xlt.heldOrder } }
  if ids.isEmpty then s else writeHeld (s.xlt.heldOrder.length + 1) s

/-- The pending faults of a fenced translation unit are freed, its walks dropped, and the commands that wait for them or in its miss registers
end (R18, R256). A RETRY walk dropped so has ended for its FAULT_RESOLVE (R254). -/
def freeUnit (s : State) (die : Nat) : State :=
  let s := (pendings s die).foldl (fun s e => abortWaiters (freePending s die e.1 e.2) e.2.waiters) s
  let s := (misses s die).foldl (fun s e => abortWaiters (setMiss s die e.1 none) e.2.waiters) s
  let held := (s.xlt.missRegs.filter (fun e => e.1 == die)).map (fun e => e.2.2)
  abortWaiters { s with xlt := { s.xlt with missRegs := s.xlt.missRegs.filter (fun e => e.1 ≠ die) } } held

/-- Every fenced translation unit freed of what waits for it (R18, R256). -/
def freeFenced (s : State) : State :=
  (List.range 8).foldl (fun s d => if isFenced s (xltSource d) then freeUnit s d else s) s

/-! ### Far modules (R235 to R239) -/

/-- A far module slot replaced. -/
def setFar (s : State) (m : Nat) (f : FarModule) : State :=
  { s with xlt := { s.xlt with farModules := tset FarModule.reset s.xlt.farModules m f } }

/-- A slot becomes EMPTY and its removal is reported (R236). -/
def emptyFar (s : State) (m : Nat) (evacDone : Bool) : State :=
  setFar s m { farModule s m with state := 0, capGib := 0, width := 0, evacDone := evacDone, reported := true }

/-- FAR_DUPLICATE (R236, R237). -/
def farDuplicate (s : State) (m info1 : Nat) : State :=
  report s { cause := 0x18, source := 0xC0B0 + m, info0 := m, info1 := info1 }

/-- Whether an ENUMERATED event carries a legal capacity and width and no reserved bit (R237). -/
def enumeratedOk (e : Nat) : Bool :=
  let width := e / 2 ^ 48 % 16
  let cap := e / 2 ^ 32 % 2 ^ 11
  (width == 4 || width == 16) && decide (1 ≤ cap ∧ cap ≤ 1024) && e / 2 ^ 43 % 32 == 0 && e / 2 ^ 16 % 2 ^ 16 == 0

/-- One far-module event acted on (R236, R237). -/
def farEvent (s : State) (e : Nat) : State :=
  let m := e / 2 ^ 52 % 16
  let f := farModule s m
  match e / 2 ^ 56 % 256 with
  | 1 =>
    if !enumeratedOk e then farDuplicate s m e
    else if f.state ≠ 0 then farDuplicate s m 0
    else setFar s m { f with state := 1, gen := f.gen + 1, capGib := e / 2 ^ 32 % 2 ^ 11, width := e / 2 ^ 48 % 16 }
  | 2 => if f.state = 0 then s else emptyFar s m false
  | 3 => if f.state = 0 then s else emptyFar s m false
  | _ => farDuplicate s m e

/-- A far-module event acted on and acknowledged to the host bridge (R237). -/
def takeFarEvent (s : State) (e : Nat) : State :=
  let s := farEvent s e
  { s with xlt := { s.xlt with farAcked := s.xlt.farAcked + 1, farAckSerial := BitVec.ofNat 16 e } }

/-- A far-module event accepted: held in K5 until the die-common domains, which it wakes, are powered, and acknowledged once it has been acted
on (R237, R394). -/
def acceptFarEvent (s : State) (e : BitVec 64) : State :=
  if dieCommonOn s then takeFarEvent s e.toNat
  else beginWake { s with xlt := { s.xlt with farEvents := s.xlt.farEvents ++ [e] } } 0 false

/-- The events held in K5, acted on in order (R237). -/
def drainFarEvents (s : State) : State :=
  s.xlt.farEvents.foldl (fun s e => takeFarEvent s e.toNat) { s with xlt := { s.xlt with farEvents := [] } }

/-- EVACUATE written 1 (R236). -/
def evacuate (s : State) (m : Nat) : State :=
  let f := farModule s m
  if f.state = 1 then setFar s m { f with state := 2, evacStart := s.now } else s

/-- Whether no page keeper holds a page on a module (R239). -/
def noPagesOn (s : State) (m : Nat) : Bool := (List.range 8).all (fun d => (pagesOn s m d).isEmpty)

/-- EVACUATION_END: no page is left on the module (R236, R239). -/
def evacuationEnd (s : State) (m : Nat) : State :=
  if (farModule s m).state = 2 ∧ noPagesOn s m then emptyFar s m true else s

/-- EVAC_TIMEOUT: XLT_EVAC_TIMEOUT has passed (R236). -/
def evacTimeout (s : State) (m : Nat) : State :=
  let f := farModule s m
  if f.state = 2 ∧ s.now ≥ f.evacStart + ticksCeil (scopeVal s 0x5004 0) then emptyFar s m (noPagesOn s m) else s

end Sys2Proof.Machine
end

