-- ==== Sys2Proof/Machine/Updates.lean ====
section
/-! DEFINITION. The parameter update units (spec/10_update_units.md R258 to R280). -/
namespace Sys2Proof.Machine

/-! ### Programs (R260 to R263) -/

/-- Fields of an operation (R261). -/
def updOp (w : BitVec 32) : Nat := (w.extractLsb' 27 5).toNat
def updRd (w : BitVec 32) : Nat := (w.extractLsb' 22 5).toNat
def updRa (w : BitVec 32) : Nat := (w.extractLsb' 17 5).toNat
def updRb (w : BitVec 32) : Nat := (w.extractLsb' 12 5).toNat
def updRc (w : BitVec 32) : Nat := (w.extractLsb' 7 5).toNat

/-- The word of an operation (R261). -/
def updWord (op rd ra rb rc : BitVec 5) : BitVec 32 := op ++ rd ++ ra ++ rb ++ rc ++ 0#7

/-- Whether an operation has a second and a third source (R262). -/
def updHasB (op : Nat) : Bool := op == 1 || op == 2 || op == 3 || op == 6 || op == 7 || op == 8
def updHasC (op : Nat) : Bool := op == 3 || op == 8

/-- Registers an operation may write (R260). -/
def updWritable (r : Nat) : Bool := r == 1 || r == 2 || r == 3 || decide (16 ≤ r ∧ r ≤ 23)

/-- The first failure of an operation, from the most significant field down (R263). -/
def updOpCheck (w : BitVec 32) : Option FieldError :=
  let src (r : Nat) (used : Bool) : Bool := if used then decide (r < 24) else r == 0
  if updOp w < 1 ∨ updOp w > 9 then some ⟨31, 27, 6, updOp w, 0⟩
  else if !updWritable (updRd w) then some ⟨26, 22, 6, updRd w, 0⟩
  else if !src (updRa w) true then some ⟨21, 17, 6, updRa w, 0⟩
  else if !src (updRb w) (updHasB (updOp w)) then some ⟨16, 12, 6, updRb w, 0⟩
  else if !src (updRc w) (updHasC (updOp w)) then some ⟨11, 7, 6, updRc w, 0⟩
  else if w.extractLsb' 0 7 ≠ 0#7 then some ⟨6, 0, 8, (w.extractLsb' 0 7).toNat, 0⟩
  else none

/-- A lane's operation (R262): `rndr` is the value stored as the parameter, widened. SEL answers a NaN in its one form too (R25). -/
def laneOp (rndr : F32 → F32) (op : Nat) (a b c : F32) : F32 :=
  match op with
  | 1 => fMul a b
  | 2 => fAdd a b
  | 3 => fFma a b c
  | 4 => fSqrt a
  | 5 => fRsqrt a
  | 6 => fDiv a b
  | 7 => fMax a b
  | 8 => f32OfNum (f32Num (if fPositive a then b else c))
  | _ => rndr a

/-- Registers of a lane. -/
abbrev Lane := Table F32

/-- A lane register (R260). -/
def laneGet (l : Lane) (r : Nat) : F32 := tget 0 l r

/-- One operation on a lane (R262). -/
def laneStep (rndr : F32 → F32) (l : Lane) (w : BitVec 32) : Lane :=
  tset 0 l (updRd w) (laneOp rndr (updOp w) (laneGet l (updRa w)) (laneGet l (updRb w)) (laneGet l (updRc w)))

/-- The value stored as the parameter, widened to FP32 (R262 RNDR, R266). -/
def storedParam (fmt : BitVec 16) (rem : Bool) (rand : Nat) (x : F32) : F32 :=
  if rem ∨ fcwFmt fmt = 0 then f32OfNum (f32Num x)
  else f32OfNum (decodeFloat (elemFmt (fcwFmt fmt)) (narrowCode (elemFmt (fcwFmt fmt)) (storeRounding fmt rand) (f32Num x)))

/-- Binary exponentiation over the bits of `t` from the most significant 1 down (R265). -/
def powSteps (s : F32) (t : Nat) : Nat → F32 → F32
  | 0, x => x
  | n + 1, x =>
    let y := fMul x x
    powSteps s t n (if t.testBit n then fMul y s else y)

/-- S^t (R265). -/
def fPow (s : F32) (t : Nat) : F32 := if t = 0 then f32One else powSteps s t (Nat.log2 t + 1) f32One

/-- 1 − S^t (R265). -/
def biasTerm (s : F32) (t : Nat) : F32 := fSub f32One (fPow s t)

/-! ### UPD_PROGRAM_LOAD (R263, R264) -/

/-- Operation `i` of the parameter area. -/
def loadOp (p : SlotWord) (i : Nat) : BitVec 32 := BitVec.ofNat 32 (param p (4 * i) 32)

/-- The operations checked in order (R263). -/
def checkOps (p : SlotWord) (n : Nat) : List Nat → Act Unit
  | [] => pure ()
  | i :: rest => do
    let w := loadOp p i
    let e := if i < n then updOpCheck w else if w = 0 then none else some ⟨31, 0, 8, w.toNat, 0⟩
    match e with
    | some x => rejectItem (paramLoc (4 * i)) i x.check x.hi x.lo x.found x.limit
    | none => checkOps p n rest

/-- UPD_PROGRAM_LOAD (R264). -/
def updProgramLoadDef : OpDef where
  check k := do
    let s ← get
    let p := slotAt s k
    let n := param p 0x41 8
    checkRange 0x41 0 8 n 1 16
    checkOps p n (List.range 16)
    checkParam (decide (param p 0x40 8 ≤ 31)) 0x40 0 8 1 (param p 0x40 8) 31
    reservedParam p 0x42 0 48
    reservedFrom p 0x48
    if s.cmds.any (fun c => c.key ≠ k && c.opcode == 0x0502 && param (slotAt s c.key) 0x5C 8 == param p 0x40 8) then
      throw (.reject busyReject)
    return []
  body k := do
    let s ← get
    let p := slotAt s k
    let prog := (List.range (param p 0x41 8)).map (loadOp p)
    set { s with upd := { s.upd with programs := tset [] s.upd.programs (param p 0x40 8) prog } }
    return {}

/-! ### UPD_STEP: parameters (R270, R271) -/

/-- The fields of UPD_STEP (R270). -/
structure UpdArgs where
  seed : Nat
  pBase : Nat
  gBase : Nat
  m1Base : Nat
  m2Base : Nat
  remBase : Nat
  cntBase : Nat
  presBase : Nat
  pStride : Nat
  gStride : Nat
  mStride : Nat
  remStride : Nat
  rows : Nat
  elems : Nat
  step : Nat
  slot : Nat
  clearGrad : Bool
  clearPres : Bool
  guard_ : Bool
  rowStep : Bool
  fmtP : BitVec 16
  fmtG : BitVec 16
  fmtM : BitVec 16

/-- The parameters of a command. -/
def updArgs (p : SlotWord) : UpdArgs where
  seed := param p 0 64
  pBase := param p 8 64
  gBase := param p 0x10 64
  m1Base := param p 0x18 64
  m2Base := param p 0x20 64
  remBase := param p 0x28 64
  cntBase := param p 0x30 64
  presBase := param p 0x38 64
  pStride := param p 0x40 32
  gStride := param p 0x44 32
  mStride := param p 0x48 32
  remStride := param p 0x4C 32
  rows := param p 0x50 32
  elems := param p 0x54 32
  step := param p 0x58 32
  slot := param p 0x5C 8
  clearGrad := paramBit p 0x5D 0
  clearPres := paramBit p 0x5D 1
  guard_ := paramBit p 0x5D 2
  rowStep := paramBit p 0x5D 3
  fmtP := BitVec.ofNat 16 (param p 0x5E 16)
  fmtG := BitVec.ofNat 16 (param p 0x60 16)
  fmtM := BitVec.ofNat 16 (param p 0x62 16)

/-- The program of a slot; empty when none is loaded (R264). -/
def updProgram (s : State) (slot : Nat) : List (BitVec 32) := tget [] s.upd.programs slot

/-- Whether a program reads or writes a register (R266). -/
def progUses (ops : List (BitVec 32)) (r : Nat) : Bool :=
  ops.any (fun w => updRd w == r || updRa w == r || (updHasB (updOp w) && updRb w == r) || (updHasC (updOp w) && updRc w == r))

/-- Parameter bytes of a row (R258). -/
def rowBytesP (a : UpdArgs) : Nat := a.elems * elemBits (fcwFmt a.fmtP) / 8

/-- Whether the parameter bytes of a row are a power of two from 16 to 4,096 (R258). -/
def rowBytesOk (a : UpdArgs) : Bool := (rowBytesP a) ∈ [16, 32, 64, 128, 256, 512, 1024, 2048, 4096]

/-- A format word of UPD_STEP: R425 with pad_sel, blk and stype 0 and one of the formats given (R270). -/
def updFormatCheck (w : BitVec 16) (fmts : List Nat) (rndOk : Bool) : Option FieldError :=
  match fcwCheck { store := true, kv := false, infOk := true } w with
  | some e =>
    if e.lo = 13 ∨ e.lo = 5 ∨ fcwFmt w ∈ fmts then some e else some ⟨4, 0, 6, fcwFmt w, 0⟩
  | none =>
    if fcwFmt w ∉ fmts then some ⟨4, 0, 6, fcwFmt w, 0⟩
    else if fcwRnd w && !rndOk then some ⟨10, 10, 6, 1, 0⟩ else none

/-- A moment's base against its program (R266). -/
def momentOk (prog : List (BitVec 32)) (r base : Nat) : Bool := prog.isEmpty || (progUses prog r == (base ≠ 0 : Bool))

/-- UPD_STEP (R270, R271). -/
def updStepDef : OpDef where
  placed := true
  check k := do
    let s ← get
    let p := slotAt s k
    let a := updArgs p
    let prog := updProgram s a.slot
    let n := rowBytesP a
    checkVa p 8
    checkParam (!rowBytesOk a || a.pBase % n == 0) 8 0 64 2 a.pBase n
    checkVa p 0x10
    checkVa p 0x18
    checkParam (momentOk prog 2 a.m1Base) 0x18 0 64 1 a.m1Base 0
    checkVa p 0x20
    checkParam (momentOk prog 3 a.m2Base) 0x20 0 64 1 a.m2Base 0
    checkVa p 0x28
    checkVa p 0x30
    checkParam (!a.rowStep || a.cntBase ≠ 0) 0x30 0 64 1 0 0
    checkVa p 0x38
    checkParam (!a.clearPres || a.presBase ≠ 0) 0x38 0 64 1 0 0
    checkParam (!rowBytesOk a || a.pStride % n == 0) 0x40 0 32 2 a.pStride n
    checkRange 0x50 0 32 a.rows 1 (2 ^ 28)
    checkParam (decide (1 ≤ a.elems ∧ a.elems ≤ 2048) && (fcwFmt a.fmtP > 2 || rowBytesOk a)) 0x54 0 32 1 a.elems
      (if a.elems = 0 then 1 else if a.elems > 2048 then 2048 else 0)
    checkRange 0x58 0 32 a.step 1 0xFFFFFFFF
    checkParam (decide (a.slot < 32)) 0x5C 0 8 1 a.slot 31
    checkParam (!prog.isEmpty) 0x5C 0 8 7 a.slot 0
    reservedParam p 0x5D 4 4
    checkFormat 0x5E (updFormatCheck a.fmtP (if a.remBase = 0 then [0, 1, 2] else [1]) (a.remBase = 0))
    checkFormat 0x60 (updFormatCheck a.fmtG [0, 1, 2] false)
    checkFormat 0x62 (updFormatCheck a.fmtM [0, 1] true)
    checkParam (a.m1Base ≠ 0 || a.m2Base ≠ 0 || a.fmtM == 0) 0x62 0 16 1 a.fmtM.toNat 0
    reservedParam p 0x64 0 32
    reservedFrom p 0x88
    needXlt
    return []
  body _ := pure {}

/-! ### Rows (R258, R259, R268, R273 to R276) -/

/-- An update unit. -/
def unitAt (s : State) (stack : Nat) : UpdUnit := tget UpdUnit.reset s.upd.units stack

/-- An update unit replaced. -/
def setUnit (s : State) (stack : Nat) (u : UpdUnit) : State :=
  { s with upd := { s.upd with units := tset UpdUnit.reset s.upd.units stack u } }

/-- Where the translation of a die slice puts an address of a command, looked at without an access; none where it faults or leaves the near
tier. -/
def peekVa (s : State) (k die va : Nat) : Option Nat :=
  match (xlateOwn { die := die } (cmdAsid s k) va 1 s).1 with
  | .ok pa => match regionOf pa with
    | .near _ => some pa
    | _ => none
  | .error _ => none

/-- Whether a row counts as present at a place of its bitmap: its bit is 1, or the bitmap is poison there, as all of a fenced stack is (R268,
R275, R414). -/
def presentAt (s : State) (pa r : Nat) : Bool :=
  let x := s.pmem.read pa
  x.1.getLsbD (r % 8) || x.2 || isFenced s (0xC080 + stackOf pa)

/-- Whether a row is present, as its bitmap says where it can be looked at (R268). -/
def rowPresent (s : State) (k die r : Nat) : Option Bool :=
  let a := updArgs (slotAt s k)
  if a.presBase = 0 then some true
  else (peekVa s k die (a.presBase + r / 8)).map (fun pa => presentAt s pa r)

/-- The unit that owns a row, that of the stack of its parameters, where its address can be looked at (R258). -/
def rowOwner (s : State) (k die r : Nat) : Option Nat :=
  let a := updArgs (slotAt s k)
  (peekVa s k die (a.pBase + r * a.pStride)).map stackOf

/-- Whether a unit stops at a row: one that is its own and present, or one whose bitmap or parameters cannot be looked at, where the unit meets
the fault or the wrong memory itself (R258, R259, R268, R276; log 52). -/
def takesRow (s : State) (k stack r : Nat) : Bool :=
  match rowPresent s k (stack / 4) r with
  | none => true
  | some false => false
  | some true => match rowOwner s k (stack / 4) r with
    | none => true
    | some u => u == stack

/-- The first row from `r` on at which a unit stops, or `rows` (R278). -/
def nextRow (s : State) (k stack : Nat) : Nat → Nat → Nat
  | 0, r => r
  | fuel + 1, r => if takesRow s k stack r then r else nextRow s k stack fuel (r + 1)

/-- A unit's first row from `r` on. -/
def firstRow (s : State) (k stack r : Nat) : Nat := nextRow s k stack ((updArgs (slotAt s k)).rows - r) r

/-- The physical places of an operand of a row, each in the near tier (R259). -/
def operandPieces (w : Who) (asid tensor row va n access : Nat) : Act (List (Nat × Nat)) := do
  let mut out : List (Nat × Nat) := []
  for (a, m) in pagePieces 3 va n do
    let pa ← xlateAct w asid a access
    match regionOf pa with
    | .near _ => out := out ++ [(pa, m)]
    | _ =>
      reportAct { cause := 0x19, source := 0xC080 + w.stack, key := w.key, addr := pa, info0 := row, info1 := tensor }
      abortWith 0x20
  return out

/-- An operand read from its places: its bytes, and the place of the first poisoned granule. -/
def readPieces (w : Who) (ps : List (Nat × Nat)) : Act (List Byte × Option Nat) := do
  let mut out : List Byte := []
  let mut bad : Option Nat := none
  for (pa, n) in ps do
    let bs ← physReadAct w pa n
    out := out ++ bs.map (·.1)
    if bad.isNone then
      bad := (bs.zipIdx.find? (fun e => e.1.2)).map (fun e => (pa + e.2) / 16 * 16)
  return (out, bad)

/-- An operand written to its places. -/
def writePieces (w : Who) (ps : List (Nat × Nat)) (bs : List Byte) : Act Unit := do
  let mut o := 0
  for (pa, n) in ps do
    modify (fun s => physWrite w pa ((bs.drop o).take n) false s)
    o := o + n

/-- An element of a row as FP32 (R266). -/
def widen (fmt : BitVec 16) (row : List Byte) (i : Nat) : F32 :=
  let c := packedElem (fcwFmt fmt) row i
  if fcwFmt fmt = 0 then BitVec.ofNat 32 c else f32OfNum (decodeFloat (elemFmt (fcwFmt fmt)) c)

/-- The 16-bit random value of an element of a stored register (R267). -/
def updRand (a : UpdArgs) (reg row e : Nat) : Nat := srValue a.seed 0 row (reg * 65536 + 0xF * 1024) a.step e

/-- The registers of a lane at the start of an element (R260, R266). -/
def laneStart (p : SlotWord) (a : UpdArgs) (t : Nat) (b1 b2 : F32) (g pw m1 m2 rm : List Byte) (i : Nat) : Lane :=
  let par := if a.remBase = 0 then widen a.fmtP pw i
    else BitVec.ofNat 32 (packedElem 1 pw i * 65536 + packedElem 1 rm i)
  let regs := [(0, widen a.fmtG g i), (1, par), (2, if a.m1Base = 0 then 0 else widen a.fmtM m1 i),
    (3, if a.m2Base = 0 then 0 else widen a.fmtM m2 i), (4, b1), (5, b2), (6, f32OfNat t), (7, f32One)]
  let sc := (List.range 8).map (fun j => (8 + j, (BitVec.ofNat 32 (param p (0x68 + 4 * j) 32) : F32)))
  (regs ++ sc).foldl (fun l e => tset 0 l e.1 e.2) []

/-- The bytes of one stored register over a row (R266). -/
def storeReg (fmt : BitVec 16) (rnd : Nat → Nat) (xs : List F32) : List Byte :=
  packElems (fcwFmt fmt) (storeRow fmt rnd (xs.map (fun x => (x, false)))).codes

/-- Whether a stored register holds NaN or an infinity (R269). -/
def storesSpecial (fmt : BitVec 16) (rnd : Nat → Nat) (xs : List F32) : Bool :=
  (storeRow fmt rnd (xs.map (fun x => (x, false)))).codes.any (fun c => numSpecial (decodeFloat (elemFmt (fcwFmt fmt)) c))

/-- What a row comes to at a unit. -/
inductive RowEnd where
  /-- absent, or another unit's -/
  | notMine
  | committed (bytesRead bytesWritten : Nat) (lane : Lane) (rand : Nat)
  | guarded (bytesRead : Nat)
  | poisoned (pa bytesRead : Nat)

/-- A unit's own test of a row through its translations: present (R268), with its bitmap and parameters in the near tier (R259), and of its stack
(R258); a fenced unit has no row of its own (R280). -/
def rowIsMine (w : Who) (k r : Nat) (a : UpdArgs) : Act Bool := do
  let asid := cmdAsid (← get) k
  let pb ← if a.presBase ≠ 0 then operandPieces w asid 6 r (a.presBase + r / 8) 1 1 else pure []
  let s ← get
  if pb.any (fun e => !presentAt s e.1 r) then return false
  let pp ← operandPieces w asid 0 r (a.pBase + r * a.pStride) 1 1
  if pp.any (fun e => stackOf e.1 ≠ w.stack) then return false
  if isFenced s (0xC080 + w.stack) then abortWith 0x20
  return true

/-- One row updated as one read-modify-write (R258 to R269, R273, R275). -/
def updRow (k stack r : Nat) : Act RowEnd := do
  let s ← get
  let p := slotAt s k
  let a := updArgs p
  let asid := cmdAsid s k
  let w : Who := { die := stack / 4, key := some k, origin := 2, stack := stack }
  let e := elemBits (fcwFmt a.fmtP) / 8
  let eg := elemBits (fcwFmt a.fmtG) / 8
  let em := elemBits (fcwFmt a.fmtM) / 8
  let place (tensor va n access : Nat) (on : Bool) : Act (List (Nat × Nat)) :=
    if on then operandPieces w asid tensor r va n access else pure []
  if !(← rowIsMine w k r a) then return .notMine
  let pp ← place 0 (a.pBase + r * a.pStride) (a.elems * e) 7 true
  let pg ← place 1 (a.gBase + r * a.gStride) (a.elems * eg) (if a.clearGrad then 7 else 1) true
  let p1 ← place 2 (a.m1Base + r * a.mStride) (a.elems * em) 7 (a.m1Base ≠ 0)
  let p2 ← place 3 (a.m2Base + r * a.mStride) (a.elems * em) 7 (a.m2Base ≠ 0)
  let pr ← place 4 (a.remBase + r * a.remStride) (a.elems * 2) 7 (a.remBase ≠ 0)
  let pc ← place 5 (a.cntBase + r * 4) 4 7 a.rowStep
  let pb ← place 6 (a.presBase + r / 8) 1 (if a.clearPres then 7 else 1) (a.presBase ≠ 0)
  let (bp, xp) ← readPieces w pp
  let (bg, xg) ← readPieces w pg
  let (b1, x1) ← readPieces w p1
  let (b2, x2) ← readPieces w p2
  let (br, xr) ← readPieces w pr
  let (bc, xc) ← readPieces w pc
  let (bb, xb) ← readPieces w pb
  let got := bp.length + bg.length + b1.length + b2.length + br.length + bc.length
  match [xp, xg, x1, x2, xr, xc, xb].findSome? id with
  | some pa => return .poisoned pa got
  | none =>
    let t := if a.rowStep then (bytesNat bc + 1) % 2 ^ 32 else a.step
    let s1 : F32 := BitVec.ofNat 32 (param p 0x6C 32)
    let s2 : F32 := BitVec.ofNat 32 (param p 0x70 32)
    let bias1 := biasTerm s1 t
    let bias2 := biasTerm s2 t
    let prog := updProgram s a.slot
    let lanes := (List.range a.elems).map (fun i =>
      prog.foldl (laneStep (storedParam a.fmtP (a.remBase ≠ 0) (updRand a 0 r i))) (laneStart p a t bias1 bias2 bg bp b1 b2 br i))
    let ps := lanes.map (fun l => laneGet l 1)
    let m1s := lanes.map (fun l => laneGet l 2)
    let m2s := lanes.map (fun l => laneGet l 3)
    let pairs := ps.map (fun x => (f32OfNum (f32Num x)).toNat)
    let special :=
      (if a.remBase = 0 then storesSpecial a.fmtP (updRand a 0 r) ps else pairs.any (fun x => numSpecial (decodeFloat fmtFp32 x))) ||
        (a.m1Base ≠ 0 && storesSpecial a.fmtM (updRand a 1 r) m1s) || (a.m2Base ≠ 0 && storesSpecial a.fmtM (updRand a 2 r) m2s)
    if a.guard_ && special then return .guarded got
    else
      writePieces w pp (if a.remBase = 0 then storeReg a.fmtP (updRand a 0 r) ps else pairs.flatMap (fun x => natBytes 2 (x / 65536)))
      writePieces w pr (pairs.flatMap (fun x => natBytes 2 (x % 65536)))
      writePieces w p1 (storeReg a.fmtM (updRand a 1 r) m1s)
      writePieces w p2 (storeReg a.fmtM (updRand a 2 r) m2s)
      writePieces w pc (natBytes 4 t)
      if a.clearGrad then writePieces w pg (List.replicate bg.length 0)
      if a.clearPres then writePieces w pb (bb.map (fun b => b &&& ~~~(BitVec.ofNat 8 (2 ^ (r % 8)))))
      let wrote := bp.length + br.length + b1.length + b2.length + bc.length + (if a.clearGrad then bg.length else 0) +
        (if a.clearPres then bb.length else 0)
      return .committed got wrote (lanes.getLastD []) (updRand a 0 r (a.elems - 1))

/-- A fault of a unit's access: the unit stops at the row (R249, R276). -/
def unitFault (s : State) (k stack : Nat) (f : XFault) : State :=
  let w : Waiter := ⟨2, k, 0xFF, 0, 0xFF, 0, stack, f.va, f.access⟩
  waitFault (setUnitFault s stack true) f w

/-- Whether every unit has passed its last row (R278). -/
def unitsDone (s : State) (k : Nat) : Bool :=
  let rows := (updArgs (slotAt s k)).rows
  (List.range 32).all (fun u => (unitAt s u).cursor ≥ rows)

/-- An UPD_STEP ends when its last row has: with a fenced unit that still has a row it ends ABORTED_FAULT (R272, R280). -/
def settleUpdate (s : State) (k : Nat) : State :=
  let rows := (updArgs (slotAt s k)).rows
  match cmdOf s k with
  | none => s
  | some c =>
    if (List.range 32).any (fun u => isFenced s (0xC080 + u) && decide ((unitAt s u).cursor < rows) &&
        rowOwner s k (u / 4) (unitAt s u).cursor == some u) then abortCmd s k 0x20
    else if unitsDone s k then finishCmd s k { result := updResult c }
    else s

/-- The bytes of an operand looked at without an access, none where it cannot be. -/
def peekOperand (s : State) (k die va n : Nat) : List Byte := (peekVa s k die va).elim [] (fun pa => peekBytes s pa n)

/-- The operands that a lane takes the first element of a row from: their addresses and bytes, 0 bytes for one that is absent (R266, R270). -/
def laneOperands (a : UpdArgs) (r : Nat) : List (Nat × Nat) :=
  let n (fmt : BitVec 16) : Nat := elemBits (fcwFmt fmt) / 8
  let has (base n : Nat) : Nat := if base = 0 then 0 else n
  [(a.gBase + r * a.gStride, n a.fmtG), (a.pBase + r * a.pStride, n a.fmtP), (a.m1Base + r * a.mStride, has a.m1Base (n a.fmtM)),
   (a.m2Base + r * a.mStride, has a.m2Base (n a.fmtM)), (a.remBase + r * a.remStride, has a.remBase 2),
   (a.cntBase + r * 4, if a.rowStep then 4 else 0)]

/-- The registers of the lane of the first element of a row before its first operation (R260): an operand that cannot be read yet stands as
+0.0 (log 52). -/
def rowLane (s : State) (k stack r : Nat) : Lane :=
  let p := slotAt s k
  let a := updArgs p
  let xs := (laneOperands a r).map (fun x => peekOperand s k (stack / 4) x.1 x.2)
  let at_ (i : Nat) : List Byte := xs.getD i []
  let t := if a.rowStep then (bytesNat (at_ 5) + 1) % 2 ^ 32 else a.step
  laneStart p a t (biasTerm (BitVec.ofNat 32 (param p 0x6C 32)) t) (biasTerm (BitVec.ofNat 32 (param p 0x70 32)) t)
    (at_ 0) (at_ 1) (at_ 2) (at_ 3) (at_ 4) 0

/-- A unit's lane made ready for the row at its cursor; it is loaded again while an operand cannot be read (R260, R276). -/
def loadLane (s : State) (k stack : Nat) : State :=
  let u := unitAt s stack
  let a := updArgs (slotAt s k)
  if u.cursor ≥ a.rows then s
  else
    let waits := (laneOperands a u.cursor).any (fun x => decide (x.2 > 0) && (peekVa s k (stack / 4) x.1).isNone)
    setUnit s stack { u with regs := rowLane s k stack u.cursor, rand := updRand a 0 u.cursor 0, stale := waits }

/-- The lanes of a command that wait for an operand, loaded again unless their unit stands at a fault (R260, R276). -/
def reloadLanes (s : State) (k : Nat) : State :=
  (List.range 32).foldl (fun s i =>
    let u := unitAt s i
    if u.key = some k ∧ u.stale ∧ !u.faulted then loadLane s k i else s) s

/-- The rows of an UPD_STEP. -/
def updateRows (s : State) (k : Nat) : Nat := (updArgs (slotAt s k)).rows

/-- UPD_STEP starts or resumes on every unit, from its cursors (R278, R338). -/
def startUpdate (s : State) (k : Nat) : State :=
  let a := updArgs (slotAt s k)
  let saved := (cmdOf s k).elim [] (fun c => c.cursors)
  let s := (List.range 32).foldl (fun s u =>
    loadLane (setUnit s u { unitAt s u with
      key := some k, cursor := firstRow s k u (tget 0 saved u), faulted := false, slot := a.slot, regs := [], fmtP := a.fmtP,
      rem := a.remBase ≠ 0, rand := 0, stale := false }) k u) s
  settleUpdate s k

/-- UPD_STEP preempted: each unit stops at its row boundary and its cursor is kept (R278). -/
def preemptUpdate (s : State) (k : Nat) : State :=
  let cs := (List.range 32).foldl (fun t u => tset 0 t u (unitAt s u).cursor) []
  let s := updCmd s k (fun c => { c with cursors := cs })
  (List.range 32).foldl (fun s u =>
    let s := setUnitFault s u false
    bumpUpd (setUnit s u { unitAt s u with key := none }) u 0x50 1) s

/-- The first row left for poison on a unit is recorded once for the command (R275). -/
def notePoisonRow (s : State) (k stack r pa : Nat) : State :=
  let first := (cmdOf s k).elim false (fun c => !c.poisonUnits.contains stack)
  let s := updCmd s k (fun c => { c with
    poison := true, poisonRows := c.poisonRows + 1, poisonUnits := insertNat stack c.poisonUnits })
  if first then report s { cause := 0x1A, source := 0xC080 + stack, key := some k, addr := pa, info0 := r } else s

/-- What a finished row leaves: counts, the cursor and the lane registers; how many cycles it was busy and waited for its share only timing
decides (R272, R277, R278, R280; log 14). -/
def endRow (s : State) (k stack r : Nat) (e : RowEnd) : State :=
  let a := updArgs (slotAt s k)
  let s := match e with
    | .notMine => s
    | .committed got wrote lane rand =>
      let s := setUnit s stack { unitAt s stack with regs := lane, rand := rand }
      let s := bumpUpd (bumpUpd (bumpUpd (bumpUpd s stack 0x08 1) stack 0x10 a.elems) stack 0x18 got) stack 0x20 wrote
      updCmd s k (fun c => { c with rows := c.rows + 1, steps := c.steps + 1 })
    | .guarded got =>
      updCmd (bumpUpd (bumpUpd s stack 0x40 1) stack 0x18 got) k (fun c => { c with guarded := c.guarded + 1 })
    | .poisoned pa got => notePoisonRow (bumpUpd (bumpUpd s stack 0x48 1) stack 0x18 got) k stack r pa
  let s := match e with
    | .notMine => s
    | _ => bumpFree (bumpFree s (0x5000 + stack * 0x80) 0x28) (0x5000 + stack * 0x80) 0x38
  loadLane (setUnit s stack { unitAt s stack with cursor := firstRow s k stack (r + 1) }) k stack

/-- UPD_ROW_COMMIT: a unit's next row (R273, R278). The lease and the session can hold it (R351). -/
def rowCommit (s : State) (stack : Nat) : State :=
  let u := unitAt s stack
  match u.key with
  | none => s
  | some k =>
    if u.faulted ∨ stepsHeld s k ∨ !dieCommonOn s ∨ u.cursor ≥ (updArgs (slotAt s k)).rows then s
    else match (updRow k stack u.cursor).run s with
      | .ok e s' => settleUpdate (endRow s' k stack u.cursor e) k
      | .error (.fault f) _ => unitFault s k stack f
      | .error _ s' => abortCmd s' k 0x20

/-- One operation of a program on a unit's lane (R262): operands that R263 refuses change nothing. -/
def unitOp (s : State) (stack op rd ra rb rc : Nat) : State :=
  let u := unitAt s stack
  let w := updWord (BitVec.ofNat 5 op) (BitVec.ofNat 5 rd) (BitVec.ofNat 5 ra) (BitVec.ofNat 5 rb) (BitVec.ofNat 5 rc)
  if (updOpCheck w).isSome then s
  else setUnit s stack { u with regs := laneStep (storedParam u.fmtP u.rem u.rand) u.regs w }

end Sys2Proof.Machine
end

