-- ==== Sys2Proof/Machine/KettleLinks.lean ====
section
/-! DEFINITION. Kettle links: frames, link-level retry, link states, topology, the messages frames carry and the link commands
(spec/11_kettle_links.md R281 to R303, spec/14_firmware.md R386). -/
namespace Sys2Proof.Machine

/-! ### Frames (R283 to R285) -/

/-- A payload word with its poison mark. -/
abbrev MarkedWord := Word128 × Bool

/-- The fields of a header granule that say what a frame is (R284). -/
structure FrameHead where
  type : Nat
  dst : Nat
  src : Nat
  hops : Nat := 0
  vc : Nat
  len : Nat
  xfer : Nat := 0
  addr : Nat := 0

/-- The fields of a received header word (R284). -/
def headOf (w : Word128) : FrameHead where
  type := (w.extractLsb' 124 4).toNat
  dst := (w.extractLsb' 120 4).toNat
  src := (w.extractLsb' 116 4).toNat
  hops := (w.extractLsb' 112 4).toNat
  vc := (w.extractLsb' 86 2).toNat
  len := (w.extractLsb' 80 6).toNat
  xfer := (w.extractLsb' 64 16).toNat
  addr := (w.extractLsb' 0 64).toNat

/-- The sequence number and the acknowledgement of a header word (R284). -/
def headSeq (w : Word128) : Nat := (w.extractLsb' 100 12).toNat
def headAck (w : Word128) : Nat := (w.extractLsb' 88 12).toNat

/-- A header word (R284). -/
def headWord (h : FrameHead) (seq ack : Nat) : Word128 :=
  BitVec.ofNat 128 (h.addr % 2 ^ 64 + h.xfer % 2 ^ 16 * 2 ^ 64 + h.len % 64 * 2 ^ 80 + h.vc % 4 * 2 ^ 86 + ack % 4096 * 2 ^ 88 +
    seq % 4096 * 2 ^ 100 + h.hops % 16 * 2 ^ 112 + h.src % 16 * 2 ^ 116 + h.dst % 16 * 2 ^ 120 + h.type % 16 * 2 ^ 124)

/-- A frame of 33 granules, its unused ones +0.0 under a valid code (R283). -/
def buildFrame (h : FrameHead) (seq ack : Nat) (ws : List MarkedWord) : List Granule :=
  encodeGranule (headWord h seq ack) false ::
    (List.range 32).map (fun i => let w := ws.getD i (0, false); encodeGranule w.1 w.2)

/-- A frame with another sequence number and acknowledgement in its header. -/
def stampFrame (f : List Granule) (seq ack : Nat) : List Granule :=
  encodeGranule (headWord (headOf (deliverGranule (f.getD 0 0)).1) seq ack) false :: f.drop 1

/-- A received frame's word with its poison mark, one symbol error corrected (R286, R407). -/
def frameWord (f : List Granule) (i : Nat) : MarkedWord := deliverGranule (f.getD i 0)

/-- A received frame's header word. -/
def frameTop (f : List Granule) : Word128 := (frameWord f 0).1

/-- A received frame's header. -/
def frameHead (f : List Granule) : FrameHead := headOf (frameTop f)

/-- The payload words of a frame, `len` of them. -/
def payload (f : List Granule) : List MarkedWord := (List.range (min 32 (frameHead f).len)).map (fun i => frameWord f (i + 1))

/-! ### Ports and topology (R290, R291) -/

/-- A port. -/
def portAt (s : State) (k : Nat) : KtlPort := tget KtlPort.reset s.ktl.ports k

/-- A port changed. -/
def setPort (s : State) (k : Nat) (p : KtlPort) : State :=
  { s with ktl := { s.ktl with ports := tset KtlPort.reset s.ktl.ports k p } }

/-- The fields of KTL_TOPO (R290). -/
def topoMode (s : State) : Nat := cfgVal s 0x7000 0 % 4
def ownPkg (s : State) : Nat := cfgVal s 0x7000 0 / 16 % 16
def topoSize (s : State) : Nat := cfgVal s 0x7000 0 / 256 % 32

/-- The package that a port of package `n` reaches (R290). -/
def neighbourOf (mode size n k : Nat) : Option Nat :=
  if mode = 1 then some (if k % 2 = 0 then (n + 1) % size else (n + size - 1) % size)
  else if mode = 2 then
    let x := n % 4
    let y := n / 4
    some (match k with
      | 0 => (x + 1) % 4 + 4 * y
      | 1 => (x + 3) % 4 + 4 * y
      | 2 => x + 4 * ((y + 1) % 4)
      | _ => x + 4 * ((y + 3) % 4))
  else none

/-- The peer's port of a link: the opposite one (R290). -/
def oppositePort (k : Nat) : Nat := k ^^^ 1

/-- Whether traffic may use port `k` of package `n`: this package's own ports while they are in routing, another package's by the link
map (R291, R302). -/
def linkUsable (s : State) (n k : Nat) : Bool := if n = ownPkg s then (portAt s k).routed else s.ktl.linkMap.getLsbD (4 * n + k)

/-- One round of the hop counts towards a package; 99 stands for no route. -/
def relaxHops (s : State) (dst : Nat) (d : List Nat) : List Nat :=
  (List.range 16).map (fun n =>
    if n = dst then 0
    else (List.range 4).foldl (fun best k =>
      if linkUsable s n k then
        match neighbourOf (topoMode s) (topoSize s) n k with
        | some m => min best (d.getD m 99 + 1)
        | none => best
      else best) 99)

/-- The fewest hops from each package to one (R291). -/
def hopCounts (s : State) (dst : Nat) : List Nat :=
  (List.range 16).foldl (fun d _ => relaxHops s dst d) (List.replicate 16 99)

/-- This package's ports in the order that settles a tie: towards increasing package number in RING, x before y and positive before
negative in TORUS (R291). -/
def portOrder (s : State) : List Nat := if topoMode s = 1 then [0, 2, 1, 3] else [0, 1, 2, 3]

/-- Hops to a package through one of this package's ports. -/
def hopsVia (s : State) (d : List Nat) (k : Nat) : Nat :=
  if (portAt s k).routed then
    match neighbourOf (topoMode s) (topoSize s) (ownPkg s) k with
    | some m => d.getD m 99 + 1
    | none => 99
  else 99

/-- The one of a pair of ports, lower first, that a frame takes (R291): ACTIVE ports before one that retrains; by bit 0 of the transfer when
`byXfer`, else the lower-numbered. -/
def pairPort (s : State) (pair : List Nat) (xfer : Nat) (byXfer : Bool) : Option Nat :=
  let act := pair.filter (fun k => (portAt s k).state == 4)
  let ks := if act.isEmpty then pair else act
  if byXfer then (ks.find? (fun k => k / 2 == xfer % 2)).orElse (fun _ => ks.head?) else ks.head?

/-- The port a frame to a package takes (R291): the fewest hops, ties in order; in RING, of a pair, the one bit 0 of the transfer names
when `byXfer`, else the lower. None when the package cannot be reached. -/
def routePort (s : State) (dst xfer : Nat) (byXfer : Bool) : Option Nat :=
  let d := hopCounts s dst
  let ks := (portOrder s).filter (fun k => decide (hopsVia s d k < 99))
  let best := ks.foldl (fun b k => min b (hopsVia s d k)) 99
  match ks.filter (fun k => hopsVia s d k == best) with
  | [] => none
  | k :: rest => if topoMode s = 1 then pairPort s ((k :: rest).filter (fun x => x % 2 == k % 2)) xfer byXfer else some k

/-- Whether a package can be reached (R291). -/
def reachable (s : State) (pkg : Nat) : Bool := pkg == ownPkg s || (routePort s pkg 0 false).isSome

/-- The packages of the topology other than this one. -/
def otherPackages (s : State) : List Nat :=
  if topoMode s = 0 then [] else (List.range (min 16 (topoSize s))).filter (fun n => n ≠ ownPkg s)

/-! ### Sending (R286, R287) -/

/-- The frames received in order by a port that have not drained: held for a wake, or waiting to be forwarded (R287). -/
def undrained (s : State) (k : Nat) : List Nat :=
  (s.ktl.heldFrames.filter (fun e => e.port == k && e.owed)).map (fun e => headSeq (frameTop e.frame)) ++
    (List.range 4).flatMap (fun o => (portAt s o).waiting.filterMap (fun w =>
      w.via.bind (fun v => if v.1 = k then some v.2 else none)))

/-- The acknowledgement a port sends: the last frame received in order, or the one before the first that has not drained, since the ack
returns the credits too (R284, R287; log 18). -/
def portAck (s : State) (k : Nat) : Nat :=
  let next := (portAt s k).rxSeq
  let back := (undrained s k).foldl (fun b q => max b ((next + 4096 - q) % 4096)) 0
  (next + 4095 - back) % 4096

/-- A frame as it leaves a port, with the port's present acknowledgement. -/
def emitFrame (s : State) (k : Nat) (f : List Granule) : State :=
  let ack := portAck s k
  let s := setPort s k { portAt s k with lastAck := ack }
  { s with ktl := { s.ktl with sent := s.ktl.sent ++ [(k, stampFrame f (headSeq (frameTop f)) ack)] } }

/-- A sequenced frame sent: it takes the next seq and stays in the replay buffer (R286); `fwd` counts it as forwarded. -/
def putFrame (s : State) (k : Nat) (f : List Granule) (fwd : Bool) : State :=
  let p := portAt s k
  let f := stampFrame f p.txSeq 0
  let s := setPort s k { p with txSeq := (p.txSeq + 1) % 4096, replayBuf := p.replayBuf ++ [f] }
  let s := bumpKtl s k 0x10 1
  emitFrame (if fwd then bumpKtl s k 0x20 1 else s) k f

/-- The buffer class of a frame sent by port `k` at the receiver: the second once it has crossed the dateline of the ring or of the torus
dimension it travels (R287). -/
def bufferClass (s : State) (k src : Nat) : Nat :=
  match neighbourOf (topoMode s) (topoSize s) (ownPkg s) k with
  | none => 0
  | some m =>
    let at_ (n : Nat) : Nat := if topoMode s = 2 then (if k < 2 then n % 4 else n / 4) else n
    if k % 2 = 0 then bit (decide (at_ m < at_ src)) else bit (decide (at_ m > at_ src))

/-- Frames a channel's receiver grants credits for (R287). -/
def vcCredits (vc : Nat) : Nat := if vc = 0 then 64 else 16

/-- Frames in a replay buffer (R281). -/
def replayFrames : Nat := 1024

/-- Whether a port has a credit of the frame's channel and class: fewer frames of them are unacknowledged than it was granted (R287). -/
def hasCredit (s : State) (k : Nat) (f : List Granule) : Bool :=
  let h := frameHead f
  let cls := bufferClass s k h.src
  decide (((portAt s k).replayBuf.countP (fun g =>
    let x := frameHead g
    x.vc == h.vc && bufferClass s k x.src == cls)) < vcCredits h.vc)

/-- Whether a port sends waiting frames: in ACTIVE and in DRAIN, and while its peer's DETACH waits for its acknowledgements (R288, R302). -/
def maySend (p : KtlPort) : Bool := p.state == 4 || p.state == 6 || (p.state == 0 && p.ackDetach)

/-- The waiting frame a port sends next: vc 3 first, then vc 1, vc 2 and vc 0, each channel in order (R287). -/
def nextWaiting (s : State) (k : Nat) : Option KtlWaiting :=
  let p := portAt s k
  if !maySend p ∨ p.replayBuf.length ≥ replayFrames then none
  else [3, 1, 2, 0].findSome? (fun vc => p.waiting.find? (fun w => (frameHead w.frame).vc == vc && hasCredit s k w.frame))

/-- The waiting frames of a port sent, as its credits and its replay buffer let them go. -/
def sendWaitingUpTo (s : State) (k : Nat) : Nat → State
  | 0 => s
  | fuel + 1 =>
    match nextWaiting s k with
    | none => s
    | some w =>
      let p := portAt s k
      sendWaitingUpTo (putFrame (setPort s k { p with waiting := p.waiting.erase w }) k w.frame w.via.isSome) k fuel

/-- All that a port can send now. -/
def sendWaiting (s : State) (k : Nat) : State := sendWaitingUpTo s k (portAt s k).waiting.length

/-- Frames put up at a port, in order, and sent as soon as it can (R287, R302). -/
def enqueue (s : State) (k : Nat) (ws : List KtlWaiting) : State :=
  sendWaiting (setPort s k { portAt s k with waiting := (portAt s k).waiting ++ ws }) k

/-- A frame sent to a package by its route; one without a route is not sent. -/
def sendTo (s : State) (h : FrameHead) (byXfer : Bool) (ws : List MarkedWord) : State :=
  match routePort s h.dst h.xfer byXfer with
  | some k => enqueue s k [⟨buildFrame h 0 0 ws, none, none⟩]
  | none => s

/-- A frame of the link itself: sent at once, it takes no credit (log 18). -/
def sendLink (s : State) (k : Nat) (h : FrameHead) (ws : List MarkedWord) : State := putFrame s k (buildFrame h 0 0 ws) false

/-- IDLE (R284), for an acknowledgement that no other frame has carried: the ports that exchange traffic send it. -/
def sendIdle (s : State) (k : Nat) : State :=
  let p := portAt s k
  if maySend p ∧ p.lastAck ≠ portAck s k then
    let dst := (neighbourOf (topoMode s) (topoSize s) (ownPkg s) k).getD 0
    emitFrame s k (buildFrame { type := 0, dst := dst, src := ownPkg s, vc := 3, len := 0 } 0 0 [])
  else s

/-- The acknowledgements still to be sent after a step of the links. -/
def sendIdles (s : State) : State := (List.range 4).foldl sendIdle s

/-- The frame times that pass in a tick while a frame waits for link credit (R281, R287, R303): 1.485 ns at width 16, twice that at
width 8. -/
def frameTimes (width now : Nat) : Nat :=
  let f (t : Nat) : Nat := t * 10000000 / (384 * (if width = 8 then 2970 else 1485))
  f (now + 1) - f now

/-- KTL_CREDIT_WAIT at a tick. -/
def countCreditWait (s : State) : State :=
  (List.range 4).foldl (fun s k =>
    let p := portAt s k
    if maySend p ∧ p.waiting.any (fun w => !hasCredit s k w.frame) then bumpKtl s k 0x50 (frameTimes p.width s.now) else s) s

/-- A LINK frame's header: its kind in addr (R284). -/
def linkHead (s : State) (k kind : Nat) : FrameHead :=
  { type := 7, dst := (neighbourOf (topoMode s) (topoSize s) (ownPkg s) k).getD 0, src := ownPkg s, vc := 3, len := 0, addr := kind }

/-- LINK NAK, which carries the expected seq and takes none of its own (R284, R286). -/
def sendNak (s : State) (k : Nat) : State :=
  emitFrame (bumpKtl s k 0x10 1) k (buildFrame (linkHead s k 0) (portAt s k).rxSeq 0 [])

/-- The member field of IDENT: bits [31:0] of CMD_ID_MEMBER, architecture and member code (R306). -/
def identMember : Nat := 0x01000000 + Config.kerur.code * 2 ^ 16

/-- An IDENT frame (R285, R288); none while the replay buffer is full. -/
def sendIdent (s : State) (k : Nat) : State :=
  let p := portAt s k
  let w : Word128 := BitVec.ofNat 128 (k % 16 + ownPkg s * 16 + (if p.width = 16 then 2 else 1) * 2 ^ 8 + topoSize s * 2 ^ 11 +
    topoMode s * 2 ^ 16 + identMember * 2 ^ 32)
  let h : FrameHead := { linkHead s k 0 with type := 8, len := 1 }
  let s := if p.replayBuf.length ≥ replayFrames then s else sendLink s k h [(w, false)]
  setPort s k { portAt s k with identSentAt := s.now }

/-- A TOPO frame with the link map to every package that can be reached (R291). -/
def sendTopo (s : State) : State :=
  let w : Word128 := s.ktl.linkMap.setWidth 128
  ((otherPackages s).filter (reachable s)).foldl (fun s n =>
    sendTo s { type := 9, dst := n, src := ownPkg s, vc := 2, len := 1 } false [(w, false)]) s

/-- A CTRL frame: the message's type and length, then the message (R386). -/
def sendCtrl (s : State) (dst kind len : Nat) (body : List MarkedWord) : State :=
  let w : Word128 := BitVec.ofNat 128 (len * 2 ^ 96 + kind * 2 ^ 112)
  sendTo s { type := 6, dst := dst, src := ownPkg s, vc := 2, len := min 32 (body.length + 1) } false ((w, false) :: body)

/-- CLOCK to every package that can be reached, by the scheduler core (R386). -/
def sendClock (s : State) : State :=
  if procRunning s 2 then
    ((otherPackages s).filter (reachable s)).foldl (fun s n => sendCtrl s n 3 8 [(BitVec.ofNat 128 (s.now % 2 ^ 64), false)]) s
  else s

/-- A CREDIT frame to a package (R285). -/
def sendCredit (s : State) (dst : Nat) (w : Word128) : State :=
  sendTo s { type := 3, dst := dst, src := ownPkg s, vc := 1, len := 1 } true [(w, false)]

/-! ### Ring groups (R297, R298) -/

/-- Whether a command is a ring command: it has a ring sequence number. -/
def isRing (c : Cmd) : Bool := c.ringSeq.isSome

/-- The ring group of a command's session. -/
def groupOf (s : State) (c : Cmd) : Nat := (tget Session.reset s.sessions (cmdSession s c.key % 256)).ringGroup

/-- KTL_GROUP_CTL of a command's group, at its epoch: mode, position and count (R297). -/
def groupMode (s : State) (c : Cmd) : Nat := cmdVal s c (0x7001 + groupOf s c) 0 % 4
def groupPos (s : State) (c : Cmd) : Nat := cmdVal s c (0x7001 + groupOf s c) 0 / 16 % 16
def groupCount (s : State) (c : Cmd) : Nat := cmdVal s c (0x7001 + groupOf s c) 0 / 256 % 32

/-- The package at a position of a command's group (R297). -/
def memberAt (s : State) (c : Cmd) (i : Nat) : Nat := cmdVal s c (0x7005 + groupOf s c) 0 / 2 ^ (4 * i) % 16

/-- The packages of a command's group. -/
def groupMembers (s : State) (c : Cmd) : List Nat := (List.range (groupCount s c)).map (memberAt s c)

/-- The placed ring commands that can no longer reach a member complete ABORTED_LINK (R302). -/
def abortUnreachable (s : State) : State :=
  (s.cmds.filter (fun c => isRing c && c.placedAt.isSome && (groupMembers s c).any (fun n => !reachable s n))).foldl
    (fun s c => abortCmd s c.key 0x21) s

/-! ### Link states (R288) -/

/-- This package's bits of the link map follow its ports (R291). -/
def ownMapBits (s : State) (m : BitVec 64) : BitVec 64 :=
  let o := 4 * ownPkg s
  let own := (List.range 4).foldl (fun a k => a + (if (portAt s k).state = 4 then 2 ^ k else 0)) 0
  let mask : BitVec 64 := BitVec.ofNat 64 (15 * 2 ^ o)
  (m &&& ~~~mask) ||| BitVec.ofNat 64 (own * 2 ^ o)

/-- A link map taken on: CLOCK goes out when it differs from the one before (R386). -/
def setLinkMap (s : State) (m : BitVec 64) : State :=
  let old := s.ktl.linkMap
  let s := { s with ktl := { s.ktl with linkMap := m } }
  if old = m then s else sendClock s

/-- A port change into or out of ACTIVE (R291): the map, TOPO, and the commands that lose a member. -/
def topoChanged (s : State) : State := abortUnreachable (sendTopo (setLinkMap s (ownMapBits s s.ktl.linkMap)))

/-- The commands of this package that lose a frame: by transfer, by the ring sequence of a CREDIT, by the transfer a DONE reports
(R302). -/
def losesFrame (s : State) (f : List Granule) : Option Nat :=
  let h := frameHead f
  if h.src ≠ ownPkg s then none
  else if h.type = 1 ∨ h.type = 2 then (s.ktl.transfers.find? (fun t => t.xfer == h.xfer)).map (·.key)
  else if h.type = 3 then
    let w := (frameWord f 1).1
    (s.cmds.find? (fun c => c.ringSeq == some (w.extractLsb' 48 16) && groupOf s c == (w.extractLsb' 45 2).toNat)).map (·.key)
  else if h.type = 4 then
    match s.ktl.inbound.find? (fun i => i.src == h.dst && i.xfer == h.xfer) with
    | some i => (s.cmds.find? (fun c => isRing c && c.placedAt.isSome && groupOf s c == i.group)).map (·.key)
    | none => none
  else none

/-- The commands of this package with a frame at a port that is not acknowledged, or waits there. -/
def portKeys (s : State) (k : Nat) : List Nat :=
  ((portAt s k).replayBuf ++ (portAt s k).waiting.map (·.frame)).filterMap (losesFrame s)

/-- How long traffic waits for a port that retrains, in ticks: KTL_RETRAIN_HOLD at the epoch of the command with frames there, of several the
least, of none the newest (R302, R345; log 18). -/
def retrainHold (s : State) (k : Nat) : Nat :=
  ticksCeil (match ((portKeys s k).filterMap (cmdOf s)).map (fun c => cmdVal s c 0x700B 0) with
    | [] => cfgVal s 0x700B 0
    | v :: vs => vs.foldl min v)

/-- The frames of a port that were never acknowledged are lost, those that still wait there too; their seqs are used again (R302). -/
def loseFrames (s : State) (k : Nat) : State :=
  let p := portAt s k
  let keys := portKeys s k
  let seq := match p.replayBuf.head? with
    | some f => headSeq (frameTop f)
    | none => p.txSeq
  let s := setPort s k { p with replayBuf := [], waiting := [], failedReplays := [], txSeq := seq, lost := p.lost + p.replayBuf.length }
  keys.foldl (fun s key => abortCmd s key 0x21) s

/-- Entry into a state (R288): CHANGED, the time, and the reason of an exit from ACTIVE. -/
def enterState (s : State) (k st : Nat) (reason : Option Nat) : State :=
  let p := portAt s k
  let p := { p with
    state := st
    changed := true
    changedAt := s.now
    reason := reason.getD p.reason
    routed := st == 4 || (st == 5 && p.routed)
    trainFails := if st = 4 then 0 else p.trainFails
    fecCorr := if st = 4 then 0 else p.fecCorr
    fecUncorr := if st = 4 then 0 else p.fecUncorr
    replays := if st = 4 then 0 else p.replays
    failedReplays := if st = 4 ∨ st = 5 then [] else p.failedReplays
    lanesLocked := if st = 5 ∨ st ≤ 2 then 0 else p.lanesLocked
    width := if st ≤ 2 then 0 else p.width }
  let s := setPort s k p
  if st = 5 then bumpKtl s k 0x48 1 else s

/-- Entry into a state, with what a change into or out of ACTIVE brings (R288, R291): the map, and the frames that waited for the link. -/
def moveState (s : State) (k st : Nat) (reason : Option Nat) : State :=
  let was := (portAt s k).state
  let s := enterState s k st reason
  sendWaiting (if (was == 4) != (st == 4) then topoChanged s else s) k

/-- The frames a port took in before it starts afresh owe it no acknowledgement. -/
def forgetOwed (s : State) (k : Nat) : State :=
  let s := { s with ktl := { s.ktl with heldFrames := s.ktl.heldFrames.map (fun e => { e with owed := e.owed && e.port != k }) } }
  (List.range 4).foldl (fun s o => setPort s o { portAt s o with waiting := (portAt s o).waiting.map (fun w =>
    if w.via.any (fun v => v.1 == k) then { w with via := some (4, 0) } else w) }) s

/-- A port that starts afresh: no frame in its replay buffer, sequences from 0. -/
def clearLink (s : State) (k : Nat) : State :=
  let s := forgetOwed s k
  setPort s k { portAt s k with
    txSeq := 0, rxSeq := 0, replayBuf := [], waiting := [], failedReplays := [], detachSent := false, lastAck := 4095 }

/-- A port goes OFF: LINK_DETACH commands complete with the frames that were never acknowledged (R294). -/
def goOff (s : State) (k : Nat) (reason : Option Nat) : State :=
  let s := loseFrames s k
  let s := moveState s k 0 reason
  let p := portAt s k
  let s := clearLink (setPort s k { p with detaching := [], lost := 0 }) k
  p.detaching.foldl (fun s key => finishCmd s key { result := BitVec.ofNat 64 p.lost }) s

/-- A port goes to DETECT with its frames lost; a LINK_DETACH that waits then takes it OFF (R288). -/
def goDetect (s : State) (k : Nat) (reason : Option Nat) : State :=
  let s := clearLink (moveState (loseFrames s k) k 1 reason) k
  if (portAt s k).detaching.isEmpty then s else goOff s k none

/-- A KTL_LINK record; a port that its history fences enters FAILED (R414, R418). -/
def linkRecord (s : State) (k reason : Nat) : State :=
  let s := report s {
    cause := 0x08, source := 0xC010 + k, addr := 0, info0 := reason, info1 := (portAt s k).lastIdent.toNat % 2 ^ 64 }
  if isFenced s (0xC010 + k) ∧ (portAt s k).state ≠ 8 ∧ (portAt s k).state ≠ 0 then moveState (loseFrames s k) k 8 none else s

/-- DETACH sent once the replay buffer of a draining port is empty (R294). -/
def sendDetach (s : State) (k : Nat) : State :=
  let p := portAt s k
  if p.state = 6 ∧ p.replayBuf.isEmpty ∧ p.waiting.isEmpty ∧ !p.detachSent then
    sendLink (setPort s k { p with detachSent := true }) k (linkHead s k 1) []
  else s

/-- ACTIVE to DRAIN (R288, R294). -/
def startDrain (s : State) (k : Nat) : State := sendDetach (moveState s k 6 (some 1)) k

/-- What an empty replay buffer lets happen: DETACH in DRAIN, DETACH_ACK after the peer's DETACH (R288). -/
def bufferDrained (s : State) (k : Nat) : State :=
  let p := portAt s k
  if p.state = 0 ∧ p.ackDetach ∧ p.replayBuf.isEmpty ∧ p.waiting.isEmpty then
    clearLink (sendLink (setPort s k { p with ackDetach := false }) k (linkHead s k 2) []) k
  else sendDetach s k

/-! ### Receiving (R286) -/

/-- An ack received: the frames it covers leave the replay buffer, and their credits let waiting frames go (R286, R287). -/
def takeAck (s : State) (k ack : Nat) : State :=
  let p := portAt s k
  let rest := p.replayBuf.dropWhile (fun f => decide ((ack + 4096 - headSeq (frameTop f)) % 4096 < 2048))
  if rest.length = p.replayBuf.length then s
  else
    let failed := p.failedReplays.filter (fun e => rest.any (fun f => headSeq (frameTop f) == e.1))
    bufferDrained (sendWaiting (setPort s k { p with replayBuf := rest, failedReplays := failed }) k) k

/-- What a received frame is to its port (R284, R286, R288, R292). -/
inductive FrameKind where
  /-- no frame, or the port does not receive such a frame in its state -/
  | notHere
  /-- a frame that a port with lane lock does not take in its state: its lane codewords and granules are counted -/
  | unheard
  | discard
  | idle
  | nak
  | ident
  | detach
  | detachAck
  | forward
  | dataWin
  | dataRing
  | credit
  | done
  | refuse
  | echo
  | echoReply
  | clock
  /-- a CTRL message of another type (R386) -/
  | otherCtrl
  | topo
  deriving DecidableEq, Repr

/-- Whether a granule cannot be decoded. -/
def granuleBroken (g : Granule) : Bool := decodeOutcome g == .uncorrectable

/-- What the lane layer reports of a received frame, in a 34th granule of the command's operand (R282; log 64): the lane codewords that the
frame overlaps and that were corrected, bits [15:0], or could not be, bits [31:16]. -/
def laneCorrected (f : List Granule) : Nat := (f.getD 33 0).toNat % 2 ^ 16
def laneBroken (f : List Granule) : Nat := (f.getD 33 0).toNat / 2 ^ 16 % 2 ^ 16

/-- Whether a frame cannot be decoded: a granule, or a lane codeword that it overlaps (R282, R286). -/
def frameBroken (f : List Granule) : Bool := (f.take 33).any granuleBroken || laneBroken f ≠ 0

/-- The kind of a frame with an accepted header that ends at this package. -/
def endKind (f : List Granule) : FrameKind :=
  match (frameHead f).type with
  | 1 => .dataWin
  | 2 => .dataRing
  | 3 => .credit
  | 4 => .done
  | 5 => .refuse
  | 6 =>
    match ((frameWord f 1).1.extractLsb' 112 16).toNat with
    | 1 => .echo
    | 2 => .echoReply
    | 3 => .clock
    | _ => .otherCtrl
  | _ => .topo

/-- The kind of a frame of a port that exchanges traffic: errors and reserved types first, then the frames without a seq check, then the
seq, then where it goes. -/
def trafficKind (s : State) (k : Nat) (f : List Granule) : FrameKind :=
  let h := frameHead f
  let sub := h.addr % 256
  if frameBroken f then .discard
  else if h.type ≥ 10 ∨ (h.type = 7 ∧ sub ≥ 3) then .discard
  else if h.type = 0 then .idle
  else if h.type = 7 ∧ sub = 0 then .nak
  else if headSeq (frameTop f) ≠ (portAt s k).rxSeq then .discard
  else if h.type = 7 then (if sub = 1 then .detach else .detachAck)
  else if h.type = 8 then .ident
  else if h.dst ≠ ownPkg s then .forward
  else endKind f

/-- The kind of a received frame. -/
def frameKind (s : State) (k : Nat) (f : List Granule) : FrameKind :=
  let p := portAt s k
  let h := frameHead f
  if f.length ≠ 33 ∧ f.length ≠ 34 then .notHere
  else if p.state = 4 ∨ p.state = 6 then trafficKind s k f
  else if p.state = 3 ∨ (p.state = 5 ∧ p.lanesLocked ≠ 0) then
    (if h.type = 8 ∧ !frameBroken f then .ident else .unheard)
  else if p.state = 0 ∧ p.ackDetach then
    (if frameBroken f then .unheard else if h.type = 0 then .idle else if h.type = 7 ∧ h.addr % 256 = 0 then .nak else .unheard)
  else .notHere

/-- Lane codewords corrected and not correctable, counted (R295, R303). -/
def noteLanes (s : State) (k : Nat) (f : List Granule) : State :=
  let p := portAt s k
  let s := setPort s k { p with
    fecCorr := min (p.fecCorr + laneCorrected f) 0xFFFFFFFF, fecUncorr := min (p.fecUncorr + laneBroken f) 0xFFFFFFFF }
  bumpKtl (bumpKtl s k 0x28 (laneCorrected f)) k 0x30 (laneBroken f)

/-- Whether a granule is one that the code corrects. -/
def granuleCorrected (g : Granule) : Bool := match decodeOutcome g with | .corrected .. => true | _ => false

/-- Corrected codewords and granules of a frame: counted, the granules recorded (R286, R303). -/
def noteCorrections (s : State) (k : Nat) (f : List Granule) : State :=
  let os := ((f.take 33).filter granuleCorrected).map decodeOutcome
  os.foldl (fun s o => codeRecord s { die := 0 } (0xC010 + k) 9 0 o false) (bumpKtl (noteLanes s k f) k 0x38 os.length)

/-- A frame taken by the link level: corrections, its ack, and the next expected seq. -/
def linkTake (s : State) (k : Nat) (f : List Granule) (sequenced : Bool) : State :=
  let s := noteCorrections s k f
  let s := if sequenced then setPort s k { portAt s k with rxSeq := ((portAt s k).rxSeq + 1) % 4096 } else s
  takeAck s k (headAck (frameTop f))

/-- A frame taken that is for this package (R303). -/
def linkTakeOwn (s : State) (k : Nat) (f : List Granule) (sequenced : Bool) : State :=
  linkTake (bumpKtl s k 0x18 1) k f sequenced

/-- A row of a received frame: its effect when the frame is of the row's kind; the counts of a frame that the port does not take (R295, R303);
else nothing. -/
def onKind (kind : FrameKind) (k : Nat) (f : List Granule) (s : State) (act : State → State) :
    Host.Outcome State Fault Refusal :=
  .next (if frameKind s k f = kind then sendIdles (act s) else if frameKind s k f = .unheard then noteCorrections s k f else s)

/-! ### Frames for a unit that is powered down (R292, R394) -/

/-- A cluster whose logic is off (R389). -/
def clusterOff (s : State) (g : Nat) : Bool :=
  let c := clusterPower s g
  !c.powered || decide (c.k ≥ 3) || decide (s.pwr.device ≥ 4)

/-- The cluster a DATA_WIN frame writes to. -/
def winCluster (f : List Granule) : Nat := (frameHead f).addr % 2 ^ 27 / 2 ^ 22

/-- The cluster a frame needs, when it needs one; a fenced one is refused instead (R175). -/
def needsCluster (s : State) (f : List Granule) : Option Nat :=
  if (frameHead f).type = 1 ∧ !isFenced s (0xC040 + winCluster f) then some (winCluster f) else none

/-- Whether a frame must be held: its unit is off, or an earlier frame of its kind is held (R287, R292). -/
def mustHold (s : State) (f : List Granule) : Bool :=
  !dieCommonOn s || (match needsCluster s f with | some g => clusterOff s g | none => false) ||
    s.ktl.heldFrames.any (fun e => (frameHead e.frame).type == (frameHead f).type)

/-- A frame held for a wake. -/
def holdFrame (s : State) (k : Nat) (f : List Granule) : State :=
  let s := bumpKtl s k 0x68 1
  let s := { s with ktl := { s.ktl with heldFrames := s.ktl.heldFrames ++ [⟨k, f, true⟩] } }
  beginWake s (match needsCluster s f with
    | some g => (1 : BitVec 32) <<< g
    | none => 0) false

/-! ### What frames do -/

/-- The word of the last acknowledgement on its way, taken back by the kettle unit that sent the write (R176, R301). -/
def takeLastAck (s : State) : Word128 × State :=
  (match s.spad.acks.getLast? with | some a => a.word | none => 0,
    { s with spad := { s.spad with acks := s.spad.acks.dropLast } })

/-- One privileged write of a DATA_WIN frame, complete before its answer: its NAK code, 0 when it was admitted (R183, R301). -/
def winWrite (s : State) (k gen win addr : Nat) (ws : List MarkedWord) : Nat × State :=
  let src : BitVec 16 := BitVec.ofNat 16 (0xC010 + k)
  let r := makeRequest (s.now % 65536) gen win true src.toNat 0 ws.length false 0 addr
  let (a, s) := takeLastAck (completeWrites (remotePort s src r ws) (fun x => x == r))
  ((a.extractLsb' 120 8).toNat, s)

/-- The arrival of a frame of a transfer counted (R300). -/
def noteInbound (s : State) (src xfer group round k : Nat) (via : Option (Nat × Nat × Nat)) : State :=
  match s.ktl.inbound.find? (fun i => i.src == src && i.xfer == xfer) with
  | some _ => { s with ktl := { s.ktl with inbound := s.ktl.inbound.map (fun i =>
      if i.src = src ∧ i.xfer = xfer then { i with frames := i.frames + 1 } else i) } }
  | none => { s with ktl := { s.ktl with inbound := s.ktl.inbound ++ [⟨src, xfer, group, round, k, 1, false, via⟩] } }

/-- REFUSE back to the sender (R284, R301). -/
def sendRefuse (s : State) (k dst xfer code addr : Nat) : State :=
  let s := bumpKtl s k 0x60 1
  sendTo s { type := 5, dst := dst, src := ownPkg s, vc := 1, len := 1, xfer := xfer, addr := code } true
    [(BitVec.ofNat 128 (addr % 2 ^ 27), false)]

/-- A frame of a partial counted under the ring group of the command that opened its window; group 4 for a window of another's (R301). -/
def noteWinFrame (s : State) (k : Nat) (h : FrameHead) : State :=
  let core := h.addr % 2 ^ 27 / 2 ^ 19
  let win := h.addr / 2 ^ 53 % 8
  let w := windowOf s core win
  let group := match (if w.openedFor = 0 then none else cmdOf s (w.openedFor - 1)) with
    | some c => if isRing c then groupOf s c else 4
    | none => 4
  noteInbound s h.src h.xfer group 0 k (some (core, win, h.addr / 2 ^ 56))

/-- DATA_WIN written through its window, at most 16 words a request (R183, R301). -/
def takeDataWin (s : State) (k : Nat) (f : List Granule) : State :=
  let h := frameHead f
  let ws := payload f
  let gen := h.addr / 2 ^ 56
  let win := h.addr / 2 ^ 53 % 8
  let a := h.addr % 2 ^ 27
  if ws.isEmpty then s
  else
    let (c, s) := winWrite s k gen win a (ws.take 16)
    if c ≠ 0 then sendRefuse s k h.src h.xfer c a
    else if ws.length ≤ 16 then noteWinFrame s k h
    else
      let (c, s) := winWrite s k gen win (a + 16) (ws.drop 16)
      if c ≠ 0 then sendRefuse s k h.src h.xfer c (a + 16) else noteWinFrame s k h

/-- The address of a frame of a block in its staging half (R300). -/
def stageAddr (s : State) (round index : Nat) : Nat :=
  cfgVal s 0x7009 0 + round % 2 * (cfgVal s 0x700A 0 / 2) + index * 512

/-- DATA_RING written into its staging half (R300): 512 bytes at its frame index, poison granules as poison. -/
def takeDataRing (s : State) (k : Nat) (f : List Granule) : State :=
  let h := frameHead f
  let round := h.addr / 2 ^ 58 % 16
  let w : Who := { die := 0 }
  let (pa, s) := poolXlate w (stageAddr s round (h.addr % 2 ^ 32)) 2 s
  match pa with
  | none => s
  | some pa =>
    let s := (payload f).zipIdx.foldl (fun s e => physWrite w (pa + 16 * e.2) (natBytes 16 e.1.1.toNat) e.1.2 s) s
    noteInbound s h.src h.xfer (h.addr / 2 ^ 62) round k none

/-- RING_MISMATCH recorded, and a CREDIT with digest 0 sent back (R298). -/
def tellMismatch (s : State) (c : Cmd) (src : Nat) (w : Word128) : State :=
  let sq : BitVec 16 := c.ringSeq.getD 0
  let s := report s {
    cause := 0x1B, source := 0x8002, key := some c.key, addr := 0
    info0 := sq.toNat * 2 ^ 48 + c.digest.toNat % 2 ^ 48
    info1 := (w.extractLsb' 48 16).toNat * 2 ^ 48 + (w.extractLsb' 64 64).toNat % 2 ^ 48 }
  let back : Word128 := BitVec.ofNat 128 (sq.toNat * 2 ^ 48 + groupOf s c * 2 ^ 45)
  sendCredit s src back

/-- RING_MISMATCH: recorded and told, and the command ends ABORTED_FAULT (R298). -/
def ringMismatch (s : State) (c : Cmd) (src : Nat) (w : Word128) : State := abortCmd (tellMismatch s c src w) c.key 0x20

/-- The placed ring command of a group. -/
def runningRing (s : State) (g : Nat) : Option Cmd :=
  s.cmds.find? (fun c => isRing c && c.placedAt.isSome && groupOf s c == g)

/-- A CREDIT (R298): compared with the command of its ring sequence; with digest 0, or of a sequence already past, with the running one;
kept while its command has not started here. -/
def takeCredit (s : State) (src : Nat) (w : Word128) : State :=
  let g := (w.extractLsb' 45 2).toNat
  let sq : BitVec 16 := w.extractLsb' 48 16
  let dg : BitVec 64 := w.extractLsb' 64 64
  let keep := { s with ktl := { s.ktl with credits := s.ktl.credits ++ [(src, w)] } }
  match s.cmds.find? (fun c => c.ringSeq == some sq && groupOf s c == g) with
  | some c => if c.digest = dg then keep else ringMismatch s c src w
  | none =>
    match runningRing s g with
    | none => keep
    | some c =>
      if dg = 0 ∨ (sq - c.ringSeq.getD 0).toNat ≥ 32768 then ringMismatch s c src w else keep

/-- DONE: the transfer is written at the receiver (R300). -/
def takeDone (s : State) (xfer : Nat) : State :=
  { s with ktl := { s.ktl with transfers := s.ktl.transfers.map (fun t => if t.xfer = xfer then { t with done := true } else t) } }

/-- REFUSE: the sender's command ends ABORTED_FAULT with a record (R301). -/
def takeRefuse (s : State) (k : Nat) (f : List Granule) : State :=
  let h := frameHead f
  let s := bumpKtl s k 0x60 1
  match s.ktl.transfers.find? (fun t => t.xfer == h.xfer) with
  | none => s
  | some t =>
    abortCmd (report s {
      cause := 0x1C, source := 0xC010 + k, key := some t.key, addr := (frameWord f 1).1.toNat % 2 ^ 27
      info0 := h.addr % 256 }) t.key 0x20

/-- TOPO: the received link map is applied, this package's own ports excepted (R291). -/
def takeTopo (s : State) (f : List Granule) : State := setLinkMap s (ownMapBits s ((frameWord f 1).1.setWidth 64))

/-- The effect of a frame for this package. -/
def carryFrame (s : State) (k : Nat) (f : List Granule) : State :=
  let h := frameHead f
  match endKind f with
  | .dataWin => takeDataWin s k f
  | .dataRing => takeDataRing s k f
  | .credit => takeCredit s h.src (frameWord f 1).1
  | .done => takeDone s h.xfer
  | .refuse => takeRefuse s k f
  | .echo =>
    if procRunning s 2 then
      let len := ((frameWord f 1).1.extractLsb' 96 16).toNat
      sendCtrl s h.src 2 len ((payload f).drop 1)
    else s
  | .echoReply => { s with ktl := { s.ktl with echoes := s.ktl.echoes ++ [(h.src, (f.take 33).drop 1)] } }
  | .clock =>
    if procRunning s 2 then
      logAdd s 0x0030 0x8002 0 (natBytes 1 h.src ++ List.replicate 7 0 ++ natBytes 8 ((frameWord f 2).1.toNat % 2 ^ 64))
    else s
  | .topo => takeTopo s f
  | _ => s

/-- A frame for this package: taken by the link level, then held for a wake or carried out. Link maps need no unit beyond the kettle
links themselves. -/
def deliverFrame (s : State) (k : Nat) (f : List Granule) : State :=
  let s := linkTakeOwn s k f true
  if ((frameHead f).type = 1 ∨ (frameHead f).type = 2) ∧ mustHold s f then holdFrame s k f else carryFrame s k f

/-- The held frames whose unit has come up, in order of arrival; the others stay (R393). -/
def releaseFrames (s : State) : State :=
  let fs := s.ktl.heldFrames
  sendIdles (fs.foldl (fun s e =>
    if mustHold s e.frame then { s with ktl := { s.ktl with heldFrames := s.ktl.heldFrames ++ [e] } }
    else carryFrame s e.port e.frame) { s with ktl := { s.ktl with heldFrames := [] } })

/-! ### Rows of received frames -/

/-- KTL_IDLE (R284): its ack. -/
def execKtlIdle (port : BitVec 2) (frame : List Granule) (s : State) : Host.Outcome State Fault Refusal :=
  onKind .idle port.toNat frame s (fun s => linkTakeOwn s port.toNat frame false)

/-- DATA_WIN (R301). -/
def execDataWin (port : BitVec 2) (frame : List Granule) (s : State) : Host.Outcome State Fault Refusal :=
  onKind .dataWin port.toNat frame s (fun s => deliverFrame s port.toNat frame)

/-- DATA_RING (R300). -/
def execDataRing (port : BitVec 2) (frame : List Granule) (s : State) : Host.Outcome State Fault Refusal :=
  onKind .dataRing port.toNat frame s (fun s => deliverFrame s port.toNat frame)

/-- CREDIT (R298). -/
def execKtlCredit (port : BitVec 2) (frame : List Granule) (s : State) : Host.Outcome State Fault Refusal :=
  onKind .credit port.toNat frame s (fun s => deliverFrame s port.toNat frame)

/-- DONE (R300). -/
def execDone (port : BitVec 2) (frame : List Granule) (s : State) : Host.Outcome State Fault Refusal :=
  onKind .done port.toNat frame s (fun s => deliverFrame s port.toNat frame)

/-- REFUSE (R301). -/
def execRefuse (port : BitVec 2) (frame : List Granule) (s : State) : Host.Outcome State Fault Refusal :=
  onKind .refuse port.toNat frame s (fun s => deliverFrame s port.toNat frame)

/-- ECHO (R386). -/
def execEcho (port : BitVec 2) (frame : List Granule) (s : State) : Host.Outcome State Fault Refusal :=
  onKind .echo port.toNat frame s (fun s => deliverFrame s port.toNat frame)

/-- ECHO_REPLY (R386). -/
def execEchoReply (port : BitVec 2) (frame : List Granule) (s : State) : Host.Outcome State Fault Refusal :=
  onKind .echoReply port.toNat frame s (fun s => deliverFrame s port.toNat frame)

/-- CLOCK (R386). -/
def execClock (port : BitVec 2) (frame : List Granule) (s : State) : Host.Outcome State Fault Refusal :=
  onKind .clock port.toNat frame s (fun s => deliverFrame s port.toNat frame)

/-- TOPO (R291). -/
def execTopo (port : BitVec 2) (frame : List Granule) (s : State) : Host.Outcome State Fault Refusal :=
  onKind .topo port.toNat frame s (fun s => deliverFrame s port.toNat frame)

/-- A replay from a seq (R286): the frames from there are sent again, counted and recorded. A frame that has failed eight replays
is not sent again: REPLAY_LIMIT follows. -/
def replayFrom (s : State) (k seq : Nat) : State :=
  let p := portAt s k
  let fs := p.replayBuf.dropWhile (fun f => headSeq (frameTop f) ≠ seq)
  if fs.isEmpty then s
  else
    let n := tget 0 p.failedReplays seq + 1
    let s := setPort s k { p with failedReplays := tset 0 p.failedReplays seq n }
    if n > 8 then s
    else
      let s := bumpKtl s k 0x40 fs.length
      let s := setPort s k { portAt s k with replays := min ((portAt s k).replays + fs.length) 0xFFFFFFFF }
      let s := report s { cause := 0x07, source := 0xC010 + k, info0 := seq }
      fs.foldl (fun s f => emitFrame s k f) s

/-- KTL_NAK (R286). -/
def execKtlNak (port : BitVec 2) (frame : List Granule) (s : State) : Host.Outcome State Fault Refusal :=
  onKind .nak port.toNat frame s (fun s =>
    replayFrom (linkTakeOwn s port.toNat frame false) port.toNat (headSeq (frameTop frame)))

/-- DETACH (R288): ACTIVE goes OFF; DETACH_ACK follows once the replay buffer has drained. -/
def execDetach (port : BitVec 2) (frame : List Granule) (s : State) : Host.Outcome State Fault Refusal :=
  let k := port.toNat
  onKind .detach k frame s (fun s =>
    let s := linkTakeOwn s k frame true
    if (portAt s k).state = 4 then
      let s := moveState s k 0 (some 2)
      let keys := (portAt s k).detaching
      let s := setPort s k { portAt s k with ackDetach := true, detaching := [] }
      bufferDrained (keys.foldl (fun s key => finishCmd s key {}) s) k
    else s)

/-- DETACH_ACK (R288): a draining port goes OFF. -/
def execDetachAck (port : BitVec 2) (frame : List Granule) (s : State) : Host.Outcome State Fault Refusal :=
  let k := port.toNat
  onKind .detachAck k frame s (fun s =>
    let s := linkTakeOwn s k frame true
    if (portAt s k).state = 6 then goOff s k none else s)

/-- Whether a peer's IDENT agrees (R290). -/
def identAgrees (s : State) (k : Nat) (w : Word128) : Bool :=
  let p := portAt s k
  let pkg := (w.extractLsb' 4 4).toNat
  let port := (w.extractLsb' 0 4).toNat
  (w.extractLsb' 16 2).toNat == topoMode s && (w.extractLsb' 11 5).toNat == topoSize s &&
    (w.extractLsb' 32 32).toNat == identMember && neighbourOf (topoMode s) (topoSize s) (ownPkg s) k == some pkg &&
    port == oppositePort k && (p.expectPkg == 0xFF || p.expectPkg == pkg) && (p.expectPort == 0xFF || p.expectPort == port)

/-- What the last IDENT of a peer leaves in the port's record (R295, R303); the measured round trip is a free value (log 5). -/
def noteIdent (s : State) (k : Nat) (w : Word128) : State :=
  let (r, s) := freshWord s
  setPort s k { portAt s k with
    lastIdent := w
    peerPort := (w.extractLsb' 0 4).toNat
    peerPkg := (w.extractLsb' 4 4).toNat
    peerMode := (w.extractLsb' 16 2).toNat + 4 * (w.extractLsb' 11 5).toNat
    rttNs := r.toNat % 2 ^ 32 }

/-- A port of RETRAIN returns to ACTIVE (R288): everything after the last acked frame is sent again, then what waited for the link; a
LINK_DETACH that waits then drains it. -/
def backToActive (s : State) (k : Nat) : State :=
  let s := enterState s k 4 none
  let p := portAt s k
  let s := if p.replayBuf.isEmpty then s
    else
      let s := bumpKtl s k 0x40 p.replayBuf.length
      let s := setPort s k { portAt s k with replays := min ((portAt s k).replays + p.replayBuf.length) 0xFFFFFFFF }
      p.replayBuf.foldl (fun s f => emitFrame s k f) s
  let s := sendWaiting (topoChanged s) k
  if (portAt s k).detaching.isEmpty then s else startDrain s k

/-- IDENT (R288, R290). In IDENT the peer's seq is where this direction starts. -/
def execIdent (port : BitVec 2) (frame : List Granule) (s : State) : Host.Outcome State Fault Refusal :=
  let k := port.toNat
  onKind .ident k frame s (fun s =>
    let w := (frameWord frame 1).1
    let st := (portAt s k).state
    let s := noteIdent (linkTakeOwn s k frame (st == 4 || st == 6)) k w
    if st = 3 then
      let s := setPort s k { portAt s k with rxSeq := (headSeq (frameTop frame) + 1) % 4096 }
      if identAgrees s k w then moveState s k 4 none else linkRecord (moveState s k 7 none) k 0x10
    else if st = 5 ∧ identAgrees s k w then backToActive s k
    else s)

/-- KTL_RESERVED_FRAME (R286, R386): a frame that cannot be taken is discarded and LINK NAK sent; a CTRL message of another type is
taken and discarded. -/
def execKtlReservedFrame (port : BitVec 2) (frame : List Granule) (s : State) : Host.Outcome State Fault Refusal :=
  let k := port.toNat
  match frameKind s k frame with
  | .discard => .next (sendNak (noteCorrections s k frame) k)
  | .otherCtrl => .next (sendIdles (linkTakeOwn s k frame true))
  | .unheard => .next (noteCorrections s k frame)
  | _ => .next s

/-- The fixed part of the addresses of a transfer's frames, and the part that rises from frame to frame (R284). -/
def transferStem (h : FrameHead) : Nat := if h.type = 1 then h.addr / 2 ^ 27 else h.addr / 2 ^ 32
def transferPlace (h : FrameHead) : Nat := if h.type = 1 then h.addr % 2 ^ 27 else h.addr % 2 ^ 32

/-- Whether a DATA frame goes on with a transfer that has a route: the same type, destination and fixed address part, its place above the
last (R291; log 18). -/
def continues (r : KtlRoute) (h : FrameHead) : Bool :=
  r.src == h.src && r.xfer == h.xfer && r.type == h.type && r.dst == h.dst && r.stem == transferStem h &&
    decide (r.last < transferPlace h)

/-- The port a forwarded frame leaves by (R291): a DATA frame by the route that its transfer took at its first frame, none once that port is
out of use; every other frame by the present route. -/
def forwardPort (s : State) (h : FrameHead) : Option Nat × State :=
  if h.type ≠ 1 ∧ h.type ≠ 2 then (routePort s h.dst h.xfer (h.type ≠ 6 ∧ h.type ≠ 9), s)
  else
    let others := s.ktl.routes.filter (fun r => !(r.src == h.src && r.xfer == h.xfer))
    let keep (k : Nat) : State := { s with ktl := { s.ktl with routes := others ++
      [⟨h.src, h.xfer, h.type, h.dst, transferStem h, transferPlace h, k⟩] } }
    match s.ktl.routes.find? (fun r => continues r h) with
    | some r =>
      let p := portAt s r.port
      (if p.routed ∨ p.state = 6 then some r.port else none, keep r.port)
    | none =>
      match routePort s h.dst h.xfer true with
      | some k => (some k, keep k)
      | none => (none, s)

/-- KTL_FORWARD (R284, R292): on by its route, one hop further; a frame that would leave with hops 15 is discarded and counted. -/
def execKtlForward (port : BitVec 2) (frame : List Granule) (s : State) : Host.Outcome State Fault Refusal :=
  let k := port.toNat
  onKind .forward k frame s (fun s =>
    let s := linkTake s k frame true
    let h := frameHead frame
    match forwardPort s h with
    | (none, s) => s
    | (some out, s) =>
      if h.hops + 1 ≥ 15 then bumpKtl s out 0x70 1
      else
        let ws := (List.range 32).map (fun i => frameWord frame (i + 1))
        enqueue s out [⟨buildFrame { h with hops := h.hops + 1 } 0 0 ws, some (k, headSeq (frameTop frame)), none⟩])

/-! ### Rows of the lane layer and of timers (R288, R302) -/

/-- Whether a number of ticks has passed since a port's state was entered. -/
def since (s : State) (k ticks : Nat) : Bool := decide (s.now ≥ (portAt s k).changedAt + ticks)

/-- How many of 16 lanes are set. -/
def laneCount (l : BitVec 16) : Nat := ((List.range 16).filter (fun i => l.getLsbD i)).length

/-- SIGNAL_DETECT (R288). -/
def execSignalDetect (port : BitVec 2) (lanes : BitVec 16) (s : State) : Host.Outcome State Fault Refusal :=
  .next (if (portAt s port.toNat).state = 1 ∧ laneCount lanes ≥ 8 then moveState s port.toNat 2 none else s)

/-- The width the locked lanes give: 16, or 8 where that is allowed (R281, R288). -/
def lockWidth (p : KtlPort) (lanes : BitVec 16) : Nat :=
  if lanes = 0xFFFF then 16
  else if p.width8 ∧ (lanes &&& 0xFF = 0xFF ∨ lanes &&& 0xFF00 = 0xFF00) then 8
  else 0

/-- LANE_LOCK (R282, R288): TRAIN to IDENT, where IDENT frames start; in RETRAIN the lock alone is noted. -/
def execLaneLock (port : BitVec 2) (lanes inverted : BitVec 16) (reversed : Bool) (s : State) :
    Host.Outcome State Fault Refusal :=
  let k := port.toNat
  let p := portAt s k
  let w := lockWidth p lanes
  let locked (s : State) : State :=
    setPort s k { portAt s k with width := w, lanesLocked := lanes, lanesInverted := inverted, reversed := reversed }
  .next (
    if w = 0 then s
    else if p.state = 2 then sendIdent (locked (clearLink (moveState s k 3 none) k)) k
    else if p.state = 5 then sendIdent (locked s) k
    else s)

/-- IDENT_RESEND (R288): every 1 µs. -/
def execIdentResend (port : BitVec 2) (s : State) : Host.Outcome State Fault Refusal :=
  let k := port.toNat
  let p := portAt s k
  .next (if (p.state = 3 ∨ (p.state = 5 ∧ p.lanesLocked ≠ 0)) ∧ s.now ≥ p.identSentAt + ticksCeil 1000 then sendIdent s k else s)

/-- TRAIN_TIMEOUT (R288): 50 ms; the third consecutive failure is FAILED. -/
def execTrainTimeout (port : BitVec 2) (s : State) : Host.Outcome State Fault Refusal :=
  let k := port.toNat
  let p := portAt s k
  .next (
    if p.state = 2 ∧ since s k (ticksCeil 50000000) then
      let s := setPort s k { p with trainFails := min (p.trainFails + 1) 255 }
      if p.trainFails + 1 ≥ 3 then linkRecord (moveState s k 8 none) k 0x11 else moveState s k 1 none
    else s)

/-- IDENT_TIMEOUT (R288): 100 µs. -/
def execIdentTimeout (port : BitVec 2) (s : State) : Host.Outcome State Fault Refusal :=
  let k := port.toNat
  let p := portAt s k
  .next (
    if p.state = 3 ∧ since s k (ticksCeil 100000) then
      goDetect (setPort s k { p with trainFails := min (p.trainFails + 1) 255 }) k none
    else s)

/-- LOCK_LOST (R288). -/
def execLockLost (port : BitVec 2) (s : State) : Host.Outcome State Fault Refusal :=
  .next (if (portAt s port.toNat).state = 4 then moveState s port.toNat 5 (some 3) else s)

/-- Whether some frame of a port has failed eight replays (R286). -/
def replayFailed (p : KtlPort) : Bool := p.failedReplays.any (fun e => decide (e.2 > 8))

/-- REPLAY_LIMIT (R286, R288). -/
def execReplayLimit (port : BitVec 2) (s : State) : Host.Outcome State Fault Refusal :=
  let k := port.toNat
  .next (
    if (portAt s k).state = 4 ∧ replayFailed (portAt s k) then linkRecord (moveState s k 5 (some 4)) k 4 else s)

/-- RETRAIN_TIMEOUT (R288): 5 ms, the link is lost. -/
def execRetrainTimeout (port : BitVec 2) (s : State) : Host.Outcome State Fault Refusal :=
  let k := port.toNat
  .next (
    if (portAt s k).state = 5 ∧ since s k (ticksCeil 5000000) then
      linkRecord (abortUnreachable (goDetect s k (some 5))) k 5
    else s)

/-- DRAIN_TIMEOUT (R288): 1 ms. -/
def execDrainTimeout (port : BitVec 2) (s : State) : Host.Outcome State Fault Refusal :=
  let k := port.toNat
  .next (if (portAt s k).state = 6 ∧ since s k (ticksCeil 1000000) then goOff s k none else s)

/-- RETRAIN_HOLD_EXPIRY (R302): the port leaves routing, its unacknowledged frames are lost, TOPO is sent. -/
def execRetrainHoldExpiry (port : BitVec 2) (s : State) : Host.Outcome State Fault Refusal :=
  let k := port.toNat
  let p := portAt s k
  .next (
    if p.state = 5 ∧ p.routed ∧ since s k (retrainHold s k) then
      abortUnreachable (sendTopo (loseFrames (setPort s k { p with routed := false }) k))
    else s)

/-- The port whose counter takes an E2E timeout: that of an unfinished transfer of the command, else the first in routing. -/
def waitPort (s : State) (c : Cmd) : Nat :=
  match s.ktl.transfers.find? (fun t => t.key == c.key && !t.done) with
  | some t => t.port
  | none => ((List.range 4).find? (fun k => (portAt s k).routed)).getD 0

/-- Since when a ring command waits, of its waits the longest (R300). -/
def waitingSince (c : Cmd) : Option Nat :=
  match c.ringWaits with
  | [] => none
  | w :: ws => some (ws.foldl (fun m x => min m x.2) w.2)

/-- E2E_TIMEOUT (R300): a ring command that has waited too long for a credit, a DONE or a block. -/
def execE2eTimeout (slot : BitVec 6) (s : State) : Host.Outcome State Fault Refusal :=
  match cmdOf s slot.toNat with
  | none => .next s
  | some c =>
    match waitingSince c with
    | none => .next s
    | some t =>
      .next (
        if s.now ≥ t + ticksCeil (cmdVal s c 0x700C 0) then
          abortCmd (bumpKtl s (waitPort s c) 0x58 1) c.key 0x21
        else s)

/-! ### Link commands (R293 to R295) -/

/-- KTL_PORT_STAT (R303). -/
def portStat (p : KtlPort) : Nat :=
  p.state + 128 * bit p.changed + 2 ^ 8 * p.width + 2 ^ 24 * p.peerPkg + 2 ^ 28 * p.peerPort + 2 ^ 32 * p.trainFails

/-- A link record (R295). -/
def linkRecordBytes (s : State) (k : Nat) : List Byte :=
  let p := portAt s k
  natBytes 8 (portStat p) ++ natBytes 2 p.lanesLocked.toNat ++ natBytes 2 p.lanesInverted.toNat ++ natBytes 4 (bit p.reversed) ++
    natBytes 8 p.changedAt ++ natBytes 8 s.ktl.linkMap.toNat ++ natBytes 4 p.fecCorr ++ natBytes 4 p.fecUncorr ++
    natBytes 4 p.replays ++ natBytes 1 p.peerMode ++ natBytes 1 p.reason ++ natBytes 2 0 ++ natBytes 4 p.rttNs ++ natBytes 12 0

/-- The ports a mask selects. -/
def maskPorts (p : SlotWord) : List Nat := (List.range 4).filter (fun k => paramBit p 0 k)

/-- LINK_STATUS (R295). -/
def linkStatusDef : OpDef where
  need p := 64 * (maskPorts p).length
  check k := do
    let p := slotAt (← get) k
    reservedParam p 0 4 4
    reservedParam p 1 1 7
    reservedParam p 2 0 48
    reservedFrom p 8
    return []
  body k := do
    let s ← get
    let p := slotAt s k
    let stat := (List.range 4).foldl (fun a i => a + portStat (portAt s i) % 256 * 2 ^ (8 * i)) 0
    let r ← longAct k ((maskPorts p).flatMap (linkRecordBytes s)) { result := BitVec.ofNat 64 stat }
    if paramBit p 1 0 then
      modify (fun s => (maskPorts p).foldl (fun s i => setPort s i { portAt s i with changed := false }) s)
    return r

/-- LINK_ATTACH (R293). -/
def linkAttachDef : OpDef where
  check k := do
    let s ← get
    let p := slotAt s k
    let n := param p 0 8
    checkParam (decide (n < 4)) 0 0 8 1 n 3
    reservedParam p 3 1 7
    reservedParam p 4 0 32
    reservedFrom p 8
    if topoMode s = 0 then rejectAt (configLoc 0x7000 0) 7 1 0 0 0
    else if (portAt s n).state ≠ 0 then throw (.reject busyReject)
    else return []
  body k := do
    let s ← get
    let p := slotAt s k
    let n := param p 0 8
    let source := 0xC010 + n
    let s := { s with ras := { s.ras with
        fenced := s.ras.fenced.filter (fun x => x ≠ source)
        history := tset [] s.ras.history source [] } }
    let s := setPort s n { portAt s n with
      expectPkg := param p 1 8, expectPort := param p 2 8, width8 := paramBit p 3 0, ackDetach := false, trainFails := 0, lost := 0 }
    set (clearLink (moveState s n 1 none) n)
    return { result := 1 }

/-- LINK_DETACH (R294). -/
def linkDetachDef : OpDef where
  check k := do
    let p := slotAt (← get) k
    let n := param p 0 8
    checkParam (decide (n < 4)) 0 0 8 1 n 3
    reservedParam p 1 1 7
    reservedParam p 2 0 48
    reservedFrom p 8
    return []
  body k := do
    let s ← get
    let p := slotAt s k
    let n := param p 0 8
    let force := paramBit p 1 0
    let port := portAt s n
    let lost := port.lost + port.replayBuf.length
    let wait (s : State) : State := setPort s n { portAt s n with detaching := (portAt s n).detaching ++ [k] }
    if port.state = 0 then return {}
    else if force ∧ (port.state = 4 ∨ port.state = 5) then
      set (goOff s n (some 6))
      return { result := BitVec.ofNat 64 lost }
    else if port.state = 4 then
      set (startDrain (wait s) n)
      throw (.park .inProgress)
    else if port.state = 5 then
      set (abortUnreachable (setPort (wait s) n { portAt (wait s) n with routed := false }))
      throw (.park .inProgress)
    else if port.state = 6 then
      set (wait s)
      throw (.park .inProgress)
    else
      set (goOff s n none)
      return { result := BitVec.ofNat 64 lost }

end Sys2Proof.Machine
end

