-- ==== Sys2Proof/Machine/DieRing.lean ====
section
/-! DEFINITION. The die ring: flits, their link-level retry, and routing (spec/01_organisation.md R15 to R17). A link end is
numbered die × 2 + 1 towards the next die and die × 2 towards the previous one. -/
namespace Sys2Proof.Machine

/-- The fields of a flit header (R16). -/
def flitType (h : BitVec 32) : Nat := (h.extractLsb' 28 4).toNat
def flitDst (h : BitVec 32) : Nat := (h.extractLsb' 25 3).toNat
def flitSeq (h : BitVec 32) : Nat := (h.extractLsb' 8 12).toNat

/-- A header with its seq and hcrc set (R16). -/
def sealFlit (h : BitVec 32) (seq : Nat) : BitVec 32 :=
  let h' : BitVec 32 := (h &&& 0xFFF00000) ||| BitVec.ofNat 32 (seq % 4096 * 256)
  h' ||| BitVec.ofNat 32 (headerCrc h')

/-- A flit without granules of a type (R16). The vc of an ACK or NAK header, which no table states, is 3 (DESIGN CHOICE, log 55). -/
def bareFlit (die dst type seq : Nat) : BitVec 32 :=
  sealFlit (BitVec.ofNat 32 (type * 2 ^ 28 + dst * 2 ^ 25 + die * 2 ^ 22 + 3 * 2 ^ 20)) seq

/-- A link end of a die. -/
def ringEnd (die : Nat) (up : Bool) : Nat := die * 2 + bit up

/-- The die at the other side of a link end. -/
def ringPeer (die : Nat) (up : Bool) : Nat := if up then (die + 1) % 8 else (die + 7) % 8

/-- The source of a link's records: the link from die `d` to the next (R411). -/
def ringSource (die : Nat) (up : Bool) : Nat := 0xC070 + (if up then die else (die + 7) % 8)

/-- A link end's state. -/
def ringAt (s : State) (e : Nat) : RingLink := tget RingLink.reset s.ring.links e

/-- A link end's state changed. -/
def setRing (s : State) (e : Nat) (l : RingLink) : State :=
  { s with ring := { s.ring with links := tset RingLink.reset s.ring.links e l } }

/-- A flit on its way. -/
def emitFlit (s : State) (e : Nat) (h : BitVec 32) (gs : List Granule) : State :=
  { s with ring := { s.ring with sent := s.ring.sent ++ [(e, h, gs)] } }

/-- The granules of a flit with none in use, as ACK and NAK flits carry them: zero words with their check bits (DESIGN CHOICE, log 55). -/
def noGranules : List Granule := List.replicate 14 (encodeGranule 0 false)

/-- A sequenced flit sent from a link end: kept for replay. -/
def sendFlit (s : State) (e : Nat) (h : BitVec 32) (gs : List Granule) : State :=
  let l := ringAt s e
  let h' := sealFlit h l.txSeq
  emitFlit (setRing s e { l with txSeq := (l.txSeq + 1) % 4096, replayBuf := l.replayBuf ++ [(h', gs)] }) e h' gs

/-- Whether a way round the ring is whole: the next `n` links from a die. -/
def ringWhole (s : State) (die : Nat) (up : Bool) (n : Nat) : Bool :=
  (List.range n).all (fun i => !(ringAt s (ringEnd (if up then (die + i) % 8 else (die + 8 - i) % 8) up)).down)

/-- The way a flit takes (R15, R17): the shorter, increasing for four hops; the other when that way has a link out of service. None when
neither way is whole. -/
def ringWay (s : State) (die dst : Nat) : Option Bool :=
  let n := (dst + 8 - die) % 8
  let first := decide (n ≤ 4)
  let len (up : Bool) : Nat := if up then n else 8 - n
  if ringWhole s die first (len first) then some first
  else if ringWhole s die (!first) (len (!first)) then some (!first)
  else none

/-- A flit passed on from a die towards its destination. -/
def routeFlit (s : State) (die : Nat) (h : BitVec 32) (gs : List Granule) : State :=
  match ringWay s die (flitDst h) with
  | some up => sendFlit s (ringEnd die up) h gs
  | none => s

/-- Acknowledged flits leave the replay buffer of a link end; one that a replay has delivered is recorded (R17). -/
def ringAcked (s : State) (die : Nat) (up : Bool) (covers : Nat → Bool) : State :=
  let e := ringEnd die up
  let l := ringAt s e
  let rest := l.replayBuf.dropWhile (fun f => covers (flitSeq f.1))
  if rest.length = l.replayBuf.length then s
  else
    let s := setRing s e { l with replayBuf := rest, frontReplays := 0 }
    match l.replayBuf with
    | f :: _ => if l.frontReplays > 0 then report s { cause := 0x05, source := ringSource die up, info0 := flitSeq f.1 } else s
    | [] => s

/-- What a received flit is (R16, R17). -/
inductive FlitKind where
  | notHere
  | discard
  | outOfOrder
  | of (type : Nat)
  deriving DecidableEq, Repr

/-- The kind of a received flit: a link out of service or without power receives nothing; REQ, DATA, WRITE and CREDIT must be the next in
order. That a CREDIT flit takes a seq of its link and is acknowledged like those is the model's choice (DESIGN CHOICE, log 55). -/
def flitKind (s : State) (die : Nat) (up : Bool) (h : BitVec 32) (gs : List Granule) : FlitKind :=
  let l := ringAt s (ringEnd die up)
  let t := flitType h
  if gs.length ≠ 14 ∨ l.down ∨ !dieCommonOn s then .notHere
  else if headerCrc h ≠ h.toNat % 256 ∨ t ≥ 7 ∨ gs.any granuleBroken then .discard
  else if t ∈ [1, 2, 3, 6] ∧ flitSeq h ≠ l.rxSeq then .outOfOrder
  else .of t

/-- A sequenced flit accepted: the next in order is expected, and ACK names it (R16). -/
def acceptFlit (s : State) (die : Nat) (up : Bool) (h : BitVec 32) (gs : List Granule) : State :=
  let e := ringEnd die up
  let os := (gs.map decodeOutcome).filter (fun o => o ≠ .clean && o ≠ .poison)
  let s := os.foldl (fun s o => codeRecord s { die := die } (ringSource die up) 8 0 o false) s
  let l := ringAt s e
  let s := setRing s e { l with rxSeq := (l.rxSeq + 1) % 4096, nakSent := false }
  emitFlit s e (bareFlit die (ringPeer die up) 4 (flitSeq h)) noGranules

/-- A flit's granules with symbol errors corrected. -/
def cleanGranules (gs : List Granule) : List Granule := gs.map (fun g => let w := deliverGranule g; encodeGranule w.1 w.2)

/-- A REQ, DATA or WRITE flit: delivered to its die or passed on. -/
def carryFlit (s : State) (die : Nat) (up : Bool) (h : BitVec 32) (gs : List Granule) : State :=
  let s := acceptFlit s die up h gs
  if flitDst h = die then { s with ring := { s.ring with inbox := s.ring.inbox ++ [(die, h, cleanGranules gs)] } }
  else routeFlit s die h (cleanGranules gs)

/-- A row of a received flit of a type. -/
def onFlit (type : Nat) (die : BitVec 3) (up : Bool) (h : BitVec 32) (gs : List Granule) (s : State)
    (act : State → State) : Host.Outcome State Fault Refusal :=
  .next (if flitKind s die.toNat up h gs = .of type then act s else s)

/-- RING_REQ (R16). -/
def execRingReq (die : BitVec 3) (up : Bool) (hdr : BitVec 32) (granules : List Granule) (s : State) :
    Host.Outcome State Fault Refusal :=
  onFlit 1 die up hdr granules s (fun s => carryFlit s die.toNat up hdr granules)

/-- RING_DATA (R16). -/
def execRingData (die : BitVec 3) (up : Bool) (hdr : BitVec 32) (granules : List Granule) (s : State) :
    Host.Outcome State Fault Refusal :=
  onFlit 2 die up hdr granules s (fun s => carryFlit s die.toNat up hdr granules)

/-- RING_WRITE (R16). -/
def execRingWrite (die : BitVec 3) (up : Bool) (hdr : BitVec 32) (granules : List Granule) (s : State) :
    Host.Outcome State Fault Refusal :=
  onFlit 3 die up hdr granules s (fun s => carryFlit s die.toNat up hdr granules)

/-- RING_ACK (R16): the flits up to its seq are acknowledged. -/
def execRingAck (die : BitVec 3) (up : Bool) (hdr : BitVec 32) (granules : List Granule) (s : State) :
    Host.Outcome State Fault Refusal :=
  onFlit 4 die up hdr granules s (fun s =>
    ringAcked s die.toNat up (fun q => decide ((flitSeq hdr + 4096 - q) % 4096 < 2048)))

/-- RING_NAK (R17): the flits before its seq are acknowledged, those from it sent again; one that has failed eight replays is not. -/
def execRingNak (die : BitVec 3) (up : Bool) (hdr : BitVec 32) (granules : List Granule) (s : State) :
    Host.Outcome State Fault Refusal :=
  onFlit 5 die up hdr granules s (fun s =>
    let e := ringEnd die.toNat up
    let s := ringAcked s die.toNat up (fun q => decide ((q + 4096 - flitSeq hdr) % 4096 ≥ 2048))
    let l := ringAt s e
    if (l.replayBuf.head?.map (fun f => flitSeq f.1)) ≠ some (flitSeq hdr) then s
    else
      let s := setRing s e { l with frontReplays := l.frontReplays + 1 }
      if l.frontReplays ≥ 8 then s else l.replayBuf.foldl (fun s f => emitFlit s e f.1 f.2) s)

/-- RING_CREDIT (R16): its granule 0 is kept. The model acknowledges it, and sends no CREDIT flit of its own, since R16 gives no event that
sends one (DESIGN CHOICE, log 55). -/
def execRingCredit (die : BitVec 3) (up : Bool) (hdr : BitVec 32) (granules : List Granule) (s : State) :
    Host.Outcome State Fault Refusal :=
  onFlit 6 die up hdr granules s (fun s =>
    let e := ringEnd die.toNat up
    let s := acceptFlit s die.toNat up hdr granules
    setRing s e { ringAt s e with credits := (deliverGranule (granules.getD 0 0)).1 })

/-- RING_IDLE (R16): no effect. -/
def execRingIdle (die : BitVec 3) (up : Bool) (hdr : BitVec 32) (granules : List Granule) (s : State) :
    Host.Outcome State Fault Refusal :=
  onFlit 0 die up hdr granules s (fun s => s)

/-- RING_RESERVED_FLIT (R17): discarded, and NAK names the flit to replay. A flit out of order is discarded while its replay is
under way, and asks for one otherwise. -/
def execRingReservedFlit (die : BitVec 3) (up : Bool) (hdr : BitVec 32) (granules : List Granule) (s : State) :
    Host.Outcome State Fault Refusal :=
  let d := die.toNat
  let e := ringEnd d up
  let nak (s : State) : State :=
    emitFlit (setRing s e { ringAt s e with nakSent := true }) e
      (bareFlit d (ringPeer d up) 5 (ringAt s e).rxSeq) noGranules
  match flitKind s d up hdr granules with
  | .discard => .next (nak s)
  | .outOfOrder => .next (if (ringAt s e).nakSent then s else nak s)
  | _ => .next s

/-- A link out of service, both its ends: what waits on it goes the other way round (R17). CREDIT flits of the link's own flow control go with
it; a flit that the far end has accepted and not yet acknowledged is sent again and may arrive twice (DESIGN CHOICE, log 55). -/
def takeLinkDown (s : State) (d : Nat) (up : Bool) : State :=
  let e := ringEnd d up
  let e' := ringEnd (ringPeer d up) (!up)
  let l := ringAt s e
  let other := ringAt s e'
  let s := setRing s e { l with down := true, replayBuf := [], frontReplays := 0 }
  let s := setRing s e' { other with down := true, replayBuf := [], frontReplays := 0 }
  let s := (l.replayBuf.filter (fun f => flitType f.1 ≠ 6)).foldl (fun s f => routeFlit s d f.1 f.2) s
  (other.replayBuf.filter (fun f => flitType f.1 ≠ 6)).foldl (fun s f => routeFlit s (ringPeer d up) f.1 f.2) s

/-- Every fenced link that is still in service goes out of it (R17, R414). -/
def downFenced (s : State) : State :=
  (List.range 8).foldl (fun s d =>
    if isFenced s (0xC070 + d) && !(ringAt s (ringEnd d true)).down then takeLinkDown s d true else s) s

/-- RING_LINK_DOWN (R17): a flit that has failed eight replays takes its link out of service. -/
def execRingLinkDown (die : BitVec 3) (up : Bool) (s : State) : Host.Outcome State Fault Refusal :=
  let d := die.toNat
  let l := ringAt s (ringEnd d up)
  match l.replayBuf with
  | [] => .next s
  | f :: _ =>
    .next (
      if l.frontReplays ≤ 8 ∨ l.down then s
      else takeLinkDown (report s { cause := 0x06, source := ringSource d up, info0 := flitSeq f.1 }) d up)

end Sys2Proof.Machine
end

