-- ==== Sys2Proof/Machine/Crypto.lean ====
section
/-! DEFINITION. The checks of a firmware image that the security core computes: SHA-384 and ECDSA P-384 (spec/14_firmware.md
R361, R362). -/
namespace Sys2Proof.Machine

/-- The round constants of SHA-384. -/
def shaK : List (BitVec 64) :=
  ([0x428A2F98D728AE22, 0x7137449123EF65CD, 0xB5C0FBCFEC4D3B2F, 0xE9B5DBA58189DBBC, 0x3956C25BF348B538,
   0x59F111F1B605D019, 0x923F82A4AF194F9B, 0xAB1C5ED5DA6D8118, 0xD807AA98A3030242, 0x12835B0145706FBE,
   0x243185BE4EE4B28C, 0x550C7DC3D5FFB4E2, 0x72BE5D74F27B896F, 0x80DEB1FE3B1696B1, 0x9BDC06A725C71235,
   0xC19BF174CF692694, 0xE49B69C19EF14AD2, 0xEFBE4786384F25E3, 0x0FC19DC68B8CD5B5, 0x240CA1CC77AC9C65] ++
  [0x2DE92C6F592B0275, 0x4A7484AA6EA6E483, 0x5CB0A9DCBD41FBD4, 0x76F988DA831153B5, 0x983E5152EE66DFAB,
   0xA831C66D2DB43210, 0xB00327C898FB213F, 0xBF597FC7BEEF0EE4, 0xC6E00BF33DA88FC2, 0xD5A79147930AA725,
   0x06CA6351E003826F, 0x142929670A0E6E70, 0x27B70A8546D22FFC, 0x2E1B21385C26C926, 0x4D2C6DFC5AC42AED,
   0x53380D139D95B3DF, 0x650A73548BAF63DE, 0x766A0ABB3C77B2A8, 0x81C2C92E47EDAEE6, 0x92722C851482353B] ++
  [0xA2BFE8A14CF10364, 0xA81A664BBC423001, 0xC24B8B70D0F89791, 0xC76C51A30654BE30, 0xD192E819D6EF5218,
   0xD69906245565A910, 0xF40E35855771202A, 0x106AA07032BBD1B8, 0x19A4C116B8D2D0C8, 0x1E376C085141AB53,
   0x2748774CDF8EEB99, 0x34B0BCB5E19B48A8, 0x391C0CB3C5C95A63, 0x4ED8AA4AE3418ACB, 0x5B9CCA4F7763E373,
   0x682E6FF3D6B2B8A3, 0x748F82EE5DEFB2FC, 0x78A5636F43172F60, 0x84C87814A1F0AB72, 0x8CC702081A6439EC] ++
  [0x90BEFFFA23631E28, 0xA4506CEBDE82BDE9, 0xBEF9A3F7B2C67915, 0xC67178F2E372532B, 0xCA273ECEEA26619C,
   0xD186B8C721C0C207, 0xEADA7DD6CDE0EB1E, 0xF57D4F7FEE6ED178, 0x06F067AA72176FBA, 0x0A637DC5A2C898A6,
   0x113F9804BEF90DAE, 0x1B710B35131C471B, 0x28DB77F523047D84, 0x32CAAB7B40C72493, 0x3C9EBE0A15C9BEBC,
   0x431D67C49C100D4C, 0x4CC5D4BECB3E42B6, 0x597F299CFC657E2A, 0x5FCB6FAB3AD6FAEC, 0x6C44198C4A475817]).map (BitVec.ofNat 64)

/-- The eight words a SHA-384 digest starts from. -/
def shaInit : List (BitVec 64) :=
  ([0xCBBB9D5DC1059ED8, 0x629A292A367CD507, 0x9159015A3070DD17, 0x152FECD8F70E5939, 0x67332667FFC00B31,
   0x8EB44A8768581511, 0xDB0C2E0D64F98FA7, 0x47B5481DBEFA4FA4]).map (BitVec.ofNat 64)

/-- A number of big-endian bytes. -/
def beNat (bs : List Byte) : Nat := bs.foldl (fun a b => a * 256 + b.toNat) 0

/-- A number as `n` big-endian bytes. -/
def beBytes (n v : Nat) : List Byte := (natBytes n v).reverse

/-- A message padded to blocks of 128 bytes. -/
def shaPad (m : List Byte) : List Byte :=
  m ++ [0x80#8] ++ List.replicate ((239 - m.length % 128) % 128) 0 ++ beBytes 16 (8 * m.length)

/-- Rotations and shifts of the message schedule. -/
def shaSmall (a b c : Nat) (x : BitVec 64) : BitVec 64 := x.rotateRight a ^^^ x.rotateRight b ^^^ (x >>> c)

/-- Rotations of the compression. -/
def shaBig (a b c : Nat) (x : BitVec 64) : BitVec 64 := x.rotateRight a ^^^ x.rotateRight b ^^^ x.rotateRight c

/-- The 80 words of a block's schedule, latest first while it grows. -/
def shaSchedule (block : List Byte) : List (BitVec 64) :=
  let w0 := (List.range 16).map (fun i => BitVec.ofNat 64 (beNat ((block.drop (8 * i)).take 8)))
  let grow (ws : List (BitVec 64)) (_ : Nat) : List (BitVec 64) :=
    (shaSmall 19 61 6 (ws.getD 1 0) + ws.getD 6 0 + shaSmall 1 8 7 (ws.getD 14 0) + ws.getD 15 0) :: ws
  ((List.range 64).foldl grow w0.reverse).reverse

/-- One round of the compression on the eight working words. -/
def shaRound (v : List (BitVec 64)) (kw : BitVec 64 × BitVec 64) : List (BitVec 64) :=
  match v with
  | [a, b, c, d, e, f, g, h] =>
    let t1 := h + shaBig 14 18 41 e + ((e &&& f) ^^^ (~~~e &&& g)) + kw.1 + kw.2
    let t2 := shaBig 28 34 39 a + ((a &&& b) ^^^ (a &&& c) ^^^ (b &&& c))
    [t1 + t2, a, b, c, d + t1, e, f, g]
  | v => v

/-- One block taken into the digest. -/
def shaBlock (h : List (BitVec 64)) (block : List Byte) : List (BitVec 64) :=
  let v := (shaK.zip (shaSchedule block)).foldl shaRound h
  (h.zip v).map (fun e => e.1 + e.2)

/-- SHA-384 as a number, most significant byte first. -/
def sha384 (m : List Byte) : Nat :=
  let p := shaPad m
  let h := (chunksOf 128 (p.length / 128) p).foldl shaBlock shaInit
  (h.take 6).foldl (fun a x => a * 2 ^ 64 + x.toNat) 0

/-- The field, the order and the base point of P-384. -/
def p384 : Nat := 2 ^ 384 - 2 ^ 128 - 2 ^ 96 + 2 ^ 32 - 1
def n384 : Nat := 0xFFFFFFFFFFFFFFFFFFFFFFFFFFFFFFFFFFFFFFFFFFFFFFFFC7634D81F4372DDF581A0DB248B0A77AECEC196ACCC52973
def b384 : Nat := 0xB3312FA7E23EE7E4988E056BE3F82D19181D9C6EFE8141120314088F5013875AC656398D8A2ED19D2A85C8EDD3EC2AEF
def gx384 : Nat := 0xAA87CA22BE8B05378EB1C71EF320AD746E1D3B628BA79B9859F741E082542A385502F25DBF55296C3A545E3872760AB7
def gy384 : Nat := 0x3617DE4A96262C6F5D9E98BF9292DC29F8F41DBD289A147CE9DA3113B5F0B8C00A60B1CE1D7E819D7A431D7C90EA0E5F

/-- `a ^ e mod m` over the lowest `k` bits of `e`. -/
def powMod (m : Nat) : Nat → Nat → Nat → Nat → Nat
  | 0, _, _, acc => acc
  | k + 1, a, e, acc => powMod m k (a * a % m) (e / 2) (if e % 2 = 1 then acc * a % m else acc)

/-- The inverse modulo a prime. -/
def invMod (m a : Nat) : Nat := powMod m 384 (a % m) (m - 2) 1

/-- Differences modulo the field prime. -/
def subP (a b : Nat) : Nat := (a + (p384 - b % p384)) % p384

/-- A point of the curve, none at infinity. -/
abbrev Point := Option (Nat × Nat)

/-- Addition of points of P-384. -/
def pointAdd (x y : Point) : Point :=
  match x, y with
  | none, y => y
  | x, none => x
  | some (x1, y1), some (x2, y2) =>
    if x1 = x2 ∧ (y1 + y2) % p384 = 0 then none
    else
      let l := if x1 = x2 then subP (3 * x1 * x1) 3 * invMod p384 (2 * y1) % p384
        else subP y2 y1 * invMod p384 (subP x2 x1) % p384
      let x3 := subP (subP (l * l) x1) x2
      some (x3, subP (l * subP x1 x3) y1)

/-- Multiplication of a point by the lowest `k` bits of a number. -/
def pointMul : Nat → Nat → Point → Point → Point
  | 0, _, _, acc => acc
  | k + 1, e, q, acc => pointMul k (e / 2) (pointAdd q q) (if e % 2 = 1 then pointAdd acc q else acc)

/-- Whether a point lies on P-384. -/
def onCurve (x y : Nat) : Bool :=
  decide (x < p384 ∧ y < p384) && decide (y * y % p384 = (subP (x * x * x) (3 * x) + b384) % p384)

/-- ECDSA P-384: whether (r, s) signs a digest under a public key (R361, R362). -/
def ecdsaValid (qx qy digest r s : Nat) : Bool :=
  if r = 0 ∨ s = 0 ∨ r ≥ n384 ∨ s ≥ n384 ∨ onCurve qx qy = false then false
  else
    let w := invMod n384 s
    let u1 := digest * w % n384
    let u2 := r * w % n384
    match pointAdd (pointMul 384 u1 (some (gx384, gy384)) none) (pointMul 384 u2 (some (qx, qy)) none) with
    | none => false
    | some (x, _) => x % n384 == r

end Sys2Proof.Machine
end

