-- ==== Sys2Proof/Machine/Power.lean ====
section
/-! DEFINITION. Deadline estimates and power management: states and their entries, wakes, hints, envelopes, the thermal limiter and
adaptation (spec/15_power_and_clocks.md R387 to R404, spec/13_scheduling.md R342). -/
namespace Sys2Proof.Machine

/-! ### Clusters -/

/-- A cluster's power state changed. -/
def setCluster (s : State) (g : Nat) (c : ClusterPower) : State :=
  { s with pwr := { s.pwr with clusters := tset ClusterPower.reset s.pwr.clusters g c } }

/-- The clock step a cluster runs at: what firmware has set, held down by the limiter's cap (R401). -/
def clockStep (c : ClusterPower) : Nat := max c.step c.cap

/-- The queues of a cluster's cores. -/
def clusterQueues (s : State) (g : Nat) : List Queue := (s.str.queues.filter (fun e => decide (e.1 / 64 = g))).map (·.2)

/-- Whether a cluster is held by a command, or a standalone stream on it is RUNNING or FAULTED (R390). -/
def clusterHeld (s : State) (g : Nat) : Bool :=
  !(holders s g).isEmpty || (clusterQueues s g).any (fun q => q.state == .running || q.state == .faulted)

/-- A queue with a tile, a transfer or an instruction to run. -/
def queueActive (q : Queue) : Bool :=
  q.state == .running && (q.unitDone || (!q.issued.isEmpty && q.tagWait.isNone) || (match q.wait with
    | .none => true
    | .basket => true
    | .program => true
    | _ => false))

/-- Whether none of a cluster's cores has anything to run (R390). -/
def clusterIdleNow (s : State) (g : Nat) : Bool :=
  s.cmds.all (fun c => c.holds.all (fun h => h.cluster ≠ g || (h.recState ≠ 1 && (h.unit.isNone || h.faulted)))) &&
    !(clusterQueues s g).any queueActive

/-- The output of a clock domain in kHz, 0 where the clock is off, by the domains of R388 in their order: the clusters, then per die the
fabric and the memory-side units, then the always-on clock, the island and the host port. -/
def clockKHz (s : State) (n : Nat) : Nat :=
  if n < 32 then
    let c := clusterPower s n
    if !c.powered ∨ c.k ≠ 0 ∨ c.stopped ∨ s.pwr.device ≥ 4 then 0 else [1250000, 1000000, 800000].getD (clockStep c) 600000
  else if n < 40 then (if s.pwr.device = 5 then 0 else if s.pwr.device = 4 then 500000 else 2000000)
  else if n < 48 then (if s.pwr.device = 5 then 0 else 1000000)
  else [38400, 400000, 1000000].getD (n - 48) 0

/-- Whether the logic of a power domain is on, by the domains of R387 in their order: the clusters, the die-common domains, the island,
the kettle links. -/
def domainOn (s : State) (n : Nat) : Bool :=
  if n < 32 then (clusterPower s n).powered && decide ((clusterPower s n).k < 3 ∧ s.pwr.device < 4)
  else if n < 40 then dieCommonOn s
  else if n = 40 then true
  else (List.range 4).any (fun k => (tget KtlPort.reset s.ktl.ports k).state ≠ 0)

/-- CLUSTER_IDLE: K0 to K1, while the power-management core is not down (R371, R373, R390, R393). -/
def execClusterIdle (cluster : BitVec 5) (s : State) : Host.Outcome State Fault Refusal :=
  let g := cluster.toNat
  let c := clusterPower s g
  let held := !procRunning s 1 && (procOf s 1).state ≠ .fenced
  .next (if c.powered ∧ c.k = 0 ∧ s.pwr.device = 0 ∧ !held ∧ clusterIdleNow s g then setCluster s g { c with k := 1 } else s)

/-- A clock-gated cluster runs again when work reaches it; an entry from K1 reverses (R393). -/
def ungate (s : State) (g : Nat) : State :=
  let c := clusterPower s g
  if c.k = 1 then reverseEntries (setCluster s g { c with k := 0 }) (1#32 <<< g) true else s

/-! ### Times of the states (R389) -/

/-- Wake time and break-even of a state, in ns. -/
def wakeNs (k : Nat) : Nat := [0, 100, 25000, 250000, 3000000, 15000000].getD k 0
def breakEvenNs (k : Nat) : Nat := [0, 500, 150000, 1500000, 30000000, 250000000].getD k 0

/-- The state the device holds: K4 or K5, else that of its shallowest cluster (R396). -/
def shallowest (s : State) : Nat :=
  if s.pwr.device ≥ 4 then s.pwr.device
  else (List.range 32).foldl (fun a g => min a (if (clusterPower s g).powered then (clusterPower s g).k else 3)) 3

/-! ### What an unfinished command still needs (R342) -/

/-- What a command has done of its plan: plan steps, rows of an update step (R342). -/
def stepsDone (c : Cmd) : Nat := if c.opcode = 0x0502 then c.rows + c.guarded + c.poisonRows else c.steps

/-- steps_left × est, in ticks: est is the wall time per committed step, or the plan's estimate (log 9) over the clusters that the command is
placed on or will be. -/
def workLeft (s : State) (c : Cmd) : Nat :=
  let left := c.stepsPlanned - stepsDone c
  if stepsDone c > 0 then left * (s.now - c.placedAt.getD s.now) / stepsDone c
  else left * Config.planEstimate c.opcode ((c.holds.map (fun h => clockStep (clusterPower s h.cluster))).headD 0) /
    max 1 (if c.holds.isEmpty then c.span else c.holds.length)

/-- need: the work left, and the wake time while the command is not placed and no drain holds it (R342, R355). -/
def needTicks (s : State) (c : Cmd) : Nat :=
  workLeft s c + (if c.placedAt.isNone ∧ s.dev ≠ .draining then ticksCeil (wakeNs (shallowest s)) else 0)

/-- slack, in ticks. -/
def slackTicks (s : State) (c : Cmd) (deadline : Nat) : Int := (deadline : Int) - s.now - needTicks s c

/-! ### Known events and the choice of a state (R395) -/

/-- A kettle timer of a port that runs: when it expires (R288, R302). -/
def portTimer (s : State) (k : Nat) : List Nat :=
  let p := portAt s k
  match p.state with
  | 2 => [p.changedAt + ticksCeil 50000000]
  | 3 => [p.changedAt + ticksCeil 100000]
  | 5 => (p.changedAt + ticksCeil 5000000) :: (if p.routed then [p.changedAt + retrainHold s k] else [])
  | 6 => [p.changedAt + ticksCeil 1000000]
  | _ => []

/-- Every running kettle timer. -/
def kettleTimers (s : State) : List Nat :=
  (List.range 4).flatMap (portTimer s) ++
    s.cmds.filterMap (fun c => (waitingSince c).map (fun t => t + ticksCeil (cmdVal s c 0x700C 0)))

/-- The valid hints. -/
def validHints (s : State) : List Hint := s.pwr.hints.filterMap (·.2)

/-- The known events; hints and kettle timers alone in ORPHANED (R395, R351). -/
def knownEvents (s : State) : List Nat :=
  let always := (validHints s).map (·.at_) ++ kettleTimers s
  if s.lease.state = .orphaned then always
  else
    always ++
      s.cmds.filterMap (fun c => (deadlineTicks (slotAt s c.key)).map (fun d => d - workLeft s c)) ++
      (match s.lease.state with
        | .held => [s.lease.expiry]
        | .lapsed => [s.lease.expiry + s.lease.grace]
        | _ => [])

/-- Whether an unfinished command allows K4: it waits for the lease, or is of the island class (R390, R351). -/
def letsSleep (s : State) (c : Cmd) : Bool :=
  islandClass c.opcode || ((s.lease.state == .lapsed || s.lease.state == .orphaned) &&
    (c.stage == .waitHost || (c.stage == .checking && hostHeld s c.key) || (stepsHeld s c.key && c.placedAt.isNone)))

/-- The conditions of K4 (R390), the clusters being able to reach K3 from where they are. -/
def mayK4 (s : State) : Bool :=
  (List.range 32).all (fun g =>
    let c := clusterPower s g
    c.powered && decide (c.k ≥ 1) && !clusterHeld s g && !clusterFenced s g) &&
  s.cmds.all (letsSleep s) && s.pgk.moves.isEmpty && s.pgk.allocWaits.isEmpty &&
  s.xlt.farModules.all (fun e => e.2.state ≠ 2) && s.upd.units.all (fun e => e.2.key.isNone) && s.dev ≠ .draining &&
  (List.range 8).all (fun d => decide (cfgVal s 0x8010 d ≠ 0))

/-- The further conditions of K5 (R390), the grant of self-refresh apart. -/
def mayK5 (s : State) : Bool :=
  (allPendings s).isEmpty && s.xlt.heldOrder.isEmpty && s.ktl.heldFrames.isEmpty && decide (s.now ≥ s.pwr.askAgainAt)

/-- Whether the stay until the next known event is worth a state (R395). -/
def worthwhile (s : State) (next : Option Nat) (k : Nat) : Bool :=
  match next with
  | none => true
  | some n => decide (ticksCeil (wakeNs k + breakEvenNs k) ≤ n - s.now)

/-- The earliest known event. -/
def nextEvent (s : State) : Option Nat := (knownEvents s).foldl (fun a n => some (match a with | some m => min m n | none => n)) none

/-- An entry started: from the present state. `key` is a cluster, or 32 for the device. -/
def startEntry (s : State) (key target from_ : Nat) : State :=
  { s with pwr := { s.pwr with entering := tset (0, 0) s.pwr.entering key (target, from_) } }

/-- A request that the clock and power controller refuses (R393): a record, and no state changed. -/
def illegalPower (s : State) (g from_ wanted : Nat) : State :=
  report s { cause := 0x24, source := 0x8001, cluster := g, info0 := from_, info1 := wanted }

/-- The wake-start compare armed for a state (R395). -/
def armWake (s : State) (next : Option Nat) (k : Nat) : State :=
  { s with pwr := { s.pwr with
      wakeStart := next.map (fun n => n - ticksCeil (wakeNs k) - ticksCeil (cfgVal s 0x8001 0)), wakeFor := k } }

/-- In K4 and K5 a new known event arms the wake start of the state held (R404). -/
def rearmWake (s : State) : State := if procRunning s 1 ∧ s.pwr.device ≥ 4 then armWake s (nextEvent s) s.pwr.device else s

/-- The clusters that can enter a deeper state than they hold: in K1 or K2, not held, not fenced, no entry in progress (R390). -/
def sleepers (s : State) (k : Nat) : List Nat :=
  (List.range 32).filter (fun g =>
    let c := clusterPower s g
    c.powered && decide (1 ≤ c.k ∧ c.k < k) && !clusterHeld s g && !clusterFenced s g && tget (0, 0) s.pwr.entering g == (0, 0) &&
      !s.pwr.waking.getLsbD g)

/-- The state chosen: 5 or 4 for the device, else the deepest a cluster may take (R395, R402). -/
def chooseState (s : State) (next : Option Nat) : Nat :=
  let deepest := cfgVal s 0x8000 0
  let gate := (cfgVal s 0x8002 0).testBit 1 && s.dev ≠ .draining
  let ok (k : Nat) : Bool := decide (k ≤ deepest) && gate && worthwhile s next k
  let may := mayK4 s && s.pwr.waking == 0
  if ok 5 && may && mayK5 s then 5
  else if ok 4 && may then 4
  else if ok 3 then 3
  else if ok 2 then 2
  else 1

/-- STATE_CHOICE (R395): power-management firmware enters the state it chooses and arms the wake start; K4 and K5 are left by a wake alone
(R393). -/
def execStateChoice (s : State) : Host.Outcome State Fault Refusal :=
  let next := nextEvent s
  let k := chooseState s next
  .next (
    if !procRunning s 1 || tget (0, 0) s.pwr.entering 32 ≠ (0, 0) || s.pwr.wakeDevice then s
    else if s.pwr.device = 4 ∧ k = 5 then armWake (startEntry s 32 5 4) next 5
    else if s.pwr.device ≥ 4 then armWake s next s.pwr.device
    else if k ≥ 4 then armWake (startEntry s 32 k 0) next k
    else armWake ((sleepers s k).foldl (fun s g => startEntry s g k (clusterPower s g).k) s) next k)

/-! ### Spilling and restoring (R391) -/

/-- A run of one table put over a run of another, keys shifted. -/
def overlay {α : Type} (dst src : Table α) (d a n : Nat) : Table α :=
  dst.filter (fun e => decide (e.1 < d)) ++
    (src.filter (fun e => decide (a ≤ e.1 ∧ e.1 < a + n))).map (fun e => (e.1 - a + d, e.2)) ++
    dst.filter (fun e => decide (d + n ≤ e.1))

/-- A run of a memory copied, with its check bits and its poison. -/
def overlayMem (dst src : Mem) (d a n : Nat) : Mem := ⟨overlay dst.cells src.cells d a n, overlay dst.chk src.chk d a n⟩

/-- The spilled memories of a cluster: whether it is the multicast buffer, its address there, its offset in the spill region of the die and
its bytes, cut at 32 MiB of the region. -/
def spillAreas (g : Nat) : List (Bool × Nat × Nat × Nat) :=
  let o := g % 4 * 0x4800000
  let cut (mc : Bool) (a off n : Nat) : List (Bool × Nat × Nat × Nat) :=
    (pagePieces (n / 2 ^ 25 + 2) off n).map (fun e => (mc, a + (e.1 - off), e.1, e.2))
  cut false (g * 2 ^ 26) o 0x4000000 ++ cut true (g * 2 ^ 19) (o + 0x4000000) 0x80000

/-- The offsets of a cluster's control-core local memory and of its tags, counters, windows and pairs in the spill region of the die. -/
def spillLocal (g : Nat) : Nat := g % 4 * 0x4800000 + 0x4080000
def spillMarks (g : Nat) : Nat := g % 4 * 0x4800000 + 0x4280000

/-- A spill access translated; a fault of the walk or a far frame is FATAL (R391); its source, which R418 leaves open, is
the power-management core (DESIGN CHOICE, log 59). -/
def spillXlate (s : State) (g off access : Nat) : Option Nat × State :=
  let va := cfgVal s 0x8010 (g / 4) + off
  let fail (s : State) : Option Nat × State := (none, report s { cause := 0x30, source := 0x8001, addr := va, info0 := g })
  match xlateOwn { die := g / 4 } (poolAsid s) va access s with
  | (.ok pa, s) => if inUsableNear pa 1 then (some pa, s) else fail s
  | (.error _, s) => fail s

/-- The tags, arrival counters, windows and pairs of a cluster's cores, in the order of R391, each kind core by core (DESIGN CHOICE, log 59). -/
def markBytes (s : State) (g : Nat) : List Byte :=
  let cores := (List.range 8).map (fun i => 8 * g + i)
  cores.flatMap (fun c => natBytes 256 (tagsOf s c).toNat) ++
    cores.flatMap (fun c => (List.range 64).flatMap (fun i => natBytes 16 (arrivalWord (arrivalOf s c i)))) ++
    cores.flatMap (fun c => (List.range 8).flatMap (fun i => natBytes 16 (windowWord (windowOf s c i)))) ++
    cores.flatMap (fun c => (List.range 16).flatMap (fun i => natBytes 8 (semWord (semAt s c i)).toNat))

/-- One field of those bytes. -/
def markField (bs : List Byte) (o n : Nat) : Nat := bytesNat ((bs.drop o).take n)

/-- The tags, arrival counters, windows and pairs of a cluster's cores as spilled bytes give them. -/
def setMarks (s : State) (g : Nat) (bs : List Byte) : State :=
  (List.range 8).foldl (fun s i =>
    let c := 8 * g + i
    let s := { s with spad := { s.spad with tags := tset 0 s.spad.tags c (BitVec.ofNat 2048 (markField bs (256 * i) 256)) } }
    let s := (List.range 64).foldl (fun s n => setArrival s c n (arrivalFrom (markField bs (0x800 + 1024 * i + 16 * n) 16))) s
    let s := (List.range 8).foldl (fun s n =>
      setWindow s c n (windowFrom (windowOf s c n) (markField bs (0x2800 + 128 * i + 16 * n) 16))) s
    (List.range 16).foldl (fun s n => setSem s c n (semOf (BitVec.ofNat 64 (markField bs (0x2C00 + 128 * i + 8 * n) 8)))) s) s

/-- Bytes written at an offset of a cluster's spill region. -/
def spillBytes (s : State) (g off : Nat) (bs : List Byte) : State :=
  match spillXlate s g off 2 with
  | (some pa, s) => nearWrite s pa bs false
  | (none, s) => s

/-- A run copied into the near tier; a fenced stack discards its part (R414). -/
def copyOut (s : State) (src : Mem) (a pa n : Nat) : State :=
  let m := overlayMem s.pmem src pa a n
  let kept (x : Nat) : Bool := (fencedStacks s (x / 16 * 16) 16).isEmpty || decide (x < pa ∨ pa + n ≤ x)
  if s.ras.fenced.isEmpty then { s with pmem := m }
  else
    let pick {α : Type} (new old : Table α) : Table α :=
      new.filter (fun e => kept e.1 && decide (e.1 < pa)) ++
        ((new.filter (fun e => kept e.1 && decide (pa ≤ e.1 ∧ e.1 < pa + n))) ++
          (old.filter (fun e => !kept e.1))).mergeSort (fun x y => decide (x.1 ≤ y.1)) ++
        new.filter (fun e => kept e.1 && decide (pa + n ≤ e.1))
    { s with pmem := ⟨pick m.cells s.pmem.cells, pick m.chk s.pmem.chk⟩ }

/-- A run of the near tier copied over a run of a memory: its lines pass the hamper (R231), and a fenced stack gives poison (R414). -/
def copyIn (s : State) (dst : Mem) (d pa n : Nat) : Mem × State :=
  let s := (linesOf pa n).foldl hamperRead s
  let m := overlayMem dst s.pmem d pa n
  if s.ras.fenced.isEmpty then (m, s)
  else
    let bad := ((List.range (n / 16)).filter (fun i => !(fencedStacks s (pa + 16 * i) 16).isEmpty)).map (fun i => (d + 16 * i, poisonDelta))
    let part := (m.chk.filter (fun e => decide (d ≤ e.1 ∧ e.1 < d + n) && bad.all (fun b => b.1 ≠ e.1))) ++ bad
    (⟨m.cells, m.chk.filter (fun e => decide (e.1 < d)) ++ part.mergeSort (fun x y => decide (x.1 ≤ y.1)) ++
      m.chk.filter (fun e => decide (d + n ≤ e.1))⟩, s)

/-- A cluster's retention contents written to its spill region: scratchpads, multicast buffer, control-core local memory, marks. -/
def spillCluster (s : State) (g : Nat) : State :=
  let s := (spillAreas g).foldl (fun s e =>
    match spillXlate s g e.2.2.1 2 with
    | (some pa, s) => copyOut s (if e.1 then s.spad.multicast else s.spad.mem) e.2.1 pa e.2.2.2
    | (none, s) => s) s
  spillBytes (spillBytes s g (spillLocal g) (tget [] s.fw.localMem (3 + g))) g (spillMarks g) (markBytes s g)

/-- A cluster's retention contents restored from its spill region. -/
def unspillCluster (s : State) (g : Nat) : State :=
  let s := (spillAreas g).foldl (fun s e =>
    match spillXlate s g e.2.2.1 1 with
    | (some pa, s) =>
      if e.1 then
        let (m, s) := copyIn s s.spad.multicast e.2.1 pa e.2.2.2
        { s with spad := { s.spad with multicast := m } }
      else
        let (m, s) := copyIn s s.spad.mem e.2.1 pa e.2.2.2
        { s with spad := { s.spad with mem := m } }
    | (none, s) => s) s
  let s := match spillXlate s g (spillLocal g) 1 with
    | (some pa, s) =>
      let n := (tget [] s.fw.localMem (3 + g)).length
      let (bs, s) := physRead { die := g / 4 } pa n s
      { s with fw := { s.fw with localMem := tset [] s.fw.localMem (3 + g) (bs.map (·.1)) } }
    | (none, s) => s
  match spillXlate s g (spillMarks g) 1 with
  | (some pa, s) =>
    let (bs, s) := physRead { die := g / 4 } pa 0x3000 s
    setMarks s g (bs.map (·.1))
  | (none, s) => s

/-! ### Entries completed -/

/-- What K5 loses: translation caches, walk caches and hampers (R392). -/
def loseCaches (s : State) : State :=
  { s with xlt := { s.xlt with coreCache := [], dieCache := [], walkCache := [], hamper := [] } }

/-- A cluster's logic goes off: what its retention rail does not hold is lost, its core translation caches and its arrays (R387, R389; log 59). -/
def loseCluster (s : State) (g : Nat) : State :=
  { s with
    xlt := { s.xlt with coreCache := s.xlt.coreCache.filter (fun e => decide (e.1 / 8 ≠ g)) }
    arrays := s.arrays.filter (fun e => decide (e.1 / 8 ≠ g)) }

/-- A device entry completed (R389 to R392): K5 only once self-refresh is granted; refused, with a record, where a condition of R390 no
longer holds (R393). -/
def completeDevice (s : State) (target from_ : Nat) : State :=
  if target = 5 ∧ !s.pwr.selfRefresh then s
  else if !mayK4 s ∨ (target = 5 ∧ !mayK5 s) then
    illegalPower { s with pwr := { s.pwr with entering := tset (0, 0) s.pwr.entering 32 (0, 0), selfRefresh := false } } 0xFF
      (shallowest s) target
  else
    let s := if from_ = 4 then s else (List.range 32).foldl (fun s g => loseCluster (spillCluster s g) g) s
    let s := (List.range 32).foldl (fun s g => setCluster s g { clusterPower s g with k := 3 }) s
    let s := { s with pwr := { s.pwr with device := target, entering := [] } }
    if target = 5 then loseCaches s else s

/-- A step of a cluster's entry completed: through the shallower states to the one chosen (R393); refused, with a record, where the cluster
is held by now (R390). -/
def stepEntry (s : State) (g target : Nat) : State :=
  let c := clusterPower s g
  let done (s : State) : State := { s with pwr := { s.pwr with entering := tset (0, 0) s.pwr.entering g (0, 0) } }
  if clusterHeld s g ∨ clusterFenced s g then illegalPower (done s) g c.k target
  else
    let k := min target (c.k + 1)
    let s := setCluster (if k = 3 then loseCluster s g else s) g { c with k := k }
    if target ≤ c.k + 1 then done s else s

/-- STATE_ENTRY_COMPLETE (R389): of the cluster named, else of the device. -/
def execStateEntryComplete (cluster : BitVec 5) (s : State) : Host.Outcome State Fault Refusal :=
  let g := cluster.toNat
  let e := tget (0, 0) s.pwr.entering g
  let d := tget (0, 0) s.pwr.entering 32
  .next (
    if e ≠ (0, 0) then stepEntry s g e.1
    else if d ≠ (0, 0) then completeDevice s d.1 d.2
    else s)

/-- SELF_REFRESH_GRANT (R390): a refusal leaves the device in K4, and firmware asks again no sooner than 10 ms later. -/
def execSelfRefreshGrant (granted : Bool) (s : State) : Host.Outcome State Fault Refusal :=
  let d := tget (0, 0) s.pwr.entering 32
  .next (
    if d.1 ≠ 5 then s
    else if granted then { s with pwr := { s.pwr with selfRefresh := true } }
    else { s with pwr := { s.pwr with
        askAgainAt := s.now + ticksCeil 10000000
        entering := tset (0, 0) s.pwr.entering 32 (if d.2 = 4 then (0, 0) else (4, d.2)) } })

/-! ### Wakes (R393, R394) -/

/-- WAKE_REQUEST (R393, R394): an entry in progress reverses; a request for a fenced cluster is refused with a record. A request for the
die-common domains alone wakes K5 to K4. -/
def execWakeRequest (clusters : BitVec 32) (dieCommonOnly : Bool) (s : State) : Host.Outcome State Fault Refusal :=
  let cs : BitVec 32 := if dieCommonOnly then 0 else clusters
  let fenced := (List.range 32).filter (fun g => cs.getLsbD g && clusterFenced s g)
  let cs := fenced.foldl (fun (m : BitVec 32) g => m &&& ~~~((1 : BitVec 32) <<< g)) cs
  let s := fenced.foldl (fun s g => illegalPower s g (clusterPower s g).k 0) s
  .next (requestWake (reverseEntries s cs true) cs (!dieCommonOnly))

/-- Clusters that a hint wants, those in K0 counted first, then in ascending number (R396). -/
def hintClusters (s : State) (n : Nat) : BitVec 32 :=
  let free := (List.range 32).filter (fun g => (clusterPower s g).powered && !clusterFenced s g && !clusterHeld s g)
  let up := free.filter (fun g => (clusterPower s g).k = 0)
  let down := free.filter (fun g => (clusterPower s g).k ≠ 0)
  ((up ++ down).take n).foldl (fun (m : BitVec 32) g => m ||| ((1 : BitVec 32) <<< g)) 0

/-- The clusters a wake is for: those of the hints due within the wake time that the wake start allows for, and the margin, of now (R395). -/
def dueClusters (s : State) : BitVec 32 :=
  let margin := ticksCeil (wakeNs s.pwr.wakeFor) + ticksCeil (cfgVal s 0x8001 0)
  ((validHints s).filter (fun h => decide (h.at_ ≤ s.now + margin))).foldl (fun m h => m ||| hintClusters s h.clusters) 0

/-- WAKE_START (R395): the armed compare fires. -/
def execWakeStart (s : State) : Host.Outcome State Fault Refusal :=
  match s.pwr.wakeStart with
  | none => .next s
  | some t =>
    .next (if s.now ≥ t then beginWake { s with pwr := { s.pwr with wakeStart := none } } (dueClusters s) true else s)

/-- The commands that waited for the die-common domains are carried on (R394). -/
def readyChecks (s : State) : State :=
  { s with cmds := s.cmds.map (fun c => if c.stage = .checking then { c with ready := true } else c) }

/-- What a wake to K4 or shallower releases: held far-module events, held frames, queued log records, waiting commands (R392 to R394). -/
def releaseHeld (s : State) : State := readyChecks (releaseFrames (drainFarEvents (logDrain s)))

/-- Clusters brought to K0 with their clocks at their steps; the others of a device wake stand in K3 (R393). -/
def raiseClusters (s : State) (cs : BitVec 32) : State :=
  (List.range 32).foldl (fun s g =>
    if cs.getLsbD g ∧ (clusterPower s g).powered then setCluster s g { clusterPower s g with k := 0 } else s) s

/-- WAKE_COMPLETE (R391, R393): K5 to K4 for the die-common domains alone, else to K0 for the clusters requested and K3 for the others,
restored from their spill region. -/
def execWakeComplete (s : State) : Host.Outcome State Fault Refusal :=
  let cs := s.pwr.waking
  let dev := s.pwr.device
  .next (
    if cs = 0 ∧ !s.pwr.wakeDevice then s
    else
      let full := s.pwr.wakeFull
      let s := { s with pwr := { s.pwr with waking := 0, wakeDevice := false, wakeFull := false } }
      if dev ≥ 4 ∧ !full then
        releaseHeld { s with pwr := { s.pwr with device := 4, selfRefresh := false } }
      else
        let s := { s with pwr := { s.pwr with device := 0, selfRefresh := false } }
        let s := if dev ≥ 4 then (List.range 32).foldl unspillCluster s else s
        releaseHeld (raiseClusters s cs))

/-- SELF_REFRESH_WITHDRAWN (R404): wake to K4. -/
def execSelfRefreshWithdrawn (s : State) : Host.Outcome State Fault Refusal :=
  .next (
    let s := reverseEntries { s with pwr := { s.pwr with selfRefresh := false } } 0 ((tget (0, 0) s.pwr.entering 32).1 == 5)
    if s.pwr.device = 5 then requestWake s 0 false else s)

/-! ### Hints (R396) -/

/-- A hint entry. -/
def setHint (s : State) (i : Nat) (h : Option Hint) : State := { s with pwr := { s.pwr with hints := tset none s.pwr.hints i h } }

/-- The result of PWR_HINT: the number of valid entries and the state of the shallowest cluster (R396). -/
def hintResult (s : State) : BitVec 64 := BitVec.ofNat 64 ((validHints s).length + 256 * shallowest s)

/-- A hint moves the wake start of K4 or K5 earlier; one that has passed wakes at once (R396, R404). -/
def hintWake (s : State) (h : Hint) : State :=
  let start := h.at_ - ticksCeil (wakeNs (shallowest s)) - ticksCeil (cfgVal s 0x8001 0)
  if h.at_ ≤ s.now then beginWake s (hintClusters s h.clusters) true
  else if s.pwr.device < 4 then s
  else if s.pwr.wakeStart.any (fun t => decide (t ≤ start)) then s
  else if start ≤ s.now then beginWake s (hintClusters s h.clusters) true
  else { s with pwr := { s.pwr with wakeStart := some start, wakeFor := shallowest s } }

/-- PWR_HINT (R396): an entry whose time has passed leaves the table at once. -/
def pwrHintDef : OpDef where
  check k := do
    let p := slotAt (← get) k
    let op := param p 9 8
    let at_ := param p 0 64
    let i := param p 8 8
    let n := param p 0xA 8
    checkParam (decide (op ≤ 2)) 9 0 8 6 op 2
    checkParam (decide (op = 0 ∨ at_ = 0)) 0 0 64 1 at_ 0
    checkParam (if op = 2 then i == 0 else decide (i < 8)) 8 0 8 1 i (if op = 2 then 0 else 7)
    checkRange 0xA 0 8 n (bit (op == 0)) (if op = 0 then 32 else 0)
    reservedParam p 0xB 0 40
    reservedFrom p 0x10
    return []
  body k := do
    let s ← get
    let p := slotAt s k
    let i := param p 8 8
    let s := match param p 9 8 with
      | 0 =>
        let h : Hint := ⟨ticksFloor (param p 0 64), param p 0xA 8, cmdSession s k⟩
        hintWake (setHint s i (if h.at_ ≤ s.now then none else some h)) h
      | 1 => setHint s i none
      | _ => { s with pwr := { s.pwr with hints := [] } }
    set s
    return { result := hintResult s }

/-- The hints of a session removed (R396). -/
def dropHints (s : State) (id : Nat) : State :=
  { s with pwr := { s.pwr with hints := s.pwr.hints.filter (fun e => e.2.all (fun h => h.session ≠ id)) } }

/-- HINT_EXPIRY (R396). -/
def execHintExpiry (index : BitVec 3) (s : State) : Host.Outcome State Fault Refusal :=
  match tget none s.pwr.hints index.toNat with
  | none => .next s
  | some h => .next (if s.now ≥ h.at_ then setHint s index.toNat none else s)

/-! ### Envelopes (R397 to R399) -/

/-- Watts of an envelope (R20). -/
def envelopeWatts (e : Nat) : Nat := [700, 1100, 1600].getD e 700

/-- The result of PWR_MODE (R397). -/
def modeResult (s : State) : BitVec 64 :=
  let steps := (List.range 32).map (fun g => clockStep (clusterPower s g))
  let k0 := ((List.range 32).filter (fun g => (clusterPower s g).powered && (clusterPower s g).k == 0)).length
  BitVec.ofNat 64 (s.pwr.envEff + 2 ^ 8 * s.pwr.envCeil + 2 ^ 16 * s.pwr.tjEff + 2 ^ 24 * s.pwr.tjCeil +
    2 ^ 32 * steps.foldl min 3 + 2 ^ 40 * k0 + 2 ^ 48 * min s.pwr.watts 0xFFFF)

/-- The junction limit a SET takes, with its clamp: 70 at least, 105 at most (R397). -/
def clampTj (v : Nat) : Nat × Nat := if v = 0 then (0, 0) else if v < 70 then (70, 1) else if v > 105 then (105, 2) else (v, 0)

/-- The values a SET leaves, from those it finds: effective and ceiling envelope, effective and ceiling limit. A management SET sets the
ceilings too (R397). -/
def setEnvelope (mgmt : Bool) (env tj : Nat) (v : Nat × Nat × Nat × Nat) : Nat × Nat × Nat × Nat :=
  let e := if env = 0xFF then (v.1, v.2.1) else (env, if mgmt then env else v.2.1)
  let t := if tj = 0 then (v.2.2.1, v.2.2.2) else (tj, if mgmt then tj else v.2.2.2)
  (e.1, e.2, t.1, t.2)

/-- PWR_MODE (R397, R398). A SET in LOAD is stored and takes effect at FW_START. -/
def pwrModeDef : OpDef where
  check k := do
    let p := slotAt (← get) k
    let op := param p 0 8
    let env := param p 1 8
    let tj := param p 2 8
    checkParam (decide (op ≤ 1)) 0 0 8 6 op 1
    checkParam (if op = 0 then env == 0xFF else decide (env ≤ 2 ∨ env = 0xFF)) 1 0 8 (if op = 0 then 1 else 6) env
      (if op = 0 then 0xFF else 2)
    checkParam (decide (op = 1 ∨ tj = 0)) 2 0 8 1 tj 0
    reservedParam p 3 0 40
    reservedFrom p 8
    let (v, r) := clampTj tj
    return if op = 1 ∧ r ≠ 0 then [⟨paramLoc 2, r, 7, 0, tj, v⟩] else []
  body k := do
    let s ← get
    let p := slotAt s k
    let mgmt := portOf k == .mgmt
    let env := param p 1 8
    let (tj, _) := clampTj (param p 2 8)
    let old := s.pwr
    let now := (old.envEff, old.envCeil, old.tjEff, old.tjCeil)
    let held := if s.dev = .load then old.atStart.getD now else now
    let v := setEnvelope mgmt env tj held
    let on := param p 0 8 ≠ 0
    let pw := if !on then old
      else if s.dev = .load then { old with atStart := some v }
      else { old with envEff := v.1, envCeil := v.2.1, tjEff := v.2.2.1, tjCeil := v.2.2.2 }
    let s := { s with pwr := { pw with changed := if mgmt then (old.changed || (on && decide (v ≠ held))) else false } }
    set s
    return { result := modeResult s }

/-- The clusters of a mask. -/
def maskClusters (m : BitVec 32) : List Nat := (List.range 32).filter (fun g => m.getLsbD g)

/-- A cluster one clock step slower or faster, never above the limiter's cap (R400, R401). -/
def slower (s : State) (g : Nat) : State := setCluster s g { clusterPower s g with step := min 3 ((clusterPower s g).step + 1) }
def faster (s : State) (g : Nat) : State :=
  let c := clusterPower s g
  setCluster s g { c with step := max c.cap (c.step - 1) }

/-- POWER_SAMPLE (R399): the busiest clusters one step down when the 100 µs average passes 98 % of the envelope, one step up when the
1 ms average projected at the higher step stays below 90 %. -/
def execPowerSample (avg100us avg1ms projected : Nat) (busiest : BitVec 32) (s : State) :
    Host.Outcome State Fault Refusal :=
  let env := envelopeWatts s.pwr.envEff
  .next (
    if !procRunning s 1 then s
    else
      let s := { s with pwr := { s.pwr with watts := avg1ms } }
      if avg100us * 100 > env * 98 then (maskClusters busiest).foldl slower s
      else if projected * 100 < env * 90 then
        (maskClusters busiest).foldl (fun s g => if (clusterPower s g).step > (clusterPower s g).cap then faster s g else s) s
      else s)

/-! ### The thermal limiter (R401) -/

/-- A cluster's sensors met: one step down at once and every 20 µs while hot, one step up every 100 µs while 3 °C below. -/
def limitCluster (s : State) (g : Nat) (temps : List Nat) : State :=
  let c := clusterPower s g
  let lim := s.pwr.tjEff
  if temps.any (fun t => decide (t ≥ lim)) then
    let due := match c.hotSince with
      | none => true
      | some t => decide (s.now ≥ t + ticksCeil 20000)
    if due then setCluster s g { c with cap := min 3 (clockStep c + 1), hotSince := some s.now, coolSince := none }
    else setCluster s g { c with coolSince := none }
  else if temps.all (fun t => decide (t + 3 ≤ lim)) then
    match c.coolSince with
    | none => setCluster s g { c with hotSince := none, coolSince := some s.now }
    | some t =>
      if s.now ≥ t + ticksCeil 100000 then setCluster s g { c with hotSince := none, cap := c.cap - 1, coolSince := some s.now }
      else setCluster s g { c with hotSince := none }
  else setCluster s g { c with hotSince := none, coolSince := none }

/-- Every cluster held at 0.6 GHz. -/
def capAll (s : State) : State := (List.range 32).foldl (fun s g => setCluster s g { clusterPower s g with cap := 3 }) s

/-- The clocks of a die slice stopped at 115 °C, with a record, and resumed at 0.6 GHz 3 °C below the limit. -/
def limitDie (s : State) (d : Nat) (temps : List Nat) : State :=
  let gs := (List.range 4).map (fun i => 4 * d + i)
  let stopped := gs.any (fun g => (clusterPower s g).stopped)
  let crit := temps.zipIdx.find? (fun e => decide (e.1 ≥ 115))
  match crit with
  | some (t, i) =>
    if stopped then s
    else
      let s := gs.foldl (fun s g => setCluster s g { clusterPower s g with stopped := true }) s
      report s { cause := 0x23, source := 0xC0A0, info0 := i, info1 := t }
  | none =>
    if stopped ∧ temps.all (fun t => decide (t + 3 ≤ s.pwr.tjEff)) then
      gs.foldl (fun s g => setCluster s g { clusterPower s g with stopped := false, cap := 3 }) s
    else s

/-- LIMITER_SAMPLE (R401): four sensors a cluster, four a die-common domain, the power average of 1 µs. The hotter island sensor at 115 °C
writes the record alone. -/
def execLimiterSample (cluster die : List Nat) (island : Nat) (power1us : Nat) (s : State) :
    Host.Outcome State Fault Refusal :=
  let ofCluster (g : Nat) : List Nat := (cluster.drop (4 * g)).take 4
  let s := (List.range 32).foldl (fun s g => limitCluster s g (ofCluster g)) s
  let s := if power1us * 100 > envelopeWatts s.pwr.envEff * 110 then
      capAll { s with pwr := { s.pwr with powerTrip := some (s.now + ticksCeil 100000) } }
    else match s.pwr.powerTrip with
      | some t => if s.now < t then capAll s else { s with pwr := { s.pwr with powerTrip := none } }
      | none => s
  let s := if procRunning s 1 then s else capAll s
  let s := (List.range 8).foldl (fun s d =>
    limitDie s d ((cluster.drop (16 * d)).take 16 ++ (die.drop (4 * d)).take 4)) s
  .next (if island ≥ 115 then report s { cause := 0x23, source := 0xC0A0, info0 := 20, info1 := island } else s)

/-! ### Adaptation (R402) -/

/-- Whether a cluster runs a class 0 command whose last slack was below twice SCH_SLACK_MARGIN. -/
def tightCluster (s : State) (g : Nat) : Bool :=
  (holders s g).any (fun c => schedClass s c == 0 && c.holds.any (fun h => h.cluster == g && !h.paused) &&
    c.slack.any (fun t => decide (t * 10000 < 2 * (cmdVal s c 0xA001 0 : Int) * 384)))

/-- The demotion thresholds of a die committed by firmware, as CFG_COMMIT does: not while the newest epoch is three ahead of the oldest in
force (R136, R347 step 2, R402). -/
def commitThresholds (s : State) (d low high : Nat) (base : Nat × Nat) : State :=
  if epochAge s (oldestEpoch s) ≥ 3 then s else
  let s := commitValues s (fieldSet (fieldSet [] 0x101A d low) 0x101B d high)
  { s with pwr := { s.pwr with
      thresholdAt := tset 0 s.pwr.thresholdAt d (s.now + 1)
      demoteBase := tset (0, 0, 0) s.pwr.demoteBase d (base.1, base.2, low) } }

/-- Bit 2: the thresholds rise after an allocation wait within 10 ms and fall back 1 s after the last one, once per 100 ms. The committed
values are the driver's unless firmware committed them last; with the bit clear, the driver's return. -/
def adaptThresholds (s : State) (d : Nat) (on : Bool) : State :=
  let low := cfgVal s 0x101A d
  let high := cfgVal s 0x101B d
  let b := tget (0, 0, 0) s.pwr.demoteBase d
  let own := b ≠ (0, 0, 0) ∧ b.2.2 = low
  let base : Nat × Nat := if own then (b.1, b.2.1) else (low, high)
  let at_ := tget 0 s.pwr.thresholdAt d
  let wait := tget 0 s.pwr.lastAllocWait d
  if at_ ≠ 0 ∧ s.now + 1 < at_ + ticksCeil 100000000 then s
  else if !on then (if own ∧ (low, high) ≠ base then commitThresholds s d base.1 base.2 base else s)
  else if wait ≠ 0 ∧ s.now + 1 ≤ wait + ticksCeil 10000000 then
    if low < 10 then commitThresholds s d (low + 1) (low + 3) base else s
  else if s.now + 1 ≥ wait + ticksCeil 1000000000 ∧ own ∧ (low > base.1 ∨ high > base.2) then
    commitThresholds s d (max base.1 (low - 1)) (max base.2 (high - 1)) base
  else s

/-- The receiver limit of plan 0 on a cluster: 8 until adapted. -/
def receiverLimit (s : State) (g : Nat) : Nat :=
  if (cfgVal s 0x8002 0).testBit 3 then tget 8 s.pwr.receiverLimit g else 8

/-- Bit 3: the limit halves after more than 4 detaches within 100 ms, to 2 at least, and doubles after each 1 s without one. -/
def adaptReceivers (s : State) (g : Nat) : State :=
  let ts := tget [] s.pwr.detachTimes g
  let lim := tget 8 s.pwr.receiverLimit g
  let last := tget 0 s.pwr.receiverAt g
  let recent := (ts.filter (fun t => decide (s.now ≤ t + ticksCeil 100000000))).length
  let new := if recent > 4 then max 2 (lim / 2)
    else if ts.all (fun t => decide (s.now ≥ t + ticksCeil 1000000000)) ∧
        (last = 0 ∨ s.now + 1 ≥ last + ticksCeil 1000000000) then min 8 (lim * 2) else lim
  { s with pwr := { s.pwr with
      receiverLimit := tset 8 s.pwr.receiverLimit g new
      receiverAt := if new = lim then s.pwr.receiverAt else tset 0 s.pwr.receiverAt g (s.now + 1)
      detachTimes := if recent > 4 then tset [] s.pwr.detachTimes g [] else s.pwr.detachTimes } }

/-- Bit 0: the clock step of a cluster follows its array's activity; with the bit clear it rises to the highest within the envelope, whose
headroom is that of R399 at the last sample. -/
def adaptStep (s : State) (g busy stall cycles : Nat) (on : Bool) : State :=
  if !on then (if s.pwr.watts * 100 < envelopeWatts s.pwr.envEff * 90 then faster s g else s)
  else if busy * 100 < cycles * 60 ∧ stall * 100 > busy * 30 then (if tightCluster s g then s else slower s g)
  else if busy * 100 > cycles * 90 then faster s g
  else s

/-- ADAPTATION (R402) of one cluster and its die, from 1 ms of core-cycles: busy, in feed stall, and all. -/
def execAdaptation (busy stall cycles : Nat) (cluster : BitVec 5) (s : State) : Host.Outcome State Fault Refusal :=
  let g := cluster.toNat
  let en := cfgVal s 0x8002 0
  .next (
    if !procRunning s 1 then s
    else
      let s := adaptThresholds (adaptStep s g busy stall cycles (en.testBit 0)) (g / 4) (en.testBit 2)
      if en.testBit 3 then adaptReceivers s g else s)

end Sys2Proof.Machine
end

