-- ==== Sys2Proof/Machine/Sessions.lean ====
section
/-! DEFINITION. Sessions, the lease, deadlines, and NOP (spec/13_scheduling.md R333 to R355, spec/12_host_interface.md R331). -/
namespace Sys2Proof.Machine

/-! ### Classes (R334, R338, R341) -/

/-- Clusters that run a command of a class now (R341). -/
def classClusters (s : State) (cls : Nat) : Nat :=
  ((s.cmds.filter (fun c => schedClass s c == cls)).map (fun c => (c.holds.filter (fun h => !h.paused)).length)).sum

/-- Changes of the cluster-time counted so far, those older than 100 ms left out (R341). -/
def noteShares (s : State) : State :=
  let now := (classClusters s 1, classClusters s 2)
  let l := if (s.shares.head?.map (·.2)).getD (0, 0) = now then s.shares else (s.now, now) :: s.shares
  let inside := l.takeWhile (fun e => decide (e.1 + 3840000 > s.now))
  { s with shares := inside ++ (l.drop inside.length).take 1 }

/-- Cluster-time of classes 1 and 2 over the last 100 ms: each entry of the list runs from its tick to `till` (R341). -/
def shareOver (since : Nat) : Nat → List (Nat × Nat × Nat) → Nat × Nat
  | _, [] => (0, 0)
  | till, (t, a, b) :: rest =>
    let d := till - max t since
    let r := shareOver since t rest
    (r.1 + d * a, r.2 + d * b)

/-- Whether batch commands have less than their floor (R341). -/
def batchShort (s : State) : Bool :=
  let (a, b) := shareOver (s.now - 3840000) s.now s.shares
  decide (a + b > 0) && decide (b * 100 < scopeVal s 0xA000 0 * (a + b))

/-! ### Deadlines (R342 to R344) -/

/-- Whether a command waits on a pending fault, and whether its record is held (R252, R343). -/
def faultWait (s : State) (k : Nat) : Option Bool :=
  match (allPendings s).find? (fun e => e.2.2.waiters.any (fun w => w.key == k)) with
  | some e => some (e.2.2.record == .held)
  | none => none

/-- The stall in progress that a DEADLINE_MISS record names (R343); NONE while the control core of one of its clusters is down (R369). -/
def stallOf (s : State) (c : Cmd) : StallKind :=
  if c.holds.any (fun h => !procRunning s (3 + h.cluster)) then .none
  else if c.stage = .preempted then .preempted
  else if s.pgk.restores.any (fun r => r.key == c.key) then .restore
  else match faultWait s c.key with
    | some true => .faultHeld
    | some false => .fault
    | none =>
      if s.str.queues.any (fun e => runsFor c.key e.2 && e.2.tagWait.isSome) then .tag
      else .none

/-- Whether a placed command is at a plan-step boundary of every cluster. -/
def atBoundary (c : Cmd) : Bool := c.holds.all (fun h => h.unit.isNone && h.recState ≠ 1)

/-- DROP_ON_MISS (R344): an unplaced or stalled command, or one at a step boundary, ends at once; a running one stops at its next
boundaries, one whose own preemption is under way at its first (R355). -/
def dropCmd (s : State) (k : Nat) : State :=
  match cmdOf s k with
  | none => s
  | some c =>
    let stalled := stallOf s c == .fault || stallOf s c == .faultHeld || stallOf s c == .tag
    if (c.placedAt.isNone && !c.preempting) || stalled || (c.placedAt.isSome && atBoundary c) then abortCmd s k 0x22
    else updCmd s k (fun c => { c with stop := some 0x22 })

/-- A miss recorded once its deadline tick has passed, and its effect (R342, R344). -/
def missCheck (s : State) (k : Nat) : State :=
  match cmdOf s k with
  | none => s
  | some c =>
    if isLate s k && !c.missed && deadlineRuns s k then
      let s := recordMiss s k (stallCode (stallOf s c))
      if (slotAt s k).getLsbD 48 then dropCmd s k else s
    else s

/-- A slack in ns as 64 bits, two's complement (R418). -/
def slackNs (t : Int) : Nat := (t * 10000 / 384 % (2 ^ 64 : Int)).toNat

/-- The check of a command with a deadline (R342): at risk, then missed. -/
def slackCheck (s : State) (k : Nat) : State :=
  match cmdOf s k, deadlineTicks (slotAt s k) with
  | some c, some d =>
    if c.stage = .checking ∨ !deadlineRuns s k then s
    else
      let slack := slackTicks s c d
      let s := updCmd s k (fun c => { c with slack := some slack })
      let s :=
        if slack * 10000 < (cmdVal s c 0xA001 0 : Int) * 384 ∧ !c.atRisk then
          report (updCmd s k (fun c => { c with atRisk := true })) {
            cause := 0x1D, source := 0x8002, key := some k, addr := hdrField (slotAt s k) 8 64, info0 := slackNs slack }
        else s
      missCheck s k
  | _, _ => s

/-- SLACK_CHECK (R342), by the scheduler core. -/
def execSlackCheck (slot : BitVec 6) (s : State) : Host.Outcome State Fault Refusal :=
  .next (if procRunning s 2 then slackCheck s slot.toNat else s)

/-- DEADLINE_MISS (R342, R344): the compare of an admitted command fires. -/
def execDeadlineMiss (slot : BitVec 6) (s : State) : Host.Outcome State Fault Refusal :=
  .next (if procRunning s 2 ∧ (cmdOf s slot.toNat).any (fun c => c.stage ≠ .checking) then missCheck s slot.toNat else s)

/-! ### NOP (R331) -/

/-- NOP (R331). -/
def nopDef : OpDef where
  check k := do
    reservedFrom (slotAt (← get) k) 0
    return []
  body _ := do return { result := BitVec.ofNat 64 (← get).now }

/-! ### The lease (R350, R351) -/

/-- A renewal: values that wait for one take effect, and the lease is HELD (R336, R350). -/
def renewLease (s : State) : State :=
  let l := s.lease
  let period := if l.newPeriod = 0 then l.period else l.newPeriod
  let grace := if l.newGrace = 0 then l.grace else l.newGrace
  { s with lease := { l with
      state := .held, expiry := s.now + period, period := period, grace := grace, newPeriod := 0, newGrace := 0 } }

/-- LEASE_RENEW (R350). What waited for the lease is carried on; in K4 and K5 the new expiry is a known event (R404). -/
def leaseRenewDef : OpDef where
  check k := do
    let s ← get
    reservedFrom (slotAt s k) 0
    if s.lease.state = .orphaned then throw (.reject busyReject)
    return []
  body _ := do
    modify (fun s => releaseHost (rearmWake (renewLease s)))
    return { result := BitVec.ofNat 64 (← get).lease.expiry }

/-- LEASE_EXPIRY (R350, R351). -/
def execLeaseExpiry (s : State) : Host.Outcome State Fault Refusal :=
  let l := s.lease
  .next (
    if l.state = .held ∧ l.suspendedAt.isNone ∧ s.now ≥ l.expiry then
      { s with lease := { l with state := .lapsed, lapsedAt := l.expiry } }
    else s)

/-- The CFG_COMMIT of a drain ends with nothing committed when the lease is ORPHANED (R348). -/
def endDrain (s : State) : State :=
  match drainingCommit s with
  | some c => endCmd s c.key 0x20 {}
  | none => s

/-- GRACE_EXPIRY (R350): the sessions and the device are ORPHANED. A restarting scheduler core finds them so when it returns. -/
def execGraceExpiry (s : State) : Host.Outcome State Fault Refusal :=
  let l := s.lease
  .next (
    if l.state = .lapsed ∧ l.suspendedAt.isNone ∧ s.now ≥ l.expiry + l.grace then
      let s := endDrain { s with lease := { l with state := .orphaned, orphanedAt := s.now } }
      { s with
        dev := if s.dev = .ready ∨ s.dev = .draining then .orphaned else s.dev
        sessions := s.sessions.map (fun e => (e.1, if e.2.state = .opened then { e.2 with state := .orphaned } else e.2)) }
    else s)

/-- LEASE_NEAR_EXPIRY (R350): the interim status of every admitted command shows it. -/
def execLeaseNearExpiry (s : State) : Host.Outcome State Fault Refusal :=
  .next (
    if leaseNear s ∧ procRunning s 2 then
      (s.cmds.filter (fun c => c.stage ≠ .checking)).foldl (fun s c => refreshInterim s c.key) s
    else s)

/-! ### Discarding and closing (R335, R337, R353) -/

/-- A session entry. -/
def setSession (s : State) (i : Nat) (e : Session) : State := { s with sessions := tset Session.reset s.sessions i e }

/-- The ID of a session entry (R333). -/
def sessionId (i : Nat) (e : Session) : Nat := i + 256 * e.gen

/-- The queues of a session's standalone streams. -/
def sessionStreams (s : State) (id : Nat) : List (Nat × Queue) :=
  s.str.queues.filter (fun e => e.2.session == id && e.2.state ≠ .free && (e.2.state == .parked || standalone s e.2))

/-- A session freed: its streams are halted without resume records, their issued transfers completing (R216), its commands but one end
ABORTED_FAULT, its hints go, the generation advances. The numbers of commands and of streams (R335, R353). -/
def freeSession (s : State) (i : Nat) (except_ : Nat) : (Nat × Nat) × State :=
  let e := tget Session.reset s.sessions i
  let id := sessionId i e
  let ks := (s.cmds.filter (fun c => cmdSession s c.key == id && c.key ≠ except_)).map (·.key)
  let n := (sessionStreams s id).length
  let s := (sessionStreams s id).foldl (fun s q => drainIssued s (q.1 / 8) (q.1 % 8)) s
  let s := ks.foldl (fun s k => abortCmd s k 0x20) s
  let s := (sessionStreams s id).foldl (fun s q => setQueue s (q.1 / 8) (q.1 % 8) (endStream q.2)) s
  let s := setSession (dropHints s id) i { Session.reset with gen := e.gen % 255 + 1 }
  ((ks.length, n), s)

/-- SESSION_CLOSE (R335, R337). -/
def sessionCloseDef : OpDef where
  check k := do
    let s ← get
    reservedFrom (slotAt s k) 0
    let id := cmdSession s k
    let e := tget Session.reset s.sessions (id % 256)
    if e.state = .opened ∧ s.cmds.any (fun c => cmdSession s c.key == id && c.key ≠ k) then throw (.reject busyReject)
    return []
  body k := do
    let s ← get
    let ((n, m), s) := freeSession s (cmdSession s k % 256) k
    set s
    return { result := BitVec.ofNat 64 (n % 65536 + 65536 * (m % 65536)) }

/-- ADOPTION_WINDOW_EXPIRY (R352). -/
def execAdoptionWindowExpiry (s : State) : Host.Outcome State Fault Refusal :=
  match s.lease.adoptBy with
  | none => .next s
  | some t =>
    .next (
      if s.now ≥ t then
        let idx := (s.sessions.filter (fun e => e.2.state == .adoptable)).map (·.1)
        let s := { s with lease := { s.lease with adoptBy := none } }
        idx.foldl (fun s i => (freeSession s i 1000).2) s
      else s)

/-! ### SESSION_OPEN (R336) and adoption (R353) -/

/-- A duration of SESSION_OPEN or ATTACH in ns, clamped unless 0, with its clamp (R327, R336). -/
def clampPeriod (o lo hi v : Nat) : Nat × List ClampEntry :=
  if v = 0 then (0, [])
  else if v < lo then (lo, [⟨paramLoc o, 1, 63, 0, v, lo⟩])
  else if v > hi then (hi, [⟨paramLoc o, 2, 63, 0, v, hi⟩])
  else (v, [])

def clampLease (v : Nat) : Nat × List ClampEntry := clampPeriod 0 1000000 10000000000 v
def clampGrace (v : Nat) : Nat × List ClampEntry := clampPeriod 8 10000000 600000000000 v

/-- The lease values of a request noted for the next renewal. -/
def notePeriods (s : State) (p : SlotWord) : State :=
  let a := (clampLease (param p 0 64)).1
  let b := (clampGrace (param p 8 64)).1
  let l := s.lease
  { s with lease := { l with
      newPeriod := if a = 0 then l.newPeriod else ticksCeil a
      newGrace := if b = 0 then l.newGrace else ticksCeil b } }

/-- The address-space entry of SESSION_OPEN (R240, R336): poison ends the command, EN must be 1. -/
def checkAspace (k asid : Nat) : Act Unit := do
  let s ← get
  let base := cfgVal s 0x5001 0
  if base = 0 then rejectAt (configLoc 0x5001 0) 7 63 0 0 0
  else
    let w : Who := { die := 0, key := some k }
    let pa := base + asid * 16
    let bs ← physReadAct w pa 16
    if bs.any (·.2) then poisonCtl w pa 7
    else checkParam ((bs.getD 7 (0, false)).1.getLsbD 7) 0x10 0 8 7 asid 0

/-- SESSION_OPEN (R336), and with ADOPT the adoption of a session (R353). -/
def sessionOpenDef : OpDef where
  check k := do
    let s ← get
    let p := slotAt s k
    let asid := param p 0x10 8
    let kind := param p 0x11 8
    let grp := param p 0x14 8
    let auto := paramBit p 0x12 0
    let ring := paramBit p 0x12 1
    let adopt := paramBit p 0x12 2
    let aid := param p 0x16 16
    let target := if adopt then (sessionOf s aid).filter (fun e => e.state == .adoptable && decide (aid ≠ 0)) else none
    let same (f : Session → Bool) : Bool := target.all f
    checkParam (decide (asid ≠ poolAsid s)) 0x10 0 8 7 asid 0
    checkParam (same (fun e => e.asid == asid)) 0x10 0 8 7 asid 0
    checkParam (decide (kind ≤ 1)) 0x11 0 8 6 kind 1
    checkParam (same (fun e => e.interactive == decide (kind = 1))) 0x11 0 8 7 kind 0
    checkParam (same (fun e => e.autoRecompute == auto)) 0x12 0 1 7 (bit auto) 0
    checkParam (same (fun e => e.ring == ring)) 0x12 1 1 7 (bit ring) 0
    reservedParam p 0x12 3 13
    let most := if ring then 3 else 0
    checkParam (decide (grp ≤ most)) 0x14 0 8 1 grp most
    if ring ∧ cfgVal s (0x7001 + grp) 0 % 4 = 0 then rejectAt (configLoc (0x7001 + grp) 0) 7 1 0 0 0
    checkParam (same (fun e => e.ringGroup == grp)) 0x14 0 8 7 grp 0
    reservedParam p 0x15 0 8
    checkParam (adopt || decide (aid = 0)) 0x16 0 16 1 aid 0
    checkParam (!adopt || target.isSome) 0x16 0 16 7 aid 0
    reservedFrom p 0x18
    checkAspace k asid
    if !adopt ∧ (List.range 256).all (fun i => (tget Session.reset s.sessions i).state ≠ .free) then throw (.reject busyReject)
    return (clampLease (param p 0 64)).2 ++ (clampGrace (param p 8 64)).2
  body k := do
    let s ← get
    let p := slotAt s k
    let s := notePeriods s p
    if paramBit p 0x12 2 then
      let id := param p 0x16 16
      let e := tget Session.reset s.sessions (id % 256)
      let s := setSession s (id % 256) { e with state := .opened }
      let s := (s.cmds.filter (fun c => cmdSession s c.key == id)).foldl (fun s c => missCheck s c.key) s
      set (releaseHost s)
      return { result := BitVec.ofNat 64 id }
    else
      let i := ((List.range 256).find? (fun i => (tget Session.reset s.sessions i).state == .free)).getD 0
      let e : Session := {
        state := .opened
        gen := (tget Session.reset s.sessions i).gen
        asid := param p 0x10 8
        interactive := decide (param p 0x11 8 = 1)
        autoRecompute := paramBit p 0x12 0
        ring := paramBit p 0x12 1
        ringGroup := param p 0x14 8
        openedAt := s.now }
      set (setSession s i e)
      return { result := BitVec.ofNat 64 (sessionId i e) }

/-! ### ATTACH and the orphan report (R352, R354) -/

/-- One entry of the orphan report (R354). -/
def orphanEntry (kind st session slot seq opcode value epoch flags : Nat) (ref at_ : Nat) : List Byte :=
  natBytes 1 kind ++ natBytes 1 st ++ natBytes 2 session ++ natBytes 1 slot ++ natBytes 1 seq ++ natBytes 2 opcode ++
    natBytes 4 value ++ natBytes 1 epoch ++ natBytes 1 flags ++ natBytes 2 0 ++ natBytes 8 ref ++ natBytes 8 at_

/-- The flags of a session in its entries. -/
def sessionFlags (e : Session) : Nat := bit e.autoRecompute + 2 * bit e.ring

/-- A placed command that waits only to drain what it has committed: every plan step left stands STAGED (R354, R366). -/
def onlyDrains (c : Cmd) : Bool :=
  let left := c.holds.filter (fun h => h.recState == 1)
  !left.isEmpty && decide (c.steps + left.length ≥ c.stepsPlanned)

/-- A PLAN_LOAD that only its plan report waits for, held in its checks (R213, R354). -/
def planReplyHeld (s : State) (c : Cmd) : Bool :=
  c.stage == .checking && c.opcode == 0x0305 && hdrField (slotAt s c.key) 0x10 64 ≠ 0 && (faultWait s c.key).isNone

/-- The entry of a command. -/
def cmdEntry (s : State) (c : Cmd) (e : Option Session) : List Byte :=
  let st := if e.isNone ∨ c.stage = .waitHost ∨ planReplyHeld s c ∨ onlyDrains c then 2 else if c.placedAt.isSome ∨ c.steps > 0 then 1 else 0
  let fl := (e.elim 0 sessionFlags) + 4 * bit (c.missed || isLate s c.key) + 8 * bit (faultWait s c.key).isSome
  orphanEntry 1 st (cmdSession s c.key) (slotNumber c.key) (slotSeq s c.key) c.opcode (c.steps % 2 ^ 32)
    (c.cfgEpoch.elim 0 (·.toNat)) fl (hdrField (slotAt s c.key) 8 64) c.admittedAt

/-- The entry of a stream. -/
def streamEntryBytes (e : Nat × Queue) (id : Nat) : List Byte :=
  let st := match e.2.state with
    | .parked => 1
    | .faulted => 2
    | _ => 0
  orphanEntry 2 st id 0 0 0 0 0 0 (streamHandle e.2 (e.1 / 8) (e.1 % 8)) 0

/-- The entries of a session: itself, its commands in admission order, its streams. -/
def sessionEntries (s : State) (i : Nat) (e : Session) : List (List Byte) :=
  let id := sessionId i e
  orphanEntry 0 (bit e.interactive) id 0 0 0 (e.asid + 256 * e.ringGroup) 0 (sessionFlags e) 0 e.openedAt ::
    ((s.cmds.filter (fun c => cmdSession s c.key == id)).map (fun c => cmdEntry s c (some e)) ++
      (sessionStreams s id).map (fun q => streamEntryBytes q id))

/-- The commands the report lists: those of ADOPTABLE sessions, and the host-port ones without a session but the ATTACH itself. -/
def reportedCmds (s : State) (k : Nat) : Nat :=
  (s.cmds.filter (fun c =>
    if cmdSession s c.key = 0 then portOf c.key == .host && c.key ≠ k
    else (tget Session.reset s.sessions (cmdSession s c.key % 256)).state == .adoptable)).length

/-- Every entry of the report (R354). -/
def orphanEntries (s : State) (k : Nat) : List (List Byte) :=
  (s.sessions.filter (fun e => e.2.state == .adoptable)).flatMap (fun e => sessionEntries s e.1 e.2) ++
    (s.cmds.filter (fun c => cmdSession s c.key == 0 && portOf c.key == .host && c.key ≠ k)).map (fun c => cmdEntry s c none)

/-- The header of the report (R354). -/
def orphanHeader (s : State) (n from_ faults requeued : Nat) : List Byte :=
  let l := s.lease
  natBytes 4 n ++ natBytes 1 from_ ++ natBytes 3 0 ++ natBytes 8 l.lapsedAt ++
    natBytes 8 (if from_ = 1 then l.orphanedAt else 0) ++ natBytes 8 (l.adoptBy.getD 0) ++ natBytes 2 (min faults 0xFFFF) ++
    natBytes 2 (min requeued 0xFFFF) ++ natBytes 28 0

/-- The adoption window of ATTACH in ns, with its clamp; 0 is 10 s (R352). -/
def clampWindow (v : Nat) : Nat × List ClampEntry :=
  let r := clampPeriod 0x10 1000000 600000000000 v
  (if v = 0 then 10000000000 else r.1, r.2)

/-- ATTACH (R352). -/
def attachDef : OpDef where
  check k := do
    let s ← get
    let p := slotAt s k
    reservedFrom p 0x18
    if s.lease.state = .held then throw (.reject busyReject)
    return (clampLease (param p 0 64)).2 ++ (clampGrace (param p 8 64)).2 ++ (clampWindow (param p 0x10 64)).2
  body k := do
    let s ← get
    let p := slotAt s k
    let from_ := bit (s.lease.state == .orphaned)
    let s := renewLease (notePeriods s p)
    let by_ := s.now + ticksCeil (clampWindow (param p 0x10 64)).1
    let s := { s with
      dev := if s.dev = .orphaned then .ready else s.dev
      lease := { s.lease with adoptBy := some by_ }
      sessions := s.sessions.map (fun e =>
        (e.1, if e.2.state = .opened ∨ e.2.state = .orphaned then { e.2 with state := .adoptable } else e.2)) }
    let requeued := ((allPendings s).filter (fun e => e.2.2.record == .fetched)).length
    let s := requeueFaults s
    set s
    let all := orphanEntries s k
    let out := all.take ((hdrField p 0x18 32 - 64) / 32)
    let sess := (s.sessions.filter (fun e => e.2.state == .adoptable)).length
    let res := out.length % 65536 + 65536 * (sess % 65536) + 2 ^ 32 * (reportedCmds s k % 65536)
    let hdr := orphanHeader s out.length from_ (allPendings s).length requeued
    let r ← longAct k (hdr ++ out.flatten) { result := BitVec.ofNat 64 res, trunc := decide (out.length < all.length) }
    modify releaseHost
    return r

end Sys2Proof.Machine
end

