-- ==== Sys2Proof/Machine/StreamCode.lean ====
section
/-! DEFINITION. Uabieg stream code: one instruction of a tile's program on its queue's registers, and the events that end a wait
(spec/08_streams.md R199 to R205, spec/07_scratchpad.md R169 to R172, R178 to R187). -/
namespace Sys2Proof.Machine

/-- An instruction word of format A (R200). -/
def icA (op rd sa sb : Nat) : Nat := op * 2 ^ 26 + rd % 16 * 2 ^ 22 + sa % 32 * 2 ^ 17 + sb % 32 * 2 ^ 12

/-- An instruction word of format B (R200). -/
def icB (op rd sa imm : Nat) : Nat := op * 2 ^ 26 + rd % 16 * 2 ^ 22 + sa % 32 * 2 ^ 17 + imm % 2 ^ 17

/-- The queue whose program stands at an instruction word: none when it runs no program or stands at another instruction. -/
def atInstr (s : State) (core qi w : Nat) : Option Queue :=
  let q := queueAt s core qi
  if q.state = .running ∧ q.wait = .program ∧ clockRuns s core ∧ (descProgram (streamImage s q) (curDesc q))[q.pc]? = some w then some q else none

/-- The contents of a register select (R199). -/
def selReg (q : Queue) (sel : Nat) : BitVec 64 :=
  if sel < 16 then q.regs.getD sel 0
  else if sel < 22 then BitVec.ofNat 64 (q.loops.getD (sel - 16) 0)
  else if sel < 30 then q.params.getD (sel - 22) 0
  else if sel = 30 then 0
  else BitVec.ofNat 64 q.tile

/-- A 17-bit immediate sign-extended (R201). -/
def immS (imm : BitVec 17) : BitVec 64 := imm.signExtend 64

/-- The queue after an instruction that writes a register. -/
def writeReg (q : Queue) (rd : Nat) (v : BitVec 64) : Queue := nextInstr { q with regs := q.regs.set rd v }

/-- An instruction of two registers that writes a third (R201). -/
def streamAlu (s : State) (core qi op rd sa sb : Nat) (f : BitVec 64 → BitVec 64 → BitVec 64) : State :=
  match atInstr s core qi (icA op rd sa sb) with
  | none => s
  | some q => setQueue s core qi (writeReg q rd (f (selReg q sa) (selReg q sb)))

/-- An instruction of one register and an immediate (R201). -/
def streamAluImm (s : State) (core qi op rd sa : Nat) (imm : BitVec 17) (f : BitVec 64 → BitVec 64) : State :=
  match atInstr s core qi (icB op rd sa imm.toNat) with
  | none => s
  | some q => setQueue s core qi (writeReg q rd (f (selReg q sa)))

/-- An instruction without a register result: what it does to the state, given its queue (R201). -/
def streamOp (s : State) (core qi op rd sa : Nat) (imm : BitVec 17) (f : Queue → State) : State :=
  match atInstr s core qi (icB op rd sa imm.toNat) with
  | none => s
  | some q => f q

/-- LDS (R201, R410): a poisoned word ends the program, and the tile is delivered as poison; one record per command and queue,
which names the address of the tile (R198, R418). -/
def streamLds (s : State) (core qi rd sa : Nat) (imm : BitVec 17) : State :=
  streamOp s core qi 0x16 rd sa imm (fun q =>
    let w := (selReg q sa + immS imm).toNat % 2 ^ 19
    let ((x, bad), s) := spadRead s (some q.key) core w
    if bad then
      let s := notePoison s q.key
      let s := if q.poisoned then s else report s {
          cause := 0x11, source := core, key := some q.key, cluster := clusterOf core, unit := qi
          addr := loopAddress (curDesc q) (descLevels (streamImage s q) (curDesc q)) q.loops }
      runAhead (setQueue s core qi { q with poisoned := true, op := .poison, wait := .none }) core qi
    else setQueue s core qi (writeReg q rd (x.extractLsb' 0 64)))

/-- BZ and BNZ (R201). -/
def streamBranch (s : State) (core qi op rd sa : Nat) (imm : BitVec 17) (taken : BitVec 64 → Bool) : State :=
  streamOp s core qi op rd sa imm (fun q =>
    setQueue s core qi (nextInstr { q with pc := q.pc + (if taken (selReg q sa) then imm.toNat % 64 else 0) }))

/-- EMIT (R201). -/
def streamEmit (s : State) (core qi rd sa sb : Nat) : State :=
  match atInstr s core qi (icA 0x20 rd sa sb) with
  | none => s
  | some q =>
    let op : TileOp := .emit (selReg q sa) ((selReg q sb).toNat % 2 ^ 19)
    runAhead (setQueue s core qi { q with op := op, wait := .none }) core qi

/-- EMPTY (R201). -/
def streamEmpty (s : State) (core qi rd sa : Nat) (imm : BitVec 17) : State :=
  streamOp s core qi 0x21 rd sa imm (fun q => runAhead (setQueue s core qi { q with op := .empty, wait := .none }) core qi)

/-- SKIP (R201): the tile counts as delivered and uses no slot. -/
def streamSkip (s : State) (core qi rd sa : Nat) (imm : BitVec 17) : State :=
  streamOp s core qi 0x22 rd sa imm (fun q =>
    match stopsHere s q.key with
    | some code => abortCmd s q.key code
    | none =>
      let s := bumpStr s (clusterOf core) (if dStore (curDesc q) then 0x10 else 0x08) 1
      runAhead (setQueue s core qi (pastTile s core qi q false)) core qi)

/-- CWAIT (R201): goes on when the count has come, else waits with a stall timer. -/
def streamCwait (s : State) (core qi rd sa : Nat) (imm : BitVec 17) : State :=
  streamOp s core qi 0x28 rd sa imm (fun q =>
    let c := imm.toNat % 64
    let v := selReg q sa
    if (arrivalOf s core c).count.toNat ≥ v.toNat then setQueue s core qi (nextInstr q)
    else setQueue s core qi (waitFor s q (.counter c v)))

/-- CWAIT_RELEASE (R179). -/
def cwaitRelease (s : State) (core qi : Nat) : State :=
  let q := queueAt s core qi
  match q.state, q.wait with
  | .running, .counter c v =>
    if (arrivalOf s core c).count.toNat ≥ v.toNat then setQueue s core qi (nextInstr q) else s
  | _, _ => s

/-- CSET (R178, R201). -/
def streamCset (s : State) (core qi rd sa : Nat) (imm : BitVec 17) : State :=
  streamOp s core qi 0x29 rd sa imm (fun q =>
    let c := imm.toNat % 64
    let a := { arrivalOf s core c with count := (selReg q sa).extractLsb' 0 32, ovf := false }
    fireCounter (setArrival (setQueue s core qi (nextInstr q)) core c a) core c)

/-- CSUB (R178, R201). -/
def streamCsub (s : State) (core qi rd sa : Nat) (imm : BitVec 17) : State :=
  streamOp s core qi 0x2A rd sa imm (fun q =>
    let c := imm.toNat % 64
    let a := arrivalOf s core c
    let n := a.count.toNat - (selReg q sa).toNat % 2 ^ 32
    setArrival (setQueue s core qi (nextInstr q)) core c { a with count := BitVec.ofNat 32 n })

/-- COUNTER_INVALID: recorded, and the command ends (R180, R202). -/
def counterInvalid (s : State) (core c target k : Nat) : State :=
  let s := report s {
    cause := 0x0E, source := core, key := some k, cluster := clusterOf core, addr := gaddrOf core 0, info0 := c, info1 := target }
  abortCmd s k 0x20

/-- CARM (R178, R180, R201). -/
def streamCarm (s : State) (core qi rd sa : Nat) (imm : BitVec 17) : State :=
  streamOp s core qi 0x2B rd sa imm (fun q =>
    let c := imm.toNat % 64
    let v := (selReg q sa).toNat
    let target := v % 2 ^ 32
    let first := v / 2 ^ 32 % 2048
    let count := v / 2 ^ 43 % 4096
    if target = 0 ∨ first + count > 2048 ∨ v / 2 ^ 57 ≠ 0 ∨ v.testBit 55 then counterInvalid s core c target q.key
    else
      let a := { arrivalOf s core c with
        target := BitVec.ofNat 32 target, fillFirst := first, fillCount := count, reload := v.testBit 56, armed := true, fired := false }
      fireCounter (setArrival (setQueue s core qi (nextInstr q)) core c a) core c)

/-- An OPEN that need not wait any longer: illegal with base above limit, else the window opens and the program goes on (R182). -/
def openNow (s : State) (core qi win : Nat) (arg : BitVec 64) : State :=
  let q := queueAt s core qi
  let w := windowOf s core win
  let w' := opened w arg q.key
  if w'.base.toNat > w'.limit.toNat then windowIllegal s core win (some q.key)
  else setQueue (setWindow s core win w') core qi (nextInstr q)

/-- WOPEN (R182, R201). -/
def streamWopen (s : State) (core qi rd sa : Nat) (imm : BitVec 17) : State :=
  streamOp s core qi 0x2C rd sa imm (fun q =>
    let win := imm.toNat % 8
    let w := windowOf s core win
    if w.state ≥ 3 then setQueue (windowReserved s core win (some q.key)) core qi (nextInstr q)
    else if w.state = 1 then windowIllegal s core win (some q.key)
    else if mayOpen s w then openNow s core qi win (selReg q sa)
    else setQueue s core qi { q with wait := .reopen win (selReg q sa) })

/-- WINDOW_REOPEN (R182, R185): the waiting OPEN of the lowest queue takes effect; another queue's waiting OPEN of the same window waits for the
next CLOSED (DESIGN CHOICE, log 66). -/
def windowReopen (s : State) (core win : Nat) : State :=
  let waits (qi : Nat) : Option (BitVec 64) := match (queueAt s core qi).wait with
    | .reopen w arg => if w = win then some arg else none
    | _ => none
  match (List.range 8).findSome? (fun qi => (waits qi).map (fun a => (qi, a))) with
  | some (qi, arg) => if mayOpen s (windowOf s core win) then openNow s core qi win arg else s
  | none => s

/-- WCLOSE (R182, R201). -/
def streamWclose (s : State) (core qi rd sa : Nat) (imm : BitVec 17) : State :=
  streamOp s core qi 0x2D rd sa imm (fun q =>
    let win := imm.toNat % 8
    let s := if (windowOf s core win).state ≥ 3 then windowReserved s core win (some q.key)
      else setWindow s core win (closing (windowOf s core win))
    setQueue s core qi (nextInstr q))

/-- WWAIT (R201). -/
def streamWwait (s : State) (core qi rd sa : Nat) (imm : BitVec 17) : State :=
  streamOp s core qi 0x2E rd sa imm (fun q =>
    let win := imm.toNat % 8
    if (windowOf s core win).state = 0 then setQueue s core qi (nextInstr q)
    else setQueue s core qi (waitFor s q (.window win)))

/-- WWAIT_RELEASE (R202). -/
def wwaitRelease (s : State) (core qi : Nat) : State :=
  let q := queueAt s core qi
  match q.state, q.wait with
  | .running, .window win => if (windowOf s core win).state = 0 then setQueue s core qi (nextInstr q) else s
  | _, _ => s

/-- SWAIT (R201, R205). -/
def streamSwait (s : State) (core qi rd sa : Nat) (imm : BitVec 17) : State :=
  streamOp s core qi 0x30 rd sa imm (fun q =>
    let p := imm.toNat % 16
    let full := imm.getLsbD 4
    let x := semAt s core p
    if semCount x full = 0 then setQueue s core qi (waitFor s q (.semaphore p full false))
    else setQueue (setSem s core p (semTake x full)) core qi (nextInstr q))

/-- SWAIT_RELEASE (R205): a take of a program goes on; the take of a descriptor's pair goes on to its issue. -/
def swaitRelease (s : State) (core qi : Nat) : State :=
  let q := queueAt s core qi
  match q.state, q.wait with
  | .running, .semaphore p full ofDesc =>
    let x := semAt s core p
    if semCount x full = 0 then s
    else
      if ofDesc then runAhead (setQueue s core qi { q with wait := .none }) core qi
      else setQueue (setSem s core p (semTake x full)) core qi (nextInstr q)
  | _, _ => s

/-- SPOST (R201, R205). -/
def streamSpost (s : State) (core qi rd sa : Nat) (imm : BitVec 17) : State :=
  streamOp s core qi 0x31 rd sa imm (fun q =>
    let p := imm.toNat % 16
    match semPost (semAt s core p) (imm.getLsbD 4) with
    | none => overPost s core p q.key
    | some x => setQueue (setSem s core p x) core qi (nextInstr q))

/-- Whether handoff stores that a queue issued before, or their notice, are still on their way. -/
def handoffOpen (q : Queue) : Bool := q.unitDone || q.issued.any (fun t => dKind (descOf t.raw) == 3)

/-- VCRED (R201, R202): its notice follows the handoff stores of the same queue, for which the instruction waits. -/
def streamVcred (s : State) (core qi rd sa sb : Nat) : State :=
  match atInstr s core qi (icA 0x32 rd sa sb) with
  | none => s
  | some q =>
    let a := (selReg q sa).toNat
    let b := (selReg q sb).toNat
    let ctr := a / 2 ^ 19 % 64
    let amount := b % 2 ^ 32
    if a.testBit 25 ∨ a / 2 ^ 40 ≠ 0 ∨ amount = 0 ∨ a % 2 ^ 19 + amount > 2 ^ 19 then counterInvalid s core ctr amount q.key
    else if handoffOpen q then s
    else
      let n := noticeWord 1 qi false amount ctr (b / 2 ^ 32) (gaddrOf core (a % 2 ^ 19))
      let dest := a / 2 ^ 26 % 2 ^ 14
      let s := if stagedStore s core q then stageNotice s core q dest n else postNotice s core dest n
      setQueue s core qi (nextInstr q)

/-- HANDOFF_DATA_NOTICE (R187): the notice of a whole unit is posted, and the queue goes on. -/
def handoffNotice (s : State) (core qi : Nat) : State :=
  let q := queueAt s core qi
  if !queueRuns s core q ∨ !q.unitDone then s else goOn (postUnit s core qi) core qi

/-- TAGGED_ACCESS_ADMIT (R169): the tag that blocks an access of the queue has changed. -/
def taggedAdmit (s : State) (core qi : Nat) : State :=
  let q := queueAt s core qi
  match q.tagWait with
  | none => s
  | some (g, write, _) =>
    if q.state ≠ .running ∨ tagFull s core g = write then s
    else goOn (setQueue s core qi { q with tagWait := none }) core qi

/-! ### Stall timers (R170 to R172, R202) -/

/-- Whether the wait of a queue's next tile has a stall timer (R202). -/
def hasStallTimer (q : Queue) : Bool :=
  match q.wait with
  | .counter _ _ => true
  | .window _ => true
  | .semaphore _ _ _ => true
  | _ => false

/-- The queues of a core. -/
def coreQueues (s : State) (core : Nat) : List Queue := (List.range 8).map (queueAt s core)

/-- Whether a queue of the same command on the core is stalled on a translation fault, or the cluster is preempted or quiesced (R170). A cluster
is quiesced while its control core does not run or its clock is stopped (log 38). -/
def commandStalled (s : State) (core : Nat) (q : Queue) : Bool :=
  (coreQueues s core).any (fun r => r.key == q.key && r.state == .faulted) ||
    (queueHold s core q).any (fun h => h.paused || h.faulted) || !procRunning s (3 + clusterOf core) ||
    (clusterPower s (clusterOf core)).stopped

/-- Whether the stall timers of a queue's accesses are suspended: so, or while a store of the core to a vector engine is stalled by the package
handoff (R170). -/
def stallSuspended (s : State) (core : Nat) (q : Queue) : Bool :=
  commandStalled s core q || (coreQueues s core).any (fun r => r.handoff.isSome && r.state == .running)

/-- The timers of one queue with `n` ticks more (R170). -/
def runTimers (s : State) (n core : Nat) (q : Queue) : Queue :=
  if q.state = .free ∨ q.state = .parked then q
  else
    let on := !stallSuspended s core q && queueRuns s core q
    let more (x : Stall) : Stall := { x with ran := x.ran + n }
    { q with
      stall := if on && hasStallTimer q then more q.stall else q.stall
      tagWait := if on then q.tagWait.map (fun e => (e.1, e.2.1, more e.2.2)) else q.tagWait
      handoff := if commandStalled s core q then q.handoff else q.handoff.map more }

/-- What the counters of a cluster's blocks gain while time passes: cycles of an amount that only timing decides (R190, R227; log 14). -/
def countStalls (s : State) (core : Nat) (q : Queue) : State :=
  let g := clusterOf core
  let str := 0x4000 + g * 0x80
  let s := match q.tagWait with
    | some (_, write, _) => bumpFree s (0x3000 + g * 0x80) (if write then 0x30 else 0x28)
    | none => s
  let s := if q.state = .faulted then bumpFree s str 0x30 else s
  match q.wait with
  | .semaphore _ _ _ => if q.state = .running then bumpFree s str 0x48 else s
  | _ => s

/-- Plan steps whose own accesses wait on a fault stall their cluster's streams too (R227). -/
def countHoldStalls (s : State) : State :=
  s.cmds.foldl (fun s c => c.holds.foldl (fun s h => if h.faulted then bumpFree s (0x4000 + h.cluster * 0x80) 0x30 else s) s) s

/-- `n` ticks pass at the stream queues. -/
def stallTick (s : State) (n : Nat) : State :=
  let s := countHoldStalls (s.str.queues.foldl (fun s e => countStalls s (e.1 / 8) e.2) s)
  { s with str := { s.str with queues := s.str.queues.map (fun e => (e.1, runTimers s n (e.1 / 8) e.2)) } }

/-- A timer past its budget. -/
def overran (x : Stall) : Bool := decide (x.ran > x.budget)

/-- The package handoff address of the buffer whose store waits (R194). -/
def handoffBase (q : Queue) : Nat :=
  (descOf ((q.issued.find? (fun t => dKind (descOf t.raw) == 3)).getD (frontTile q)).raw).base

/-- What a HANG record of a queue names, as its address and first word: a blocked access its granule and tag; a handoff store the handoff, by
the address of its buffer there and the word 2; any other wait the core (R172, R415; log 38). None while no timer has passed its budget. -/
def hangPlace (s : State) (core : Nat) (q : Queue) : Option (Nat × Nat) :=
  match (q.tagWait.filter (fun e => overran e.2.2)).map (fun e => (gaddrOf core (e.1 * 256), bit (tagFull s core e.1))) with
  | some r => some r
  | none =>
    if q.handoff.any overran then some (handoffBase q, 2)
    else if hasStallTimer q && overran q.stall then some (gaddrOf core 0, 0)
    else none

/-- HANG (R172): a stall timer has passed its budget. Tags stand, and the command ends. -/
def hang (s : State) (core qi : Nat) : State :=
  let q := queueAt s core qi
  if q.state = .free ∨ q.state = .parked then s
  else match hangPlace s core q with
    | none => s
    | some (a, t) =>
      let s := report s {
        cause := 0x0A, source := core, key := some q.key, cluster := clusterOf core, unit := qi, addr := a, info0 := t }
      abortCmd (bumpSpd s (clusterOf core) 0x38 1) q.key 0x20

end Sys2Proof.Machine
end

