-- ==== Sys2Proof/Machine/Firmware.lean ====
section
/-! DEFINITION. Firmware processors, images, start-up, restarts, live update, the debug lock, the log and trace commands
(spec/14_firmware.md R356 to R385). -/
namespace Sys2Proof.Machine

/-! ### Processors (R356 to R358) -/

/-- The image kind a processor runs: SEC, PWR, SCH, CCC (R356). -/
def kindOf (i : Nat) : Nat := min i 3

/-- The processors of a kind. -/
def procsOf (kind : Nat) : List Nat := if kind = 3 then (List.range 32).map (3 + ·) else [kind]

/-- The code of a processor state (R383). -/
def procCode : ProcState → Nat
  | .reset => 0
  | .running => 1
  | .frozen => 2
  | .crashed => 3
  | .restarting => 4
  | .fenced => 5

/-- The bank a kind runs from. -/
def imgBank (s : State) (kind : Nat) : Nat := tget 0 s.fw.runBank kind

/-- No image. -/
def Image.none_ : Image := ⟨0, 0, 0, 0, 0, 0⟩

/-- The image of a kind in a bank. -/
def imageAt (s : State) (kind bank : Nat) : Image := tget Image.none_ s.fw.images (kind + 4 * bank)

/-- An image set or removed. -/
def setImage (s : State) (kind bank : Nat) (m : Image) : State :=
  { s with fw := { s.fw with images := tset Image.none_ s.fw.images (kind + 4 * bank) m } }

/-- The version a processor runs. -/
def versionOf (s : State) (i : Nat) : Nat := (imageAt s (kindOf i) (imgBank s (kindOf i))).version

/-- A processor moved to a state, with its FW_STATE record; the records that waited for it while it restarted are handed on (R358, R381,
R423). A fence is its source's too (R414). -/
def moveProc (s : State) (i : Nat) (st : ProcState) (cause pc : Nat) : State :=
  let p := procOf s i
  let s := setProc s i { p with state := st, down := if st = .running then false else p.down || st == .crashed || st == .fenced }
  let s := if st = .fenced then fenceSource s (0x8000 + i) else s
  let s := if st = .crashed ∨ st = .restarting then s else releaseCollected s i
  logAdd s 0x0010 0x8000 0 (natBytes 1 i ++ natBytes 1 (procCode p.state) ++ natBytes 1 (procCode st) ++ natBytes 1 cause ++
    natBytes 4 (versionOf s i) ++ natBytes 8 pc)

/-- Watchdog periods in ns (R356). -/
def watchdogNs (i : Nat) : Nat := if i = 0 then 100000000 else if i = 1 then 5000000 else if i = 2 then 2000000 else 1000000

/-- The queues of a cluster that a command runs, given back: what the command goes on from is saved in its hold. -/
def freeQueues (s : State) (k g : Nat) : State :=
  { s with str := { s.str with queues := tmap Queue.reset (fun i q =>
      if i / 64 = g ∧ runsFor k q then { Queue.reset with gen := q.gen } else q) s.str.queues } }

/-- A plan step abandoned on one cluster: what it staged, its queues, group, waits and padding go; the step before stands, the pages its
walk took are those its replay takes, and the cluster yields no sooner than the replay's commit (R221, R368, R369, R375). -/
def abandonStep (s : State) (k g : Nat) : State :=
  let s := updCmd s k (fun c => { c with holds := c.holds.map (fun h =>
    if h.cluster = g ∧ h.recState ≠ 1 then
      { h with
        unit := none, staged := [], streamed := [], emptied := [], cores := [], locked := none, faulted := false, slots := []
        replaying := h.replaying || h.unit.isSome }
    else h) })
  let s := dropWaits (freeQueues s k g) (fun a => a.key == k && a.cluster == g && a.restore.isNone)
  let keep (w : Waiter) : Bool := w.key ≠ k || w.cluster ≠ g
  { s with
    str := { s.str with groups := s.str.groups.filter (fun e => decide (e.1 / 4 ≠ g) || e.2.all (fun x => x.key ≠ k)) }
    xlt := { s.xlt with
      miss := s.xlt.miss.map (fun e => (e.1, e.2.map (fun m => { m with waiters := m.waiters.filter keep })))
      pend := s.xlt.pend.map (fun e => (e.1, e.2.map (fun m => { m with waiters := m.waiters.filter keep })))
      missRegs := s.xlt.missRegs.filter (fun e => keep e.2.2) } }

/-- FW_START ends ABORTED_FAULT: every processor returns to RESET, the state to LOAD; the images stay (R365). -/
def abortStart (s : State) : State :=
  let s := match s.fw.starting with
    | some k => endCmd s k 0x20 {}
    | none => s
  let s := (List.range 35).foldl (fun s i => if (procOf s i).state = .fenced then s else moveProc s i .reset 0 0) s
  { s with dev := .load, fw := { s.fw with starting := none } }

/-- What a handover in progress, an unfinished drain and the lease make of the device state once firmware is whole again (R348, R350, R370,
R377). -/
def returnState (s : State) : DevState :=
  if s.fw.handover.isSome then .restarting
  else if s.lease.state = .orphaned then .orphaned
  else if (drainingCommit s).isSome then .draining
  else .ready

/-- What a crash does beyond its processor (R369 to R373). -/
def containCrash (s : State) (i : Nat) : State :=
  match i with
  | 0 => halt s
  | 1 => capAll { s with pwr := { s.pwr with entering := [] } }
  | 2 =>
    if s.dev = .fwHalt then s
    else if (procOf s 2).state = .fenced then halt s
    else { s with dev := .restarting }
  | _ => s

/-- FW_HANDOVER is abandoned: it ends ABORTED_FAULT, and every frozen processor restarts from its own bank under the crash path (R375). -/
def abortHandover (s : State) : State :=
  let s := match s.fw.starting with
    | some k => endCmd s k 0x20 {}
    | none => s
  let s := { s with fw := { s.fw with starting := none, handover := none } }
  let s := if procRunning s 2 ∧ s.dev = .restarting then { s with dev := returnState s } else s
  (List.range 35).foldl (fun s i => if (procOf s i).state = .frozen then containCrash (moveProc s i .crashed 0 0) i else s) s

/-- A new image that crashes on probation is rolled back: its kind restarts from the bank before, the other processors that run it under the
crash path with it (R378). -/
def rollBack (s : State) (i pc : Nat) : State :=
  let kind := kindOf i
  let v := versionOf s i
  if s.now < tget 0 s.fw.probation kind then
    let s := { s with fw := { s.fw with
        runBank := tset 0 s.fw.runBank kind (1 - imgBank s kind)
        probation := tset 0 s.fw.probation kind 0 } }
    let s := report s { cause := 0x20, source := 0x8000 + i, addr := pc, info0 := kind, info1 := v }
    (procsOf kind).foldl (fun s j => if j ≠ i ∧ (procOf s j).state = .running then moveProc s j .crashed 0 0 else s) s
  else s

/-- A crash counted (R358). -/
def countCrash (s : State) (i cause : Nat) : State :=
  let p := procOf s i
  setProc s i { p with
    lastCause := cause
    crashes := min (p.crashes + 1) 0xFFFFFFFF
    crashTimes := (s.now :: p.crashTimes).take 3
    lastCrash := s.now }

/-- A processor out of work: held in reset, counted, contained, and what it handled forgotten (R357, R358, R413). Before READY it ends
FW_START; of a FROZEN processor it ends FW_HANDOVER; before the first kick after a restart it fences. -/
def stopProc (s : State) (i cause pc : Nat) : State :=
  let p := procOf s i
  let s := countCrash s i cause
  let s := { s with ras := { s.ras with handlers := tset Handler.reset s.ras.handlers i Handler.reset } }
  if s.dev = .starting then abortStart (moveProc s i .crashed cause pc)
  else
    let s := moveProc s i (if p.state = .running ∧ !p.kicked then .fenced else .crashed) cause pc
    let s := rollBack s i pc
    let s := if p.state = .frozen then abortHandover s else s
    containCrash s i

/-- The record of a crash (R357, R418). -/
def crashRecord (s : State) (i cause pc : Nat) : State :=
  report s {
    cause := 0x1F, source := 0x8000 + i, cluster := if i ≥ 3 then i - 3 else 0xFF, addr := pc, info0 := cause
    info1 := versionOf s i }

/-- A crash (R357, R358), recorded. -/
def crashProc (s : State) (i cause pc : Nat) : State :=
  let p := procOf s i
  if i ≥ 35 ∨ (p.state ≠ .running ∧ p.state ≠ .frozen) then s else stopProc (crashRecord s i cause pc) i cause pc

/-- The processors whose handler's error has escalated go out of work, to be restarted by the security core; the restart counts as a crash
does (R413). -/
def restartHandlers (s : State) : State :=
  s.ras.restarts.foldl (fun s i => if (procOf s i).state = .running then stopProc s i 0 0 else s)
    { s with ras := { s.ras with restarts := [] } }

/-- WATCHDOG_KICK (R357, R358). -/
def execWatchdogKick (proc : BitVec 6) (s : State) : Host.Outcome State Fault Refusal :=
  let i := proc.toNat
  let p := procOf s i
  .next (
    if i ≥ 35 then s
    else if p.state = .running ∨ p.state = .frozen then setProc s i { p with lastKick := s.now, kicked := true }
    else setProc s i { p with stray := min (p.stray + 1) 0xFF })

/-- WATCHDOG_EXPIRY (R357). -/
def execWatchdogExpiry (proc : BitVec 6) (pc : BitVec 64) (s : State) : Host.Outcome State Fault Refusal :=
  let i := proc.toNat
  .next (if s.now ≥ (procOf s i).lastKick + ticksCeil (watchdogNs i) then crashProc s i 1 pc.toNat else s)

/-- TRAP (R357). -/
def execTrap (proc : BitVec 6) (pc : BitVec 64) (inHandler : Bool) (s : State) : Host.Outcome State Fault Refusal :=
  .next (crashProc s proc.toNat (if inHandler then 3 else 2) pc.toNat)

/-- HALT_WRITE (R357). -/
def execHaltWrite (proc : BitVec 6) (pc : BitVec 64) (s : State) : Host.Outcome State Fault Refusal :=
  .next (crashProc s proc.toNat 5 pc.toNat)

/-- LOCAL_MEMORY_UE (R357, R407). -/
def execLocalMemoryUe (proc : BitVec 6) (pc : BitVec 64) (s : State) : Host.Outcome State Fault Refusal :=
  let i := proc.toNat
  .next (
    if i < 35 ∧ ((procOf s i).state = .running ∨ (procOf s i).state = .frozen) then
      crashProc (report s { cause := 0x02, source := 0x8000 + i, info0 := 6 * 65536 }) i 4 pc.toNat
    else s)

/-! ### Images (R361, R362) -/

/-- Where an image lies in the firmware region (R359). -/
def bankAddr (kind bank : Nat) : Nat := fwBase 0 + 0x1A00000 + bank * 0x800000 + kind * 0x200000

/-- A little-endian field of an image. -/
def imgField (bs : List Byte) (o n : Nat) : Nat := bytesNat ((bs.drop o).take n)

/-- Bytes of an image that must be 0. -/
def imgZero (bs : List Byte) (o n : Nat) : Bool := ((bs.drop o).take n).all (· == 0)

/-- The checks of R362 in order: the cause of the first that fails, or what the island keeps of the image. -/
def verifyImage (kind n : Nat) (bs : List Byte) : Except Nat Image :=
  let size := imgField bs 0x08 4
  let key := (bs.drop 0x20).take 96
  let svn := imgField bs 0x14 2
  let digest := sha384 (bs.take (n - 96))
  let known := (List.finRange 4).any (fun i => !Config.fusedKeyRevoked i && sha384 key == (Config.fusedKeyDigest i).toNat)
  let sig := bs.drop (n - 96)
  if imgField bs 0 4 ≠ 0x5746524B ∨ imgField bs 4 2 ≠ 1 ∨ imgZero bs 0x1A 6 = false ∨ imgZero bs 0x80 128 = false then .error 1
  else if imgField bs 6 1 ≠ kind ∨ imgField bs 7 1 ≠ Config.kerur.code then .error 2
  else if size ≠ n ∨ size < 512 ∨ size > 2097152 ∨ imgField bs 0x0C 4 ≥ size - 96 then .error 3
  else if !known then .error 4
  else if svn < (Config.fusedMinSvn (Fin.ofNat 4 kind)).toNat then .error 5
  else if !ecdsaValid (beNat (key.take 48)) (beNat (key.drop 48)) digest (beNat (sig.take 48)) (beNat (sig.drop 48)) then .error 6
  else .ok ⟨imgField bs 0x10 4, svn, imgField bs 0x16 2, imgField bs 0x18 2, n, sha384 bs⟩

/-- An image read from host memory. -/
def hostImage (s : State) (addr n : Nat) : List Byte := (s.hostMem.reads addr n).map (·.1)

/-- A verified image in a bank: its bytes in the firmware region, its digest in the island, its FW_IMAGE record. -/
def storeImage (s : State) (k kind bank : Nat) (m : Image) (bs : List Byte) : State :=
  let s := setImage (physWrite { die := 0, key := some k } (bankAddr kind bank) bs false s) kind bank m
  logAdd s 0x0011 0x8000 0 (natBytes 1 kind ++ natBytes 1 bank ++ natBytes 2 m.svn ++ natBytes 4 m.version ++ natBytes 2 m.abi ++
    natBytes 2 m.hov)

/-- FW_LOAD (R363). -/
def fwLoadDef : OpDef where
  check k := do
    let s ← get
    let p := slotAt s k
    let src := param p 0 64
    let n := param p 8 32
    let kind := param p 0xC 8
    checkParam (decide (src % 64 = 0)) 0 0 64 2 src 64
    checkRange 8 0 32 n 512 2097152
    checkParam (decide (kind ≤ 3)) 0xC 0 8 6 kind 3
    reservedParam p 0xD 0 24
    reservedFrom p 0x10
    match verifyImage kind n (hostImage s src n) with
    | .ok _ => return []
    | .error c =>
      set (setImage s kind 0 Image.none_)
      throw (.reject { code := 0x13, keep := true, result := BitVec.ofNat 64 (c * 2 ^ 56) })
  body k := do
    let s ← get
    let p := slotAt s k
    let kind := param p 0xC 8
    let bs := hostImage s (param p 0 64) (param p 8 32)
    match verifyImage kind (param p 8 32) bs with
    | .error _ => abortWith 0x20
    | .ok m =>
      set (storeImage s k kind 0 m bs)
      return { result := BitVec.ofNat 64 (m.version + m.svn * 2 ^ 32 + kind * 2 ^ 48) }

/-! ### Start-up (R364, R365) -/

/-- The retained copy of a processor's image (R362); the stacks of the firmware region that are fenced give poison (R414). -/
def retainedImage (s : State) (i : Nat) : List (Byte × Bool) :=
  nearReads s (bankAddr (kindOf i) (imgBank s (kindOf i))) (imageAt s (kindOf i) (imgBank s (kindOf i))).bytes

/-- A processor's image loaded into its local memory (R356, R365). -/
def loadLocal (s : State) (i : Nat) : State :=
  { s with fw := { s.fw with localMem := tset [] s.fw.localMem i ((retainedImage s i).map (·.1)) } }

/-- A processor released with a fresh image: it runs and its watchdog starts (R358). -/
def releaseProc (s : State) (i : Nat) : State :=
  let s := moveProc (loadLocal s i) i .running 0 0
  setProc s i { procOf s i with lastKick := s.now, kicked := true }

/-- FW_START (R364): the security core loads the images and releases the island's processors (R365 step 5); what PWR_MODE left takes
effect (R397). -/
def fwStartDef : OpDef where
  check k := do
    let s ← get
    reservedFrom (slotAt s k) 0
    if (List.range 4).any (fun i => (imageAt s i 0).bytes = 0) then throw (.reject busyReject)
    match (List.range 4).find? (fun i => (imageAt s i 0).abi ≠ (imageAt s 0 0).abi) with
    | some i => throw (.reject { code := 0x13, result := BitVec.ofNat 64 (i * 2 ^ 56) })
    | none => return []
  body k := do
    let s ← get
    let pwr := match s.pwr.atStart with
      | some (e, c, t, l) => { s.pwr with envEff := e, envCeil := c, tjEff := t, tjCeil := l, atStart := none }
      | none => s.pwr
    let s := { s with dev := .starting, pwr := pwr, fw := { s.fw with starting := some k, runBank := [], probation := [] } }
    set ([0, 1, 2].foldl releaseProc s)
    throw (.park .inProgress)

/-- Start-up completed (R365 steps 6 to 8): the clusters powered with their scratchpads initialised, their control cores released, the lease
HELD, READY. -/
def finishStart (s : State) (k : Nat) : State :=
  let s := (List.range 32).foldl (fun s g =>
    releaseProc (setCluster (clearScratchpads s g) g { clusterPower s g with powered := true, k := 0 }) (3 + g)) s
  let s := renewLease { s with dev := .ready, fw := { s.fw with starting := none } }
  completeCmd s k { result := BitVec.ofNat 64 ((imageAt s 0 0).abi + 32 * 65536) }

/-! ### Restarts (R358, R369 to R373) -/

/-- The retained copy of a processor's image agrees with its digest (R362). -/
def retainedGood (s : State) (i : Nat) : Bool :=
  let bs := retainedImage s i
  bs.all (fun b => !b.2) && sha384 (bs.map (·.1)) == (imageAt s (kindOf i) (imgBank s (kindOf i))).digest

/-- Whether the last three crashes of a processor lie within 1 s (R358). -/
def thirdCrash (p : Proc) : Bool :=
  p.crashTimes.length == 3 && decide (p.crashTimes.headD 0 ≤ p.crashTimes.getLastD 0 + ticksCeil 1000000000)

/-- A crashed processor restarted, or fenced; what fencing a scheduler or security core does (R358, R373). A retained image that does not
agree is a crash of cause IMAGE (R357). -/
def restartProc (s : State) (i : Nat) : State :=
  let fence (s : State) (cause : Nat) : State :=
    let s := moveProc (setProc s i { procOf s i with lastCause := cause }) i .fenced cause 0
    if i = 0 ∨ i = 2 then halt s else s
  if thirdCrash (procOf s i) then fence s (procOf s i).lastCause
  else
    let s := moveProc s i .restarting 0 0
    if !retainedGood s i then fence (countCrash (crashRecord s i 6 0) i 6) 6
    else
      let s := moveProc (loadLocal s i) i .running 0 0
      setProc s i { procOf s i with lastKick := s.now, kicked := false }

/-- Whether the security core works: it halts after a FATAL record (R411). -/
def secWorks (s : State) : Bool := procRunning s 0 && s.ras.fatals == 0

/-- Whether the restarter of a processor can restart it now: the security core, or for it the island hardware. -/
def mayRestart (s : State) (i : Nat) : Bool := (procOf s i).state == .crashed && (i == 0 || secWorks s)

/-- The address of a copy of a step record (R359). -/
def recordAddr (g r copy : Nat) : Nat := fwBase (g / 4) + 0x1800000 + g % 4 * 0x80000 + r * 0x20000 + copy * 0x10000

/-- Bytes of a step record. -/
def recordBytes : Nat := 0x8C48

/-- The ckpt_seq of a copy whose tail agrees with it, 0 for another (R367). -/
def copySeq (s : State) (g r copy : Nat) : Nat :=
  let word (o : Nat) : Nat := bytesNat ((nearReads s (recordAddr g r copy + o) 8).map (·.1))
  if word 0 = word 0x8C40 then word 0 else 0

/-- The current copy of a step record (R367): the valid one with the larger ckpt_seq; a poisoned copy is invalid (R410). -/
def currentRecord (s : State) (g r : Nat) : Option (List Byte) :=
  let read (c : Nat) : Option (Nat × List Byte) :=
    let bs := nearReads s (recordAddr g r c) recordBytes
    let d := bs.map (·.1)
    if bs.any (·.2) ∨ bytesNat (d.take 8) ≠ bytesNat (d.drop 0x8C40) ∨ bytesNat (d.take 8) = 0 then none
    else some (bytesNat (d.take 8), d)
  match read 0, read 1 with
  | some a, some b => some (if a.1 > b.1 then a.2 else b.2)
  | some a, none => some a.2
  | none, some b => some b.2
  | none, none => none

/-- Tags and semaphore pairs of a command's footprint set from its step record (R188, R205, R369). -/
def restoreMarks (s : State) (foot : Footprint) (g : Nat) (rec_ : List Byte) : State :=
  (List.range 8).foldl (fun s i =>
    let core := 8 * g + i
    let s := (List.range 2048).foldl (fun s n =>
      if foot.words.any (fun w => decide (w.1 ≤ n * 256 + 255 ∧ n * 256 ≤ w.2)) then
        setTags s core n 1 ((rec_.getD (0x40 + 256 * i + n / 8) 0).getLsbD (n % 8))
      else s) s
    (List.range 16).foldl (fun s n =>
      if foot.sems.testBit n then
        setSem s core n (semOf (BitVec.ofNat 64 (bytesNat ((rec_.drop (0x840 + 128 * i + 8 * n)).take 8))))
      else s) s) s

/-- A command's hold on a cluster taken up again by a restarted control core (R369): without a valid record, or with poison in its pin list
(R410), the command ends; a step that was not committed is abandoned and replays. -/
def resumeHold (s : State) (k g : Nat) : State :=
  match cmdOf s k with
  | none => s
  | some c =>
    match c.holds.find? (fun h => h.cluster == g) with
    | none => s
    | some h =>
      let list := pinListAddr g h.rslot
      if (nearReads s list (4 * h.pins.length)).any (·.2) then
        abortCmd (report s { cause := 0x26, source := 0x8003 + g, key := some k, cluster := g, addr := list }) k 0x20
      else if h.ckptSeq = 0 then abandonStep s k g
      else match currentRecord s g h.rslot with
        | none => abortCmd s k 0x20
        | some r => abandonStep (restoreMarks s (cmdFoot s c h) g r) k g

/-- The control core of a cluster takes up every command that holds the cluster (R369). -/
def resumeCluster (s : State) (g : Nat) : State := (holders s g).foldl (fun s c => resumeHold s c.key g) s

/-- A plan step discarded and replayed from the last commit, with the tags and pairs of that commit's record (R65, R205). -/
def replayStep (s : State) (k g : Nat) : State :=
  match cmdOf s k, (cmdOf s k).bind (fun c => c.holds.find? (fun h => h.cluster == g)) with
  | some c, some h =>
    let s := if h.ckptSeq = 0 then s else (currentRecord s g h.rslot).elim s (restoreMarks s (cmdFoot s c h) g)
    abandonStep s k g
  | _, _ => s

/-- Whether a control core is restarted now: in ascending order of cluster (R375). -/
def cccMayRestart (s : State) (g : Nat) : Bool :=
  mayRestart s (3 + g) && (List.range g).all (fun j => (procOf s (3 + j)).state ≠ .crashed)

/-- A control core restarted (R369). -/
def cccRestart (s : State) (g : Nat) : State :=
  let s := restartProc s (3 + g)
  if procRunning s (3 + g) then resumeCluster s g else s

/-- Whether the scheduler's journal holds poison: its own, or that of a fenced stack (R359, R410, R414). -/
def journalLost (s : State) : Bool :=
  let a := fwBase 0 + 0x2F00000
  s.pmem.chk.any (fun e => decide (a ≤ e.1 ∧ e.1 < a + 0x400000) && (s.pmem.read e.1).2) ||
    (List.range 4).any (fun j => isFenced s (0xC080 + j))

/-- The scheduler reads its journal (R370): poison there is the loss of state that the device needs (R410, R418; log 17). -/
def readJournal (s : State) : State :=
  if journalLost s then report s { cause := 0x31, source := 0x8002, addr := fwBase 0 + 0x2F00000, info0 := 1 } else s

/-- The scheduler restarted (R370). -/
def schRestart (s : State) : State :=
  let s := restartProc s 2
  if !procRunning s 2 then s
  else
    let s := readJournal s
    if s.dev = .restarting then { s with dev := returnState s } else s

/-- PWR_RESTART (R371). -/
def execPwrRestart (s : State) : Host.Outcome State Fault Refusal := .next (if mayRestart s 1 then restartProc s 1 else s)

/-- SEC_RESTART (R372): the lease timer runs on from where it stood. After a FATAL record the device stays halted (R411). -/
def execSecRestart (s : State) : Host.Outcome State Fault Refusal :=
  .next (
    if mayRestart s 0 then
      let s := restartProc s 0
      if !procRunning s 0 then s
      else
        let l := s.lease
        let s := match l.suspendedAt with
          | some t => { s with lease := { l with expiry := l.expiry + (s.now - t), suspendedAt := none } }
          | none => s
        if s.ras.fatals > 0 ∨ (procOf s 2).state = .fenced then s
        else { s with dev := if procRunning s 2 then returnState s else .restarting }
    else s)

/-- PROBATION_END (R378). -/
def execProbationEnd (kind : BitVec 2) (s : State) : Host.Outcome State Fault Refusal :=
  let e := tget 0 s.fw.probation kind.toNat
  .next (if e ≠ 0 ∧ s.now ≥ e then { s with fw := { s.fw with probation := tset 0 s.fw.probation kind.toNat 0 } } else s)

/-- ISLAND_POWER_ON (R365): the island starts afresh; memories, the model's queue and the free values go on. -/
def execIslandPowerOn (s : State) : Host.Outcome State Fault Refusal :=
  .next { State.reset with pmem := s.pmem, hostMem := s.hostMem, freeCtr := s.freeCtr, pending := s.pending }

/-! ### Live update (R376 to R379) -/

/-- The image of a kind that a FW_HANDOVER brings, verified (R376). -/
def newImage (s : State) (p : SlotWord) (kind : Nat) : Except Nat Image :=
  let o := 8 + 16 * kind
  verifyImage kind (param p (o + 8) 32) (hostImage s (param p o 64) (param p (o + 8) 32))

/-- REJECTED_VERIFY of FW_HANDOVER: the failing kind and its cause (R376). -/
def handoverReject {α : Type} (kind cause : Nat) : Act α :=
  throw (.reject { code := 0x13, result := BitVec.ofNat 64 (kind * 2 ^ 56 + cause * 2 ^ 48) })

/-- FW_HANDOVER (R376, R377): verified, the device RESTARTING. A difference of abi has no cause of its own (free, log 5). -/
def fwHandoverDef : OpDef where
  check k := do
    let s ← get
    let p := slotAt s k
    let mask := param p 0 8
    checkParam (decide (mask % 16 ≠ 0)) 0 0 8 1 mask 1
    reservedParam p 0 4 4
    reservedParam p 1 0 56
    for i in List.range 4 do
      let o := 8 + 16 * i
      if mask.testBit i then
        reservedParam p (o + 12) 0 32
      else
        checkParam (param p o 64 == 0) o 0 64 1 (param p o 64) 0
        checkParam (param p (o + 8) 64 == 0) (o + 8) 0 64 1 (param p (o + 8) 64) 0
    reservedFrom p 0x48
    for i in List.range 4 do
      if mask.testBit i then
        match newImage s p i with
        | .ok _ => pure ()
        | .error c => handoverReject i c
    let of (i : Nat) : Image := if mask.testBit i then (newImage s p i).toOption.getD Image.none_ else imageAt s i (imgBank s i)
    for i in List.range 4 do
      if (of i).abi ≠ (of 0).abi then handoverReject i ((Config.freeWord s.freeCtr).toNat % 256)
    for i in List.range 4 do
      if mask.testBit i then
        let old := (imageAt s i (imgBank s i)).hov
        if (of i).hov ≠ old ∧ (of i).hov ≠ old + 1 then handoverReject i 7
    return []
  body k := do
    let s ← get
    let p := slotAt s k
    let mask := param p 0 8
    let s := (List.range 4).foldl (fun s i =>
      if mask.testBit i then
        match newImage s p i with
        | .ok m => storeImage s k i (1 - imgBank s i) m (hostImage s (param p (8 + 16 * i) 64) m.bytes)
        | .error _ => s
      else s) s
    set { s with dev := .restarting, fw := { s.fw with starting := some k, handover := some (mask, 0) } }
    throw (.park .inProgress)

/-- The header of the handover record (R379). -/
def handoverHeader (s : State) (mask : Nat) : List Byte :=
  let st := match s.lease.state with
    | .lapsed => 1
    | .orphaned => 2
    | _ => 0
  natBytes 4 0x44564F48 ++ natBytes 2 (imageAt s 2 (imgBank s 2)).hov ++ natBytes 1 mask ++ natBytes 1 st ++ natBytes 8 s.now ++
    natBytes 8 s.lease.expiry ++
    natBytes 8 (s.cfg.epoch.toNat + 256 * (oldestEpoch s).toNat + 65536 * s.pgk.epoch.toNat) ++
    natBytes 8 ((s.sessions.filter (fun e => e.2.state ≠ .free)).length + 65536 * s.cmds.length) ++ natBytes 16 0 ++ natBytes 8 s.now

/-- The kinds of a mask, in the order of replacement: PWR, CCC, SCH, SEC (R377). -/
def maskKinds (mask : Nat) : List Nat := [1, 3, 2, 0].filter (fun i => mask.testBit i)

/-- The handover record (R359). -/
def handoverAddr : Nat := fwBase 0 + 0x2E00000

/-- Whether the handover record is complete: none of its header poison, and done as frozen_at (R379, R410). -/
def handoverWhole (s : State) : Bool :=
  let bs := nearReads s handoverAddr 64
  bs.all (fun b => !b.2) && (bs.drop 0x38).map (·.1) == ((bs.drop 8).take 8).map (·.1)

/-- The freeze (R377 step 2): the handover record is written and the processors of the mask are FROZEN. While the power-management core's image
is replaced, the limiter holds the clocks and no power state changes (R371). -/
def freeze (s : State) (mask : Nat) : State :=
  let s := nearWrite s handoverAddr (handoverHeader s mask) false
  let s := ((maskKinds mask).flatMap procsOf).foldl (fun s i => if procRunning s i then moveProc s i .frozen 0 0 else s) s
  let s := if mask.testBit 1 then capAll { s with pwr := { s.pwr with entering := [] } } else s
  { s with fw := { s.fw with handover := some (mask, s.now + 1) } }

/-- The replacement (R377 steps 3 and 4): a new control-core image starts from its step records (R369); each kind runs from its other bank,
on probation for 1 s (R378). A new scheduler that finds the record incomplete starts from the journal (R379). -/
def finishHandover (s : State) (k mask : Nat) : State :=
  let s := (maskKinds mask).foldl (fun s i =>
    let s := { s with fw := { s.fw with
        runBank := tset 0 s.fw.runBank i (1 - imgBank s i)
        probation := tset 0 s.fw.probation i (s.now + ticksCeil 1000000000) } }
    (procsOf i).foldl (fun s j =>
      if (procOf s j).state = .frozen then
        let s := releaseProc s j
        if j ≥ 3 then resumeCluster s (j - 3) else s
      else s) s) s
  let s := { s with fw := { s.fw with handover := none } }
  let s := if mask.testBit 2 ∧ !handoverWhole s then readJournal s else s
  if s.dev ≠ .restarting then s
  else
    let s := { s with dev := returnState s, fw := { s.fw with starting := none } }
    let banks := (List.range 4).foldl (fun a i => a + imgBank s i * 2 ^ i) 0
    completeCmd s k { result := BitVec.ofNat 64 (mask + 256 * banks) }

/-- Whether every cluster is at a plan-step boundary (R377 step 1). -/
def allAtBoundary (s : State) : Bool := s.cmds.all (fun c => c.stage ≠ .running || atBoundary c)

/-- One tick of the timebase (log 15): handlers end the handling in hand (R413; log 63), stall timers and waits for link credit count, writes
admitted before complete (R189), queued log records are written (R381), FW_START and, while the security core works, FW_HANDOVER go on. -/
def tick (s : State) : State :=
  let s := countCreditWait (noteShares s)
  let s := completeWrites (stallTick (serveHandlers (logDrain { s with now := s.now + 1 })) 1) (fun _ => true)
  let sec := (procRunning s 0 || (procOf s 0).state == .frozen) && s.dev == .restarting
  match s.fw.starting, s.fw.handover with
  | some k, none => if s.dev = .starting then finishStart s k else s
  | some k, some (mask, t) =>
    if t = 0 then (if allAtBoundary s ∧ sec ∧ procRunning s 2 then freeze s mask else s)
    else if sec then finishHandover s k mask else s
  | none, _ => s

/-! ### The debug lock (R380) -/

/-- The DEBUG record. -/
def debugRecord (s : State) (what : Nat) : State := logAdd s 0x0020 0x8000 0 (natBytes 1 what ++ natBytes 1 1)

/-- DEBUG_UNLOCK (R380). -/
def execDebugUnlock (s : State) : Host.Outcome State Fault Refusal :=
  .next (
    if cfgVal s 0xB000 0 = 1 ∧ !s.host.debugUnlocked ∧ secWorks s then
      debugRecord { s with host := { s.host with debugUnlocked := true } } 1
    else s)

/-- DEBUG_LOCK (R380): the TAP falls back to BYPASS (R324). -/
def execDebugLock (s : State) : Host.Outcome State Fault Refusal :=
  .next (
    if cfgVal s 0xB000 0 = 2 ∧ s.host.debugUnlocked ∧ secWorks s then
      debugRecord { s with host := { s.host with debugUnlocked := false, tapIr := 0 } } 2
    else s)

/-! ### LOG_READ (R382, R383) -/

/-- The firmware status block (R383). -/
def fwStatusBlock (s : State) : List Byte :=
  natBytes 8 s.now ++ natBytes 1 35 ++ natBytes 7 0 ++
    (List.range 35).flatMap (fun i =>
      let p := procOf s i
      let kind := kindOf i
      natBytes 4 (p.lastCrash / 65536) ++ natBytes 1 p.stray ++
        natBytes 1 (imgBank s kind + 2 * bit (decide (s.now < tget 0 s.fw.probation kind))) ++ natBytes 1 p.lastCause ++
        natBytes 1 (procCode p.state) ++ natBytes 4 p.crashes ++ natBytes 4 (versionOf s i))

/-- LOG_READ and LOG_STATUS (R382). -/
def logReadDef : OpDef where
  need p := if paramBit p 0xC 0 then 576 else 64 * param p 8 32
  check k := do
    let p := slotAt (← get) k
    let st := paramBit p 0xC 0
    let from_ := param p 0 48
    let n := param p 8 32
    checkParam (!st || from_ == 0) 0 0 48 1 from_ 0
    reservedParam p 0 48 16
    checkRange 8 0 32 n (bit (!st)) (if st then 0 else 65536)
    reservedParam p 0xC 1 31
    reservedFrom p 0x10
    return []
  body k := do
    let s ← get
    let p := slotAt s k
    if paramBit p 0xC 0 then longAct k (fwStatusBlock s) {}
    else
      let from_ := param p 0 48
      let lost := s.log.ring.head?.any (fun r => decide (from_ < r.serial))
      let rs := (s.log.ring.filter (fun r => decide (from_ ≤ r.serial))).take (param p 8 32)
      let next := match rs.getLast? with
        | some r => r.serial + 1
        | none => from_
      longAct k (rs.flatMap logBytes) { result := BitVec.ofNat 64 (next % 2 ^ 48 + (if lost then 2 ^ 63 else 0)) }

/-! ### TRACE_CTL (R385) -/

/-- The IDs of a range. -/
def traceMask (first last : Nat) : BitVec 65536 := BitVec.ofNat 65536 ((2 ^ (last + 1 - first) - 1) * 2 ^ first)

/-- The number of enabled IDs. -/
def traceCount (t : BitVec 65536) : Nat := ((List.range 65536).filter (fun i => t.getLsbD i)).length

/-- TRACE_CTL (R385). -/
def traceCtlDef : OpDef where
  check k := do
    let p := slotAt (← get) k
    let op := param p 0 8
    let n := param p 1 8
    checkParam (decide (op ≤ 3)) 0 0 8 6 op 3
    let most := if op ≥ 2 then 0 else 16
    checkParam (decide (n ≤ most)) 1 0 8 1 n most
    reservedParam p 2 0 48
    for i in List.range 16 do
      let r := param p (8 + 4 * i) 32
      if i < n then
        let first := r % 65536
        checkParam (decide (r / 65536 ≥ first)) (8 + 4 * i) 16 16 1 (r / 65536) first
      else checkParam (r == 0) (8 + 4 * i) 0 32 3 r 0
    reservedFrom p 0x48
    return []
  body k := do
    let s ← get
    let p := slotAt s k
    let ranges := (List.range (param p 1 8)).map (fun i => let r := param p (8 + 4 * i) 32; (r % 65536, r / 65536))
    let on := s.log.traceOn
    let on' := match param p 0 8 with
      | 0 => ranges.foldl (fun t r => t ||| traceMask r.1 r.2) on
      | 1 => ranges.foldl (fun t r => t &&& ~~~(traceMask r.1 r.2)) on
      | 2 => 0
      | _ => on
    set { s with log := { s.log with traceOn := on' } }
    return { result := BitVec.ofNat 64 (traceCount on') }

end Sys2Proof.Machine
end

