-- ==== Sys2Proof/Machine/Attention.lean ====
section
/-! DEFINITION. The arithmetic of compute commands: masks, the softmax engine, combines, the fused operation, the row reduction, rotary
encoding and the backward softmax (spec/03_score_array.md, spec/04_attention.md). -/
namespace Sys2Proof.Machine

/-! ### Masks (R81, R82) -/

/-- The mask parameters of a command (R98). -/
structure MaskForm where
  mode : Nat
  window : Bool
  waymarks : Bool
  gridBase : Nat
  gridRows : Nat
  gridCols : Nat
  radT : Nat
  radR : Nat
  radC : Nat
  deriving DecidableEq, Repr

/-- Grid coordinates of a position, none for a prefix position (R81). -/
def gridOf (base rows cols p : Nat) : Option (Nat × Nat × Nat) :=
  if p < base then none
  else
    let n := p - base
    some (n / (rows * cols), n / cols % rows, n % cols)

/-- A distance within a radius; 0xFFFF is unbounded (R82). -/
def within (r a b : Nat) : Bool := r == 0xFFFF || decide ((a - b) + (b - a) ≤ r)

/-- Whether a key position is allowed for a query position (R82). -/
def allowed (m : MaskForm) (kvEnd : Nat) (marks : List Nat) (q k : Nat) : Bool :=
  let gq := gridOf m.gridBase m.gridRows m.gridCols q
  let gk := gridOf m.gridBase m.gridRows m.gridCols k
  let causal := match m.mode, gk, gq with
    | 1, _, _ => decide (k ≤ q)
    | 2, none, _ => true
    | 2, some a, some b => decide (a.1 ≤ b.1)
    | 2, some _, none => decide (k ≤ q)
    | _, _, _ => true
  let near := match gq, gk with
    | some a, some b =>
      (within m.radT a.1 b.1 && within m.radR a.2.1 b.2.1 && within m.radC a.2.2 b.2.2) ||
        (m.waymarks && (marks.contains q || marks.contains k))
    | _, _ => true
  decide (k < kvEnd) && causal && (!m.window || near)

/-! ### Formats of the two products (R36, R75) -/

/-- The fmt code of the probabilities for a value format (R75). -/
def probFmt (fv : Nat) : Nat := if fv = 2 then 2 else if isNarrowFloat fv then 3 else 1

/-- The formats and passes of an attention command. -/
structure AttnForm where
  d : Nat
  fq : Nat
  fk : Nat
  passesQk : Nat
  passesPv : Nat
  /-- the scale `c` of R73 -/
  c : F32
  deriving DecidableEq, Repr

/-- An element for the array from an FP32 value. -/
def elemOf (x : Marked) : Elem := plainElem (f32Num x.1) x.2

/-- An element read as FP32 (R67, R69: operands of the output path are widened). -/
def elemF32 (e : Elem) : Marked := (f32OfNum e.val, e.poison)

/-! ### One key tile (R74, R75, R80) -/

/-- An empty row (R74). -/
def emptyRow (d : Nat) : RowAcc := ⟨f32NegInf, f32Zero, false, List.replicate d (f32Zero, false)⟩

/-- A row's step through the softmax engine. -/
structure RowStep where
  m : F32
  l : F32
  bad : Bool
  alpha : F32
  p : List Num

/-- The softmax engine on one row: `s` gives each unmasked key lane's score, none where the element is masked (R74, R80). -/
def softmaxRow (c : F32) (pf : FloatFmt) (a : RowAcc) (s : List (Option Marked)) : RowStep :=
  let x := s.map (fun e => match e with
    | none => f32NegInf
    | some v => fMul v.1 c)
  let bad := a.bad || s.any (fun e => e.any (·.2))
  let m := x.foldl fMax a.m
  let idle := m == f32NegInf
  let alpha := if idle then f32One else fExp2 (fSub a.m m)
  let p := x.map (fun v => convertTo pf (f32Num (if idle then f32Zero else fExp2 (fSub v m))))
  let tsum := p.foldl (fun t v => fAdd t (f32OfNum v)) f32Zero
  ⟨m, fAdd (fMul alpha a.l) tsum, bad, alpha, p⟩

/-- The probability vector of a row, which carries the row's poison (R74, R80). -/
def RowStep.vector (st : RowStep) : List Elem := st.p.map (fun v => plainElem v st.bad)

/-- A row's accumulator entries as they enter the array in a PV pass: each times the row's feed factor (R50, R74). With several PV passes for
a key tile (R35) the factor is applied once, before the first (DESIGN CHOICE, log 57). -/
def RowStep.enter (st : RowStep) (o : List Marked) : List Sum := o.map (fun e => (fMul e.1 st.alpha, e.2 || st.bad))

/-! ### Combining partials (R43, R86) -/

/-- Two rows of attention partials combined (R86); poison of either marks the result (R80). -/
def combineRow (a b : RowAcc) : RowAcc :=
  let bad := a.bad || b.bad
  if a.m = f32NegInf then { b with bad := bad }
  else if b.m = f32NegInf then { a with bad := bad }
  else
    let m := fMax a.m b.m
    let x := fExp2 (fSub a.m m)
    let y := fExp2 (fSub b.m m)
    ⟨m, fAdd (fMul x a.l) (fMul y b.l), bad,
      (a.o.zip b.o).map (fun e => (fAdd (fMul x e.1.1) (fMul y e.2.1), e.1.2 || e.2.2))⟩

/-- Two rows of matrix partials: left + right (R43). -/
def addRow (a b : RowAcc) : RowAcc :=
  { a with o := (a.o.zip b.o).map (fun e => (fAdd e.1.1 e.2.1, e.1.2 || e.2.2)) }

/-- Two partials, an empty one giving the other bit for bit (R43). -/
def combineParts (attention : Bool) (a b : Option (List RowAcc)) : Option (List RowAcc) :=
  match a, b with
  | none, b => b
  | a, none => a
  | some x, some y => some ((x.zip y).map (fun e => if attention then combineRow e.1 e.2 else addRow e.1 e.2))

/-- The node of the tree that covers splits [i, i + 2^level), its leaves and the nodes already formed given (R43, R87). -/
def treeNode (attention : Bool) (leaf : Nat → Option (List RowAcc)) (formed : Nat → Nat → Option (List RowAcc)) :
    Nat → Nat → Option (List RowAcc)
  | 0, i => leaf i
  | l + 1, i =>
    match formed (l + 1) i with
    | some x => some x
    | none => combineParts attention (treeNode attention leaf formed l i) (treeNode attention leaf formed l (i + 2 ^ l))

/-- S′ (R42). -/
def padSplits (s : Nat) : Nat := if s ≤ 1 then 1 else 2 ^ (Nat.log2 (s - 1) + 1)

/-- The range of items that a split owns of `n` (R85, R90, R330). -/
def splitRange (n s' s : Nat) : Nat × Nat := (s * n / s', (s + 1) * n / s')

/-! ### Finishing (R76) -/

/-- A finished row: its output, its lse and its fully-masked flag (R76). -/
structure DoneRow where
  o : List Marked
  lse : Marked
  flag : Bool
  deriving DecidableEq, Repr

/-- R76. -/
def finishRow (a : RowAcc) : DoneRow :=
  if a.m = f32NegInf then ⟨a.o.map (fun _ => (f32Zero, a.bad)), (f32NegInf, a.bad), true⟩
  else
    let r := fRcp a.l
    ⟨a.o.map (fun e => (fMul e.1 r, e.2 || a.bad)), (fMul (fAdd a.m (fLog2 a.l)) f32Ln2, a.bad), false⟩

/-! ### The output path (R67, R69) -/

/-- The fused operation on one element (R67). -/
def fuseElem (op : Nat) (r x : Marked) : Marked :=
  match op with
  | 1 => (fAdd r.1 x.1, r.2 || x.2)
  | 2 => (fMul r.1 x.1, r.2 || x.2)
  | _ => r

/-- The row reduction: SUM from column 0 upwards, or MAX; any poison poisons it (R69). -/
def reduceRow (red : Nat) (xs : List Marked) : Marked :=
  let bad := xs.any (·.2)
  if red = 1 then (xs.foldl (fun s x => fAdd s x.1) f32Zero, bad)
  else match xs with
    | [] => (f32Zero, bad)
    | x :: rest => (rest.foldl (fun s y => fMax s y.1) x.1, bad)

/-! ### Rotary encoding (R91) -/

/-- One axis of the rotary stage: first dimension, dimensions, base and position. -/
structure RopeAxis where
  o : Nat
  n : Nat
  base : F32
  u : Int
  deriving DecidableEq, Repr

/-- The frequency of pair `i` (R91). -/
def ropeTheta (a : RopeAxis) (i : Nat) : F32 :=
  fExp2 (fNeg (fMul (fDiv (f32OfNat (2 * i)) (f32OfNat a.n)) (fLog2 a.base)))

/-- The dimensions of pair `i`. -/
def ropePair (half : Bool) (a : RopeAxis) (i : Nat) : Nat × Nat :=
  if half then (a.o + i, a.o + i + a.n / 2) else (a.o + 2 * i, a.o + 2 * i + 1)

/-- One pair of a row rotated (R91). -/
def ropeStep (half : Bool) (a : RopeAxis) (xs : List Marked) (i : Nat) : List Marked :=
  let p := ropePair half a i
  let x := xs.getD p.1 (f32Zero, false)
  let y := xs.getD p.2 (f32Zero, false)
  let phi := fMul (f32OfInt a.u) (ropeTheta a i)
  let bad := x.2 || y.2
  (xs.set p.1 (fSub (fMul x.1 (fCos phi)) (fMul y.1 (fSin phi)), bad)).set p.2
    (fAdd (fMul x.1 (fSin phi)) (fMul y.1 (fCos phi)), bad)

/-- A row rotated on one axis. -/
def ropeAxisRow (half : Bool) (xs : List Marked) (a : RopeAxis) : List Marked :=
  (List.range (a.n / 2)).foldl (ropeStep half a) xs

/-! ### The backward softmax (R95) -/

/-- P and dS of one element, converted to the format of the stationary operand; a masked element carries no poison. -/
def backElem (c scale lam : F32) (pf : FloatFmt) (masked bad : Bool) (s dp dsum : Marked) : Elem × Elem :=
  let p := if masked then f32Zero else fExp2 (fSub (fMul s.1 c) lam)
  let ds := fMul (fMul p (fSub dp.1 dsum.1)) scale
  let pz := !masked && (bad || s.2)
  (plainElem (convertTo pf (f32Num p)) pz, plainElem (convertTo pf (f32Num ds)) (!masked && (pz || dp.2 || dsum.2)))

/-- D of a row: a MUL TILE and a row SUM of dO and O (R69, R94). -/
def backSum (dO o : List Elem) : Marked :=
  reduceRow 1 ((dO.zip o).map (fun e => fuseElem 2 (elemF32 e.1) (elemF32 e.2)))

end Sys2Proof.Machine
end

