-- ==== Sys2Proof/Machine/Array.lean ====
section
/-! DEFINITION. The score array of a core: its register sets, passes on either axis, the way a stationary operand comes into the active
set, and the counts of passes, swaps and ripple-ins (spec/03_score_array.md R45 to R64, R70, R71). -/
namespace Sys2Proof.Machine

/-! ### Products in the cells (R35, R37, R46, R50, R64) -/

/-- A product formed in a cell and added to the running sum that passes it, one FP32 addition (R37). `aLow` and `bLow` tell that an
element is the low part of a split operand: a product whose low-part factor is zero is not formed (R35). Poison of either element
poisons the sum (R64). -/
def addCell (aLow bLow : Bool) (s : Sum) (a b : Elem) : Sum :=
  let poison := s.2 || a.poison || b.poison
  if (aLow && numIsZero a.val) || (bLow && numIsZero b.val) then (s.1, poison)
  else (fAdd s.1 (f32OfNum (numMul a.val b.val)), poison)

/-- One vector through the array on axis N: element `i` enters row `i`, the sums run down the columns (R46). -/
def vectorN (aLow bLow : Bool) (cells : List (List Elem)) (x : List Elem) (s : List Sum) : List Sum :=
  (cells.zip x).foldl (fun s r => List.zipWith (fun t a => addCell aLow bLow t a r.2) s r.1) s

/-- One vector through the array on axis T: element `j` enters column `j`, the sums run along the rows (R46). -/
def vectorT (aLow bLow : Bool) (cells : List (List Elem)) (x : List Elem) (s : List Sum) : List Sum :=
  List.zipWith (fun t row => (row.zip x).foldl (fun t e => addCell aLow bLow t e.1 e.2) t) s cells

/-- The sum latch of every cell after a vector on axis N: row `i` holds the sums that have passed rows 0 to `i` (R45, R46). -/
def latchesN (aLow bLow : Bool) : List (List Elem) → List Elem → List Sum → List (List Sum)
  | r :: rows, e :: x, s =>
    let t := List.zipWith (fun t a => addCell aLow bLow t a e) s r
    t :: latchesN aLow bLow rows x t
  | _, _, _ => []

/-- The sum latches of one array row after a vector on axis T (R45, R46). -/
def latchRow (aLow bLow : Bool) : List Elem → List Elem → Sum → List Sum
  | a :: row, e :: x, t =>
    let u := addCell aLow bLow t a e
    u :: latchRow aLow bLow row x u
  | _, _, _ => []

/-- The sum latch of every cell after a vector (R45, R46). -/
def sumLatches (axisT aLow bLow : Bool) (cells : List (List Elem)) (x : List Elem) (s : List Sum) : List (List Sum) :=
  if axisT then List.zipWith (fun t row => latchRow aLow bLow row x t) s cells else latchesN aLow bLow cells x s

/-- The stream latch of every cell after a vector: on axis N an element passes along its row, on axis T down its column (R45, R46). -/
def streamLatches (axisT : Bool) (cells : List (List Elem)) (x : List Elem) : List (List Elem) :=
  if axisT then cells.map (fun row => (row.zip x).map (·.2)) else List.zipWith (fun row e => row.map (fun _ => e)) cells x

/-- A table of `n` columns turned: rows become columns. -/
def turn {α : Type} (n : Nat) (rows : List (List α)) : List (List α) :=
  rows.foldr (fun r acc => List.zipWith List.cons r acc) (List.replicate n [])

/-! ### Register sets (R48, R52 to R54) -/

/-- The array of a core. -/
def arrayAt (s : State) (core : Nat) : ScoreArray := tget ScoreArray.reset s.arrays core

/-- The array of a core replaced. -/
def setArray (s : State) (core : Nat) (a : ScoreArray) : State := { s with arrays := tset ScoreArray.reset s.arrays core a }

/-- How an operand came into the active set. -/
inductive Entry where
  /-- it stood there: no swap (R48) -/
  | held
  /-- the sets were exchanged (R52) -/
  | swap
  /-- ripple-in into an empty array, the first pass of a plan step (R54) -/
  | ripple
  /-- ripple-in behind a pass, the fall-back (R54) -/
  | behind
  deriving DecidableEq, Repr

/-- The exchange of the active and the shadow set (R52). -/
def swapSets (a : ScoreArray) : ScoreArray := { a with active := a.shadow, shadow := a.active }

/-- The shadow set loaded while the active set works (R53). -/
def shadowLoad (a : ScoreArray) (x : Stationary) : ScoreArray := { a with shadow := some x }

/-- A stationary operand loaded directly into the active set (R54). -/
def rippleIn (a : ScoreArray) (x : Stationary) : ScoreArray := { a with active := some x }

/-- The stationary operand of the next pass brought into the active set; `later` are the operands that the passes after it still need. An
operand that stands in the shadow set is swapped in. One that stands nowhere is loaded into the shadow set behind the pass before and
swapped in, unless the shadow set holds an operand that a later pass still needs: then it ripples in, as it does for the first pass of a
plan step (R48, R52 to R54, R58). -/
def bringIn (a : ScoreArray) (x : Stationary) (later : List Nat) : ScoreArray × Entry :=
  match a.active with
  | none => (rippleIn a x, .ripple)
  | some y =>
    if y.id = x.id then ({ a with active := some x }, .held)
    else match a.shadow with
      | none => (swapSets (shadowLoad a x), .swap)
      | some z =>
        if z.id = x.id ∨ !later.contains z.id then (swapSets (shadowLoad a x), .swap) else (rippleIn a x, .behind)

/-! ### Passes -/

/-- What a pass does with its vectors: its axis, which of its factors are low parts, the lanes of the output whose cells are not gated, and
the streaming vectors with the running sums that enter beside them (R46, R50, R51). -/
structure PassIn where
  axisT : Bool
  aLow : Bool
  bLow : Bool
  vectors : List (List Elem × List Sum)

/-- A pass: every vector through the active set, in order. The latches of the cells keep what the last vector left. -/
def arrayPass (a : ScoreArray) (p : PassIn) : ScoreArray × List (List Sum) :=
  let cells := (a.active.map (·.cells)).getD []
  let run (v : List Elem × List Sum) : List Sum :=
    if p.axisT then vectorT p.aLow p.bLow cells v.1 v.2 else vectorN p.aLow p.bLow cells v.1 v.2
  let a := match p.vectors.getLast? with
    | some v => { a with stream := streamLatches p.axisT cells v.1, sums := sumLatches p.axisT p.aLow p.bLow cells v.1 v.2 }
    | none => a
  (a, p.vectors.map run)

/-- The accumulator entries of an output tile in progress put into its bank; a tile beyond two displaces the oldest, whose bank has been
drained or handed on (R49, R66). -/
def setAccBank (a : ScoreArray) (tile : Nat) (rows : List (List Sum)) : ScoreArray :=
  let rest := a.banks.filter (fun b => b.1 ≠ tile)
  { a with banks := (tile, rows) :: rest.take 1 }

/-- The entries of an output tile's bank, none when it has none. -/
def accBank (a : ScoreArray) (tile : Nat) : Option (List (List Sum)) := (a.banks.find? (fun b => b.1 == tile)).map (·.2)

/-- The numbers of an operand's registers: operand `n` whole, or its low or high half (R48). -/
def operandId (n part : Nat) : Nat := 4 * n + part

/-! ### The passes of an operand pair (R35, R48) -/

/-- One operand pair of a k-tile or pass: the model's number of the stationary operand, its cells by array row and column, the streaming
vectors, the axis, and the operands that passes after this pair still need. `swapped` tells that the stationary operand is the second
factor of R35 (STAT_B of R330, which changes no result). -/
structure PairIn where
  n : Nat
  cells : List (List Elem)
  vectors : List (List Elem)
  axisT : Bool := false
  swapped : Bool := false
  later : List Nat

/-- The part of an operand that a product takes: converted, or its elements with their scales beside them (R34, R35). -/
def partOf (scaled : Bool) (f : Num → Num) (rows : List (List Elem)) : List (List Elem) :=
  rows.map (fun r => r.map (fun x => if scaled then x else plainElem (f x.val) x.poison))

/-- Which part of the stationary and of the streaming operand a product takes (R48). -/
def PairIn.part (x : PairIn) (p : Product) : Nat := if x.swapped then p.bPart else p.aPart
def PairIn.streamPart (x : PairIn) (p : Product) : Nat := if x.swapped then p.aPart else p.bPart

/-- The stationary operand of a product in the cells. -/
def PairIn.held (x : PairIn) (p : Product) : Stationary :=
  ⟨operandId x.n (x.part p), x.axisT, partOf p.scaled (if x.swapped then p.b else p.a) x.cells⟩

/-- The re-feed buffer filled as the load path reads the streaming operand once: both halves of each vector where the products split it
(R48). -/
def fillRefeed (x : PairIn) (ps : List Product) (a : ScoreArray) : ScoreArray :=
  if ps.any (fun p => x.streamPart p ≠ 0) then
    { a with refeed := (partOf false splitLow x.vectors).zip (partOf false splitHigh x.vectors) }
  else a

/-- The streaming vectors of a product: the half that the re-feed buffer keeps, or the operand whole (R48). -/
def PairIn.feed (x : PairIn) (p : Product) (a : ScoreArray) : List (List Elem) :=
  match x.streamPart p with
  | 1 => a.refeed.map (·.1)
  | 2 => a.refeed.map (·.2)
  | _ => partOf p.scaled (if x.swapped then p.a else p.b) x.vectors

/-- The other half of a split stationary operand put into the shadow set while the first works: the load path reads the tile once and writes
its two halves to the two register sets (R48). -/
def shadowHalf (x : PairIn) (p : Product) (rest : List Product) (a : ScoreArray) : ScoreArray :=
  match rest.find? (fun q => x.part q ≠ x.part p) with
  | some q => shadowLoad a (x.held q)
  | none => a

/-- The products of an operand pair, each product kind one pass, its stationary half brought in first (R35, R48). Answers the array, the
sums and how each half came in. -/
def pairRun (x : PairIn) : List Product → ScoreArray → List (List Sum) → ScoreArray × List (List Sum) × List Entry
  | [], a, sums => (a, sums, [])
  | p :: rest, a, sums =>
    let need := rest.map (fun q => operandId x.n (x.part q)) ++ x.later
    let (a, e) := bringIn a (x.held p) need
    let a := shadowHalf x p rest a
    let (a, out) := arrayPass a
      ⟨x.axisT, if x.swapped then p.bLow else p.aLow, if x.swapped then p.aLow else p.bLow, (x.feed p a).zip sums⟩
    let (a, out, es) := pairRun x rest a out
    (a, out, e :: es)

/-- The passes of an operand pair: its streaming operand read once, then its products in order (R35, R48). -/
def pairPasses (x : PairIn) (ps : List Product) (a : ScoreArray) (sums : List (List Sum)) : ScoreArray × List (List Sum) × List Entry :=
  pairRun x ps (fillRefeed x ps a) sums

/-! ### Counts (R70, R71) -/

/-- Swaps and ripple-ins counted (R71). -/
def countEntries (s : State) (g : Nat) (es : List Entry) : State :=
  let n (e : Entry) : Nat := (es.filter (fun x => x == e)).length
  let s := bumpArr s g 0x20 (n .swap)
  let base := 0x2000 + g * 0x80
  let ripples := satRipples (ctrReg s (base + 0x28)) (n .behind) (n .ripple + n .behind)
  let s := if ctrFrozen s base ∨ n .ripple + n .behind = 0 then s else { s with counters := tset 0 s.counters (base + 0x28) ripples }
  traceFire s base 0x28 (n .ripple + n .behind)

/-- One kind of pass run `n` times: vectors fed, lanes gated and slots idle by mask, and whether it is halved (R57, R61). -/
def countPasses (s : State) (g n vectors gated idle : Nat) (half : Bool) : State :=
  let s := bumpArr s g 0x08 n
  let s := bumpArr s g 0x10 (n * vectors)
  let s := bumpArr s g 0x40 (n * gated)
  let s := bumpArr s g 0x48 (n * idle)
  if half then bumpArr s g 0x50 n else s

/-- The output vectors of `n` passes that carried a poisoned element (R71). -/
def countPoison (s : State) (g n : Nat) (out : List (List Sum)) : State :=
  bumpArr s g 0x60 (n * (out.filter (fun v => v.any (·.2))).length)

/-- Cells of a reduction of `n` indices (R46). -/
def cellsOf (a b n : Nat) : Nat :=
  match arrayForm a b with
  | .fp8 => (n + 1) / 2
  | .mxfp4 => (n + 3) / 4
  | _ => n

/-- Whether a pass is halved: split-depth by its reduction depth in cells, else split-width by its output lanes (R57). -/
def halved (depthCells width : Nat) : Bool := decide (depthCells ≤ 64) || decide (width ≤ 64)

end Sys2Proof.Machine
end

