-- ==== Sys2Proof/Machine/Parameters.lean ====
section
/-! DEFINITION. The parameters of the compute commands and their checks at acceptance: ATTN_FWD, ATTN_BWD, PROJ and MATMUL
(spec/04_attention_dataflow.md R83, R88 to R91, R98 to R101, spec/05_kv_pages.md R116, spec/11_kettle_links.md R298 to R300,
spec/12_host_interface.md R330). -/
namespace Sys2Proof.Machine

/-! ### Fields -/

/-- The fuse control word (R67). -/
structure FuseCtl where
  op : Nat
  shape : Nat
  opndQ : Nat
  scalar : F32
  deriving DecidableEq, Repr

/-- The fuse control word at an offset. -/
def fuseOf (p : SlotWord) (o : Nat) : FuseCtl :=
  ⟨param p o 2, param p o 64 / 16 % 4, param p o 64 / 2 ^ 16 % 8, BitVec.ofNat 32 (param p (o + 4) 32)⟩

/-- A format control word at an offset. -/
def fcwAt (p : SlotWord) (o : Nat) : BitVec 16 := BitVec.ofNat 16 (param p o 16)

/-- The shape word (R98). -/
structure Shape where
  d : Nat
  passes : Nat
  kvHeads : Nat
  qHeads : Nat
  deriving DecidableEq, Repr

/-- The shape word at an offset. -/
def shapeAt (p : SlotWord) (o : Nat) : Shape :=
  ⟨dimOf (param p o 4), param p (o + 1) 2, param p (o + 2) 8, param p (o + 3) 8⟩

/-- Query heads of one KV head (R98). -/
def Shape.group (h : Shape) : Nat := h.qHeads / h.kvHeads

/-- A pack entry (R88). -/
structure PackEntry where
  row : Nat
  kvEnd : Nat
  pos : Nat
  seq : Nat
  count : Nat
  deriving DecidableEq, Repr

/-- A pack entry from its 16 bytes as a number. -/
def packOf (v : Nat) : PackEntry := ⟨v / 2 ^ 96, v / 2 ^ 64 % 2 ^ 27, v / 2 ^ 32 % 2 ^ 26, v / 2 ^ 16 % 65536, v % 256⟩

/-- The mask parameters of ATTN_FWD and ATTN_BWD (R98). -/
def maskAt (p : SlotWord) : MaskForm where
  mode := param p 0x6C 2
  window := paramBit p 0x6C 6
  waymarks := paramBit p 0x6C 7
  gridBase := param p 0x7C 26
  gridRows := param p 0x70 16
  gridCols := param p 0x72 16
  radT := param p 0x74 16
  radR := param p 0x76 16
  radC := param p 0x78 16

/-! ### Checks shared by the commands -/

/-- The fuse control word (R67, R68), its address and its row stride. -/
def checkFuse (p : SlotWord) (o : Nat) : Act Unit := do
  let op := param p o 2
  let shape := param p o 64 / 16 % 4
  let q := param p o 64 / 2 ^ 16 % 8
  let scalar := param p (o + 4) 32
  checkParam (op ≠ 3) o 0 2 6 op 0
  reservedParam p o 2 2
  checkParam (op ≠ 0 || shape == 0) o 4 2 1 shape 0
  reservedParam p o 6 10
  checkParam (q == 0 || (op ≠ 0 && shape ≠ 3)) o 16 3 1 q 0
  reservedParam p o 19 13
  checkParam (scalar == 0 || (op ≠ 0 && shape == 3)) o 32 32 1 scalar 0

/-- fuse_row_stride is 0 unless the shape is TILE (R98, R330). -/
def checkFuseStride (p : SlotWord) (ctl o : Nat) : Act Unit := do
  let shape := param p ctl 64 / 16 % 4
  let v := param p o 32
  checkParam (shape == 0 || v == 0) o 0 32 1 v 0

/-- The shape word (R98): with a sequence, its heads and head dimension (R116). -/
def checkShape (p : SlotWord) (o : Nat) (q : Option SeqDesc) : Act Unit := do
  let hd := param p o 4
  let passes := param p (o + 1) 2
  let kv := param p (o + 2) 8
  let qh := param p (o + 3) 8
  checkParam (decide (hd ≤ 1)) o 0 4 6 hd 0
  checkParam (q.all (fun q => q.hd == hd)) o 0 4 7 hd (q.elim 0 (·.hd))
  reservedParam p o 4 4
  checkParam (passes ≠ 0) o 8 2 1 0 1
  reservedParam p o 10 6
  checkParam (decide (1 ≤ kv ∧ kv ≤ qh ∧ qh % kv = 0)) o 16 8 1 kv (if kv = 0 then 1 else qh)
  checkParam (q.all (fun q => q.kvHeads == kv)) o 16 8 7 kv (q.elim 0 (·.kvHeads))
  checkParam (qh ≠ 0) o 24 8 1 0 1

/-- split_count (R42). -/
def checkSplits (p : SlotWord) (o : Nat) : Act Unit := do
  let n := param p o 16
  checkRange o 0 16 n 1 1024

/-- A named plan is loaded and its streams match the command (R101, log 8). -/
def checkPlan (k : Nat) (p : SlotWord) (o : Nat) : Act Unit := do
  let s ← get
  let id := param p o 16
  let ok := id == 0 || ((planOf s id).isSome && Config.planMatches (planBytesOf s id) (slotBits (slotAt s k) 0 16) (p.extractLsb' 512 1536))
  checkParam ok o 0 16 7 id 0

/-- A format control word of a load or a store (R32, R33, R425). -/
def checkFcw (p : SlotWord) (o : Nat) (store infOk : Bool) : Act Unit := 
  checkFormat o (fcwCheck { store := store, kv := false, infOk := infOk } (fcwAt p o))

/-- pad_sel of the load stream of a loaded plan that carries an operand at `base`; 0 where there is none. -/
def planPad (s : State) (p : SlotWord) (base plan : Nat) : Nat :=
  (planTensor (planBytesOf s plan) (param p base 64) false).elim 0 (fun d => fcwPad d.fmt)

/-- The padding of the load stream of a loaded plan that carries an operand at `base`: NEG_INF and POS_INF need infinities in the format in which
the pass takes the operand; the report names pad_sel in the operand's word (R33). -/
def checkPlanPad (p : SlotWord) (o base plan : Nat) (infOk : Bool) : Act Unit := do
  let pad := planPad (← get) p base plan
  checkParam (plan == 0 || infOk || (pad ≠ 1 && pad ≠ 2)) o 11 2 6 pad 0

/-- A format control word that must have pad_sel ZERO (R330). -/
def checkFcwNoPad (p : SlotWord) (o : Nat) : Act Unit :=
  checkFormat o (fcwCheck { store := false, kv := false, infOk := true, noPad := true } (fcwAt p o))

/-- A block-scaled tensor's rows hold whole blocks: `n` elements run along its blocked dimension (R30). R30 makes PLAN_LOAD reject a stream
that does not; that a command under a standard plan is rejected too, with check ALIGN on blk, is the model's choice (DESIGN CHOICE, log 54). -/
def checkBlocks (p : SlotWord) (o n : Nat) : Act Unit :=
  let w := fcwAt p o
  checkParam (!hasBlocks (fcwFmt w) || n % blockElems (fcwBlk w) == 0) o 7 2 2 (fcwBlk w) 0

/-- The extent of the operand stream of a fused operation under a loaded plan, against its shape and an output tensor of `rows` rows and
`cols` columns (R68): TILE is rows × columns, ROW one element for each row, COL one row of columns. The tensor is that of the first descriptor
of the queue that opnd_q names. Which check code the report has is the model's choice (DESIGN CHOICE, log 54). -/
def checkOperand (p : SlotWord) (o plan : Nat) (rows : Option Nat) (cols : Nat) : Act Unit := do
  let s ← get
  let f := fuseOf p o
  let img := planBytesOf s plan
  let h := planHeader img
  let d := (queueDescs (planDescs img h) (queueEntry img h f.opndQ)).head?
  let size (d : Desc) (n : Nat) : Nat := elemBytes (fcwFmt d.fmt) n
  let rowsOk (d : Desc) : Bool := if f.shape = 2 then d.extRows == 1 else rows.all (fun r => r == d.extRows)
  let colsOk (d : Desc) : Bool := if f.shape = 1 then d.extBytes == size d 1 else d.extBytes == size d cols
  let ok := match d with
    | some d => !dStore d && dKind d == 0 && rowsOk d && colsOk d
    | none => false
  checkParam (plan == 0 || (planOf s plan).isNone || f.op == 0 || f.shape == 3 || ok) o 16 3 7 f.opndQ 0

/-- A grid dimension is 1 to 65,535 (R98, R100). -/
def checkGrid (p : SlotWord) (o : Nat) : Act Unit := checkRange o 0 16 (param p o 16) 1 65535

/-- A 26-bit position field at the foot of a 32-bit word. -/
def checkPos26 (p : SlotWord) (o : Nat) : Act Unit := reservedParam p o 26 6

/-- The clamp of the passes field (R36). -/
def clampPasses (o hi lo req limit : Nat) : List ClampEntry :=
  if req ≤ limit then [] else [⟨paramLoc o, 2, hi, lo, req, limit⟩]

/-- A finite FP32 value above a bound. -/
def f32Above (x bound : F32) : Bool := f32Finite x && fMax x bound == x && x ≠ bound

/-! ### Ring commands (R298, R299) -/

/-- Whether an opcode runs as a ring command in a session's group (R298). -/
def ringWanted (s : State) (k op : Nat) : Bool :=
  let e := tget Session.reset s.sessions (cmdSession s k % 256)
  let mode := cfgVal s (0x7001 + e.ringGroup) 0 % 4
  e.ring && ((op == 0x0301 && decide (mode = 1 ∨ mode = 2)) || (op == 0x0302 && mode == 2))

/-- Group mode, position and count of a session's group as committed. -/
def ringCtl (s : State) (k : Nat) : Nat × Nat × Nat :=
  let e := tget Session.reset s.sessions (cmdSession s k % 256)
  let v := cfgVal s (0x7001 + e.ringGroup) 0
  (v % 4, v / 16 % 16, v / 256 % 32)

/-- Key tiles of a command (R85). -/
def keyTiles (kvEnd : Nat) : Nat := (kvEnd + 127) / 128

/-- The splits of a position's block in a sequence of so many key tiles: the first tile and the one after the last (R299). -/
def blockOf (tiles s' count pos : Nat) : Nat × Nat :=
  ((splitRange tiles s' (pos * s' / count)).1, (splitRange tiles s' ((pos + 1) * s' / count - 1)).2)

/-- What a command reads: its sequence and kv_end, under packing those of each entry (R88, R98). -/
def keySpans (packs : List Nat) (p : SlotWord) : List (Nat × Nat) :=
  if packs.isEmpty then [(param p 0x5C 16, param p 0x58 27)] else (packs.map packOf).map (fun e => (e.seq, e.kvEnd))

/-- The key tiles of a position's block, with their sequences (R299): those of a packed command go by sequence in the order of its table, each
tile once (DESIGN CHOICE, log 40). -/
def blockPairs (spans : List (Nat × Nat)) (s' count pos : Nat) : List (Nat × Nat) :=
  (spans.map (·.1)).eraseDups.flatMap (fun q =>
    let own := (spans.filter (fun x => x.1 == q)).map (fun x => blockOf (keyTiles x.2) s' count pos)
    let hi := own.foldl (fun a b => max a b.2) 0
    let lo := own.foldl (fun a b => min a b.1) hi
    (((List.range (hi - lo)).map (fun i => lo + i)).filter (fun t => own.any (fun b => decide (b.1 ≤ t ∧ t < b.2)))).map (fun t => (q, t)))

/-- The kv_end that R116 is applied with (R299). -/
def ownKvEnd (s : State) (k op kvEnd splits : Nat) : Nat :=
  if ringWanted s k op then
    let r := ringCtl s k
    min kvEnd (128 * (blockOf (keyTiles kvEnd) (padSplits splits) r.2.2 r.2.1).2)
  else kvEnd

/-- Bytes of one key tile of one KV head in a block: key rows, value rows, key scales, value scales (R300). -/
def tileBytes (fcw : BitVec 16) (d : Nat) : Nat :=
  let f := pageForm fcw d 0
  128 * 2 * (f.rowBytes + f.scaleRow)

/-- The ring digest (R298). -/
def ringDigest (p : SlotWord) (keysplit : Bool) : BitVec 64 :=
  let fs := [(0x00, 64), (0x4C, 32)] ++ (if keysplit then [(0x50, 26), (0x54, 32)] else []) ++
    [(0x58, 27), (0x5E, 16), (0x60, 32), (0x64, 16), (0x6C, 32), (0x70, 16), (0x72, 16), (0x74, 16), (0x76, 16), (0x78, 16), (0x7C, 26)]
  fs.foldl (fun h f => hashStep h (BitVec.ofNat 64 (param p f.1 f.2))) 0

/-- A ring command's admission: its block fits, it takes the next ring sequence, every member is reachable, and the CREDITs that its peers have
sent for it agree with it (R298 to R300). -/
def admitRing (k op : Nat) (q : SeqDesc) : Act Unit := do
  let s ← get
  let p := slotAt s k
  let (mode, _, count) := ringCtl s k
  let g := (tget Session.reset s.sessions (cmdSession s k % 256)).ringGroup
  let spans := keySpans ((cmdOf s k).elim [] (·.packTable)) p
  let s' := padSplits (param p 0x64 16)
  let largest := (List.range count).foldl (fun m i => max m (blockPairs spans s' count i).length) 0
  let half := cfgVal s 0x700A 0 / 2
  if mode = 1 ∧ op = 0x0301 ∧ largest * q.kvHeads * tileBytes (BitVec.ofNat 16 q.fmtKv) (dimOf q.hd) > half then
    rejectAt (configLoc 0x700A 0) 5 63 0 (cfgVal s 0x700A 0) 0
  let order := cfgVal s (0x7005 + g) 0
  let members := (List.range count).map (fun i => order / 2 ^ (4 * i) % 16)
  let seq := tget 0 s.ktl.ringSeq g
  let digest := ringDigest p (mode == 2)
  set (updCmd { s with ktl := { s.ktl with ringSeq := tset 0 s.ktl.ringSeq g (seq + 1) } } k (fun c =>
    { c with ringSeq := some seq, digest := digest }))
  if members.any (fun m => !reachable s m) then throw (.abort 0x21)
  let early (x : Nat × Word128) : Bool :=
    x.2.extractLsb' 48 16 == seq && (x.2.extractLsb' 45 2).toNat == g && x.2.extractLsb' 64 64 != digest
  match s.ktl.credits.find? early, cmdOf (← get) k with
  | some x, some c =>
    modify (fun s => tellMismatch s c x.1 x.2)
    throw (.abort 0x20)
  | _, _ => pure ()

/-! ### ATTN_FWD and ATTN_BWD (R98, R99) -/

/-- A waymark list that a command with WAYMARKS reads: strictly ascending, 64 entries at most (R83). -/
def checkMarks (k n : Nat) (q : SeqDesc) : Act Unit := do
  if q.waymarkCount > 64 then rejectAt (structLoc 2 0) 1 7 0 q.waymarkCount 64
  let ms ← readWaymarks (seqWho (← get) k n) n q
  match (List.range (ms.length - 1)).find? (fun i => decide (ms.getD (i + 1) 0 ≤ ms.getD i 0)) with
  | some i => rejectItem (structLoc 2 0) (i + 1) 1 25 0 (ms.getD (i + 1) 0) (ms.getD i 0)
  | none => pure ()

/-- One pack entry (R88, R89, R116), `first` the key format of the table's first sequence. R116 rejects an entry whose key format differs and
no field states the command's: it is the first entry's sequence's (DESIGN CHOICE, log 54). An entry whose q_pos + count passes 2²⁶ is rejected
as R98 rejects q_start + q_count (DESIGN CHOICE, log 54). -/
def checkPackEntry (k layer kvHeads hd : Nat) (marks : Bool) (i v : Nat) (first : Option Nat) : Act Nat := do
  let e := packOf v
  let bad {α : Type} (o check hi lo found limit : Nat) : Act α := rejectItem (structLoc 1 o) i check hi lo found limit
  if e.count = 0 ∨ e.count > 128 then bad 0 1 7 0 e.count (if e.count = 0 then 1 else 128)
  if v / 256 % 256 ≠ 0 then bad 0 8 15 8 (v / 256 % 256) 0
  let q ← loadSeq k e.seq
  if q.state ≠ 1 ∨ layer ≥ q.layers ∨ q.kvHeads ≠ kvHeads ∨ q.hd ≠ hd ∨ first.any (fun f => f ≠ q.fmtKv) then
    bad 0 7 31 16 e.seq 0
  if e.pos + e.count > 2 ^ 26 then bad 0 1 57 32 e.pos (2 ^ 26)
  if v / 2 ^ 58 % 64 ≠ 0 then bad 0 8 63 58 (v / 2 ^ 58 % 64) 0
  if e.kvEnd > 2 ^ 26 ∨ ownKvEnd (← get) k 0x0301 e.kvEnd (param (slotAt (← get) k) 0x64 16) > q.length then bad 8 1 26 0 e.kvEnd q.length
  if v / 2 ^ 91 % 32 ≠ 0 then bad 8 8 31 27 (v / 2 ^ 91 % 32) 0
  if marks then checkMarks k e.seq q
  return q.fmtKv

/-- The entries of a pack table checked in order. -/
def checkPack (k layer kvHeads hd : Nat) (marks : Bool) : Nat → List Nat → Option Nat → Act Unit
  | _, [], _ => pure ()
  | i, v :: rest, first => do
    let f ← checkPackEntry k layer kvHeads hd marks i v first
    checkPack k layer kvHeads hd marks (i + 1) rest (some (first.getD f))

/-- The grid and radius fields (R98). -/
def checkMask (p : SlotWord) : Act Unit := do
  let mode := param p 0x6C 2
  checkParam (mode ≠ 3) 0x6C 0 2 6 mode 0
  reservedParam p 0x6C 2 4
  checkParam (!(paramBit p 0x6C 7 && !paramBit p 0x6C 6)) 0x6C 7 1 1 1 0
  reservedParam p 0x6C 8 24
  checkGrid p 0x70
  checkGrid p 0x72

/-- softmax_scale, q_start and q_count (R89, R98). -/
def checkRows (p : SlotWord) (packed : Bool) : Act Unit := do
  let qs := param p 0x50 26
  let qn := param p 0x54 32
  checkParam (f32Above (BitVec.ofNat 32 (param p 0x4C 32)) f32Zero) 0x4C 0 32 1 (param p 0x4C 32) 0
  checkParam (!packed || qs == 0) 0x50 0 26 1 qs 0
  checkPos26 p 0x50
  let ok := if packed then qn == 0 else decide (1 ≤ qn ∧ qs + qn ≤ 2 ^ 26)
  checkParam ok 0x54 0 32 1 qn (if packed then 0 else if qn = 0 then 1 else 2 ^ 26 - qs)

/-- kv_end, seq_id and layer, with the sequence they name (R89, R98, R116, R299). -/
def checkSeqFields (k op : Nat) (packed : Bool) : Act (Option SeqDesc) := do
  let s ← get
  let p := slotAt s k
  let e := param p 0x58 27
  let n := param p 0x5C 16
  let q ← if packed then pure none else do pure (some (← loadSeq k n))
  let own := ownKvEnd s k op e (param p 0x64 16)
  let len := q.elim 0 (fun q => if q.state = 1 then q.length else 2 ^ 26)
  checkParam (if packed then e == 0 else decide (e ≤ 2 ^ 26 ∧ own ≤ len)) 0x58 0 27 1 e (min len (2 ^ 26))
  reservedParam p 0x58 27 5
  checkParam (!packed || n == 0) 0x5C 0 16 1 n 0
  checkParam (q.all (fun q => q.state == 1)) 0x5C 0 16 7 n 0
  checkParam (q.all (fun q => decide (param p 0x5E 16 < q.layers))) 0x5E 0 16 1 (param p 0x5E 16) (q.elim 0 (fun q => q.layers - 1))
  return q

/-- The split count of a ring command is at least the members (R299). -/
def checkRingSplits (k op : Nat) : Act Unit := do
  let s ← get
  let n := param (slotAt s k) 0x64 16
  let count := (ringCtl s k).2.2
  checkParam (!ringWanted s k op || decide (padSplits n ≥ count)) 0x64 0 16 1 n count

/-- The key format of a packed command, that of its first entry's sequence, read before the table is checked because the padding of the query
operand depends on it (R33, R425). -/
def firstPackFmt (k : Nat) (p : SlotWord) : Act (Option Nat) := do
  needXlt
  let bs ← readCtl (whoCmd k) (cmdAsid (← get) k) (param p 0x38 64) 16 1
  let q ← loadSeq k (packOf (bytesNat bs)).seq
  return some (q.fmtKv % 32)

/-- ATTN_FWD (R98). -/
def attnFwdDef : OpDef where
  placed := true
  check k := do
    let s ← get
    let p := slotAt s k
    let packed : Bool := param p 0x38 64 ≠ 0
    checkVa p 0x08
    checkVa p 0x10
    checkVa p 0x18
    checkVa p 0x20
    checkFuse p 0x28
    let cols := (shapeAt p 0x60).qHeads * (shapeAt p 0x60).d
    checkOperand p 0x28 (param p 0x66 16) (if packed then none else some (param p 0x54 32)) cols
    checkVa p 0x30
    checkVa p 0x38
    checkFuseStride p 0x28 0x48
    checkRows p packed
    let q ← checkSeqFields k 0x0301 packed
    checkShape p 0x60 q
    checkSplits p 0x64
    checkRingSplits k 0x0301
    checkPlan k p 0x66
    let sh := shapeAt p 0x60
    let fmtQ := fcwFmt (fcwAt p 0x68)
    let padded (w : Nat) : Bool := w == 1 || w == 2
    let fmtK ← if packed && (padded (fcwPad (fcwAt p 0x68)) || padded (planPad s p 0x08 (param p 0x66 16))) then firstPackFmt k p
      else pure (q.map (fun q => q.fmtKv % 32))
    checkFcw p 0x68 false (fmtK.all (fun f => operandInfOk fmtQ f))
    checkPlanPad p 0x68 0x08 (param p 0x66 16) (fmtK.all (fun f => operandInfOk fmtQ f))
    checkBlocks p 0x68 sh.d
    checkFcw p 0x6A true true
    checkBlocks p 0x6A sh.d
    checkMask p
    let n := param p 0x7A 16
    checkRange 0x7A 0 16 n (bit packed) 65535
    checkPos26 p 0x7C
    reservedFrom p 0x80
    needXlt
    let marks := paramBit p 0x6C 7
    let fk ← if packed then do
        let bs ← readCtl (whoCmd k) (cmdAsid s k) (param p 0x38 64) (16 * n) 1
        let es := (chunksOf 16 n bs).map bytesNat
        checkPack k (param p 0x5E 16) sh.kvHeads (param p 0x60 4) marks 0 es none
        let q ← loadSeq k (packOf (es.getD 0 0)).seq
        checkOperand p 0x28 (param p 0x66 16) (some ((es.map packOf).foldl (fun m e => max m (e.row + e.count)) 0)) cols
        modify (fun s => updCmd s k (fun c => { c with packTable := es }))
        if ringWanted s k 0x0301 then admitRing k 0x0301 q
        pure (q.fmtKv % 32)
      else do
        match q with
        | some q =>
          if marks then checkMarks k (param p 0x5C 16) q
          if ringWanted s k 0x0301 then admitRing k 0x0301 q
        | none => pure ()
        pure (fmtK.getD 1)
    return clampPasses 0x60 9 8 sh.passes (max (maxPasses fmtQ fk) (maxPasses fk (probFmt fk)))
  body _ := pure {}

/-- ATTN_BWD (R99). -/
def attnBwdDef : OpDef where
  placed := true
  check k := do
    let s ← get
    let p := slotAt s k
    let ses := tget Session.reset s.sessions (cmdSession s k % 256)
    if ses.ring && decide ((ringCtl s k).1 = 1) then
      throw (.reject { code := 0x10, locator := 0, check := 7, hi := 31, lo := 16, found := cmdSession s k })
    for o in [0x08, 0x10, 0x18] do
      checkVa p o
    checkParam (param p 0x18 64 ≠ 0) 0x18 0 64 1 0 1
    for o in [0x20, 0x28, 0x30, 0x38] do
      checkVa p o
    checkRows p false
    let q ← checkSeqFields k 0x0302 false
    checkShape p 0x60 q
    checkSplits p 0x64
    checkRingSplits k 0x0302
    checkPlan k p 0x66
    let sh := shapeAt p 0x60
    let fq := fcwFmt (fcwAt p 0x68)
    let fo := fcwFmt (fcwAt p 0x6A)
    let fk := q.elim 1 (fun q => q.fmtKv % 32)
    let ft := if fk = 2 then 2 else 1
    checkFcw p 0x68 false (operandInfOk fq fk && operandInfOk fq ft)
    checkPlanPad p 0x68 0x08 (param p 0x66 16) (operandInfOk fq fk && operandInfOk fq ft)
    checkBlocks p 0x68 sh.d
    checkFcw p 0x6A false (operandInfOk fo fk && operandInfOk fo ft)
    checkPlanPad p 0x6A 0x20 (param p 0x66 16) (operandInfOk fo fk && operandInfOk fo ft)
    checkBlocks p 0x6A sh.d
    checkMask p
    checkFcw p 0x7A true true
    checkBlocks p 0x7A sh.d
    checkPos26 p 0x7C
    reservedFrom p 0x80
    needXlt
    match q with
    | some q =>
      if paramBit p 0x6C 7 then checkMarks k (param p 0x5C 16) q
      if ringWanted s k 0x0302 then admitRing k 0x0302 q
    | none => pure ()
    let limit := [maxPasses fq fk, maxPasses fo fk, maxPasses ft fo, maxPasses ft fq, maxPasses ft fk].foldl max 1
    return clampPasses 0x60 9 8 sh.passes limit
  body _ := pure {}

/-! ### PROJ (R100) -/

/-- The frequency base of an axis: finite and above 1 (R91). -/
def checkBase (p : SlotWord) (o : Nat) : Act Unit :=
  checkParam (f32Above (BitVec.ofNat 32 (param p o 32)) f32One) o 0 32 1 (param p o 32) 0

/-- The rope word, bases and offsets (R91, R100). -/
def checkRope (p : SlotWord) (d : Nat) : Act Unit := do
  let st := param p 0x5F 8
  let sr := param p 0x5E 8
  let sc := param p 0x5D 8
  if paramBit p 0x56 1 || paramBit p 0x56 2 then
    reservedParam p 0x5C 1 7
    checkParam (sc % 2 == 0 && decide (st + sr + sc ≤ d)) 0x5C 8 8 1 sc d
    checkParam (sr % 2 == 0) 0x5C 16 8 1 sr d
    checkParam (st % 2 == 0) 0x5C 24 8 1 st d
    checkBase p 0x60
    checkBase p 0x64
    checkBase p 0x68
  else
    for o in [0x5C, 0x60, 0x64, 0x68] do
      checkParam (param p o 32 == 0) o 0 32 1 (param p o 32) 0
    for o in [0x6C, 0x6E, 0x70] do
      checkParam (param p o 16 == 0) o 0 16 1 (param p o 16) 0

/-- The parameter checks of PROJ (R100, R101), for a command and for a recipe entry (R126); `p` holds the parameter area. With KV_APPEND the
command's hd, kv_heads and layer must fit its sequence, as R116 has it for the attention commands (DESIGN CHOICE, log 54). -/
def projCheck (k : Nat) (p : SlotWord) : Act (List ClampEntry) := do
  let append := paramBit p 0x56 0
  for o in [0x08, 0x10, 0x18] do
    checkVa p o
  checkFuse p 0x20
  let h := shapeAt p 0x48
  checkOperand p 0x20 (param p 0x4E 16) (some (param p 0x38 32)) ((h.qHeads + 2 * h.kvHeads) * h.d)
  checkVa p 0x28
  let n := param p 0x38 32
  let start := param p 0x3C 26
  checkRange 0x38 0 32 n 1 (2 ^ 26 - start)
  checkParam (decide (start ≥ param p 0x74 26)) 0x3C 0 26 1 start (param p 0x74 26)
  checkPos26 p 0x3C
  let md := param p 0x40 32
  checkRange 0x40 0 32 md 128 65536
  checkParam (md % 128 == 0) 0x40 0 32 2 md 128
  let id := param p 0x44 16
  checkParam (append || id == 0) 0x44 0 16 1 id 0
  let q ← if append then do pure (some (← loadSeq k id)) else pure none
  checkParam (q.all (fun q => q.state == 1)) 0x44 0 16 7 id 0
  let layer := param p 0x46 16
  let layers := q.elim 1 (·.layers)
  checkParam (decide (layer < layers)) 0x46 0 16 1 layer (layers - 1)
  checkShape p 0x48 q
  checkSplits p 0x4C
  checkPlan k p 0x4E
  let fa := fcwFmt (fcwAt p 0x50)
  let fw := fcwFmt (fcwAt p 0x52)
  checkFcw p 0x50 false (operandInfOk fa fw)
  checkPlanPad p 0x50 0x08 (param p 0x4E 16) (operandInfOk fa fw)
  checkFcw p 0x52 false (operandInfOk fw fa)
  checkPlanPad p 0x52 0x10 (param p 0x4E 16) (operandInfOk fw fa)
  checkBlocks p 0x52 ((h.qHeads + 2 * h.kvHeads) * h.d)
  checkFcw p 0x54 true true
  checkBlocks p 0x54 ((if append then h.qHeads else h.qHeads + 2 * h.kvHeads) * h.d)
  reservedParam p 0x56 3 13
  checkGrid p 0x58
  checkGrid p 0x5A
  checkRope p (shapeAt p 0x48).d
  reservedParam p 0x72 0 16
  checkPos26 p 0x74
  reservedFrom p 0x78
  return clampPasses 0x48 9 8 (shapeAt p 0x48).passes (maxPasses fa fw)

/-- PROJ (R100). -/
def projDef : OpDef where
  placed := true
  check k := do
    let cl ← projCheck k (slotAt (← get) k)
    needXlt
    return cl
  body _ := pure {}

/-! ### MATMUL (R330) -/

/-- MATMUL (R330). R39 rejects rnd = 1 with more than 2³² output tiles; that the report gives check CAPACITY on the rnd bit of fmt_c is the
model's choice (DESIGN CHOICE, log 54). -/
def matmulDef : OpDef where
  placed := true
  check k := do
    let p := slotAt (← get) k
    for o in [0x08, 0x10, 0x18] do
      checkVa p o
    checkFuse p 0x20
    checkOperand p 0x20 (param p 0x56 16) (some (param p 0x48 32)) (param p 0x4C 32)
    checkVa p 0x28
    let red := param p 0x5E 16 / 4 % 4
    let rb := param p 0x30 64
    checkVa p 0x30
    checkParam ((rb == 0) == (red == 0)) 0x30 0 64 1 rb 0
    checkFuseStride p 0x20 0x44
    for o in [0x48, 0x4C, 0x50] do
      checkRange o 0 32 (param p o 32) 1 (2 ^ 26)
    checkSplits p 0x54
    checkPlan k p 0x56
    let fa := fcwFmt (fcwAt p 0x58)
    let fb := fcwFmt (fcwAt p 0x5A)
    checkFcwNoPad p 0x58
    checkPlanPad p 0x58 0x08 (param p 0x56 16) (operandInfOk fa fb)
    checkBlocks p 0x58 (param p 0x50 32)
    checkFcwNoPad p 0x5A
    checkPlanPad p 0x5A 0x10 (param p 0x56 16) (operandInfOk fb fa)
    checkBlocks p 0x5A (param p 0x4C 32)
    let fc := fcwAt p 0x5C
    checkFcw p 0x5C true true
    checkBlocks p 0x5C (param p 0x4C 32)
    let tiles := ((param p 0x48 32 + 127) / 128) * ((param p 0x4C 32 + 127) / 128)
    checkParam (!fcwRnd fc || decide (tiles ≤ 2 ^ 32)) 0x5C 10 1 5 1 (2 ^ 32)
    checkParam (red ≠ 3) 0x5E 2 2 6 red 0
    let passes := param p 0x5E 16 / 16 % 4
    checkParam (passes ≠ 0) 0x5E 4 2 1 0 1
    reservedParam p 0x5E 7 9
    reservedFrom p 0x60
    needXlt
    return clampPasses 0x5E 5 4 passes (maxPasses (fcwFmt (fcwAt p 0x58)) (fcwFmt (fcwAt p 0x5A)))
  body _ := pure {}

/-! ### Formats in force -/

/-- The passes a product of a pair of formats runs with (R36). -/
def usedPasses (req a b : Nat) : Nat := min req (maxPasses a b)

end Sys2Proof.Machine
end

