-- ==== Sys2Proof/Machine/Tensors.lean ====
section
/-! DEFINITION. The tensors of a compute command as a plan step reads and stores them: rows of command tensors, tokens of KV pages, and
tiles in step staging (spec/04_attention_dataflow.md R98 to R100, spec/05_kv_pages.md R115, spec/08_streams.md R220,
spec/14_firmware.md R366). -/
namespace Sys2Proof.Machine

/-! ### Who reads -/

/-- What a plan step computes for: the command, its opcode and parameter area, its address space, its cluster and the pages answered
NO_MAPPING there (R220). A restoration runs a PROJ of its own parameters in the command's place (R126). -/
structure Job where
  key : Nat
  op : Nat
  p : SlotWord
  asid : Nat
  cluster : Nat
  /-- the no-map lists of its queues (R220) -/
  noMap : List (Nat × List Nat)
  emptied : List EmptyTile := []

/-- The job of a command on a cluster. -/
def jobOf (s : State) (c : Cmd) (h : Hold) : Job := ⟨c.key, c.opcode, slotAt s c.key, cmdAsid s c.key, h.cluster, h.noMap, h.emptied⟩

/-- The operand number of a fused operand whose control word names a queue: 16 + opnd_q (R67). -/
def fuseOperand (q : Nat) : Nat := 16 + q

/-- The requester of a core's transfer for an operand (R250): a fused operand comes by the queue that its control word names (R67), any other
by a queue of the standard plan's own. -/
def Job.who (j : Job) (core operand : Nat) : Who where
  die := j.cluster / 4
  key := some j.key
  cluster := j.cluster
  origin := 0
  core := 8 * j.cluster + core
  queue := if 16 ≤ operand then (operand - 16) % 8 else Config.standardQueue operand % 8

/-- The requester of the control core's own accesses. -/
def Job.ctl (j : Job) : Who := { die := j.cluster / 4, key := some j.key, cluster := j.cluster }

/-- A command that delivers or meets poison (R168). -/
def markPoison (s : State) (k : Nat) : State := updCmd s k (fun c => { c with poison := true })

/-! ### Rows of command tensors -/

/-- The pages answered NO_MAPPING to a queue that a run touches (R220). -/
def unmappedPages (j : Job) (w : Who) (va n : Nat) : List Nat :=
  let l := noMapOf j.noMap (w.core * 8 + w.queue)
  if l.isEmpty then [] else ((pagePieces (n / 2 ^ 25 + 2) va n).map (fun e => vpageOf e.1)).filter l.contains

/-! ### What a plan step keeps in the scratchpad (R196, R208) -/

/-- The plan a job names: 0 for a standard plan. -/
def planNamed (op : Nat) (p : SlotWord) : Nat :=
  match op with
  | 0x0303 => param p 0x4E 16
  | 0x0304 => param p 0x56 16
  | _ => param p 0x66 16

/-- The words of a core that a command may fill: the first and how many, of its lane or of its plan's footprint (R208, R211). -/
def laneWords (s : State) (k cluster : Nat) : Nat × Nat :=
  match (cmdOf s k).bind (fun c => (c.holds.find? (fun h => h.cluster == cluster)).map (fun h => (cmdFoot s c h).words)) with
  | some ((lo, hi) :: _) => (lo, hi + 1 - lo)
  | _ => (0, 2 ^ 19)

/-- Bytes laid into a core's words of a command from one of them on, their block scales beside them (log 19, log 38). -/
def layBytes (s : State) (k core first : Nat) (bs sc : List (Byte × Bool)) : State :=
  let (lo, n) := laneWords s k (clusterOf core)
  let at_ (i : Nat) : Nat := (lo + (first + i - lo) % n) % 2 ^ 19
  let s := (chunksOf 16 ((bs.length + 15) / 16) bs).zipIdx.foldl (fun s e =>
    spadWrite s core (at_ e.2) (BitVec.ofNat 128 (bytesNat (e.1.map (·.1)))) (e.1.any (·.2))) s
  if sc.isEmpty then s else setScales s core (at_ 0) 0 sc

/-- Where the control core places a piece of a command's data in a core's words: free (R208; log 19). -/
def placeWord (s : State) (k core : Nat) (piece : List Nat) : Nat :=
  let (lo, n) := laneWords s k (clusterOf core)
  lo + Config.lanePlace k core piece % n

/-- A row's bytes; none, counted, when it lies in a page answered NO_MAPPING (R220). A standard plan's load puts them into its lane (R208); a
loaded plan's queues have put them where its descriptors say. -/
def rowBytes (j : Job) (core operand va n : Nat) : Act (Option (List (Byte × Bool))) := do
  let w := j.who core operand
  if !(unmappedPages j w va n).isEmpty then
    modify (fun s => bumpStr (markPoison s j.key) j.cluster 0x40 1)
    return none
  else
    let bs ← readVa w j.asid va n
    if planNamed j.op j.p = 0 then
      modify (fun s => layBytes s j.key w.core (placeWord s j.key w.core [0, operand, va]) bs [])
    return some bs

/-- Bytes of `n` elements from an element on that starts a byte. -/
def spanBytes (fmt n : Nat) : Nat := (elemBits fmt * n + 7) / 8

/-- Elements decoded from their bytes: element `i` has the scale `scale i` and its poison (R23, R64, R426). -/
def decodeRow (fcw : BitVec 16) (scale : Nat → Nat × Bool) (bs : List (Byte × Bool)) (n : Nat) : List Elem :=
  let fmt := fcwFmt fcw
  let bytes := bs.map (·.1)
  let b := elemBits fmt
  let bad (i : Nat) : Bool := (bs.getD (i * b / 8) (0, false)).2 || (bs.getD ((i * b + b - 1) / 8) (0, false)).2
  (List.range n).map (fun i =>
    let sc := scale i
    loadElem fcw sc.1 (packedElem fmt bytes i) (bad i || sc.2))

/-! ### Tensors and the streams of the plan that move them (R23, R194, R195) -/

/-- The descriptor of a loaded plan that loads or stores the tensor at a base; none for a standard plan (log 60). -/
def tensorDesc (s : State) (j : Job) (base : Nat) (store : Bool) : Option Desc :=
  let id := planNamed j.op j.p
  if id = 0 then none else planTensor (planBytesOf s id) base store

/-- The scale base of a tensor: its stream's, else free (R194, log 10). -/
def scaleBaseOf (s : State) (j : Job) (base : Nat) (store : Bool) : Nat :=
  match tensorDesc s j base store with
  | some d => d.scaleBase
  | none => Config.scaleBase j.asid base % 2 ^ 52

/-- Bytes between the scales of a tensor's rows (R195). -/
def scaleStride (fcw : BitVec 16) (stride : Nat) : Nat := stride * scaleBytes (fcwFmt fcw) / blockBytes fcw

/-- Where the scales of a row from block `b` on lie (R195). -/
def scaleAddr (sb : Nat) (fcw : BitVec 16) (stride row b : Nat) : Nat :=
  sb + row * scaleStride fcw stride + b * scaleBytes (fcwFmt fcw)

/-- The padding value of a command's operand (R31, R33): that of the load stream of its plan; under a standard plan that of its format control
word, with a free pad_value for VALUE (log 34). -/
def operandPad (s : State) (j : Job) (fcw : BitVec 16) (base : Nat) : F32 :=
  match tensorDesc s j base false with
  | some d => padValue d.fmt d.padValue
  | none => padValue fcw Config.standardPad

/-- Whether a byte of memory lies in a load tile that the plan step's streams declared empty, and whether that tile stands for poison (R33, R201,
R410). -/
def inEmpty (j : Job) (va : Nat) : Option Bool :=
  (j.emptied.find? (fun t => (List.range t.rows).any (fun r =>
    decide (t.base + t.stride * r ≤ va ∧ va < t.base + t.stride * r + t.rowBytes)))).map (·.bad)

/-- A padded position as the load path inserts it, after conversion, in the format that the consumer takes: RNE once, no poison (R33). -/
def padElem (cf : FloatFmt) (v : F32) : Elem := plainElem (convertTo cf (f32Num v)) false

/-- `n` elements of a tensor from column `col` of a row on, for a consumer that takes the format `cf` (R23, R33, R195). Positions of a page
answered NO_MAPPING have the padding value, marked poison (R220); those of a tile declared empty the padding value, unread when the whole run is
(R201); an element whose scale is poison is poison (R426). -/
def tensorElems (j : Job) (core operand : Nat) (cf : FloatFmt) (fcw : BitVec 16) (base stride row col n : Nat) : Act (List Elem) := do
  let s ← get
  let fmt := fcwFmt fcw
  let pad := padElem cf (operandPad s j fcw base)
  let lost : List Elem := List.replicate n { pad with poison := true }
  let at_ := base + row * stride + elemBytes fmt col
  let gone (i : Nat) : Option Bool := inEmpty j (at_ + elemBits fmt * i / 8)
  let padded (xs : List Elem) : List Elem :=
    if j.emptied.isEmpty then xs else xs.mapIdx (fun i x => (gone i).elim x (fun bad => { pad with poison := bad }))
  if !j.emptied.isEmpty && (List.range n).all (fun i => (gone i).isSome) then return padded (List.replicate n pad)
  match ← rowBytes j core operand at_ (spanBytes fmt n) with
  | none => return lost
  | some bs =>
    if hasBlocks fmt then
      let blk := blockElems (fcwBlk fcw)
      let z := scaleBytes fmt
      let b0 := col / blk
      let nb := (col + n + blk - 1) / blk - b0
      match ← rowBytes j core operand (scaleAddr (scaleBaseOf s j base false) fcw stride row b0) (nb * z) with
      | none => return lost
      | some sc =>
        let scale (i : Nat) : Nat × Bool :=
          let x := (sc.drop (((col + i) / blk - b0) * z)).take z
          (bytesNat (x.map (·.1)), x.any (·.2))
        return padded (decodeRow fcw scale bs n)
    else return padded (decodeRow fcw (fun _ => (0, false)) bs n)

/-- FP32 values of a packed vector. -/
def vectorF32 (j : Job) (core operand va n : Nat) : Act (List Marked) := do
  match ← rowBytes j core operand va (4 * n) with
  | none => return List.replicate n (Config.standardPad, true)
  | some bs =>
    return (chunksOf 4 n bs).map (fun c => ((BitVec.ofNat 32 (bytesNat (c.map (·.1))) : F32), c.any (·.2)))

/-! ### Tokens of KV pages (R106, R115) -/

/-- A key row and a value row. -/
abbrev TokenRows := List Elem × List Elem

/-- A token of a page that has no frame: +0.0 marked poison (R115). -/
def poisonToken (d : Nat) : TokenRows := (List.replicate d (plainElem elemZero.elem true), List.replicate d (plainElem elemZero.elem true))

/-- One stored row of a page with its block scales, decoded. -/
def pageRow (h : PageHdr) (bs sc : List (Byte × Bool)) (valid : Bool) : List Elem :=
  let fcw := hdrFcw h
  let fmt := fcwFmt fcw
  let per := scaleBytes fmt
  let scale (i : Nat) : Nat × Bool :=
    let o := i / blockElems (fcwBlk fcw) * per
    let x := (sc.drop o).take per
    (bytesNat (x.map (·.1)), x.any (·.2))
  (decodeRow fcw (if hasBlocks fmt then scale else fun _ => (0, false)) bs (hdrDim h)).map (fun e =>
    { e with poison := e.poison || !valid })

/-- A KV stream descriptor from its fields (R194): its value rows stand behind its key rows from the word `spad` on, which the control core
chooses (log 19). -/
def kvDescriptor (spad base scaleBase rows rowBytes stride : Nat) (fmt : BitVec 16) (store noFetch : Bool) (valid : BitVec 128) : Desc :=
  let ctl := 7 * 2 ^ 32 + 7 * 2 ^ 29 + 4096 * bit noFetch + 256 + 128 * bit store
  descOf (BitVec.ofNat 512 (bytesNat (natBytes 8 base ++ natBytes 8 scaleBase ++ natBytes 8 ctl ++ natBytes 4 spad ++
    natBytes 4 (rows * rowBytes / 16) ++ natBytes 2 rows ++ natBytes 2 rowBytes ++ natBytes 4 stride ++ natBytes 2 fmt.toNat ++ natBytes 6 0 ++
    natBytes 16 valid.toNat)))

/-- The first of the 128 tokens of a page whose descriptor holds a token (R194, R196). -/
def blockToken (token : Nat) : Nat := token / 128 * 128

/-- The descriptor that the control core builds for the tokens of a page from `first` on (R115, R196, R203): `valid` names the rows that are
delivered as stored, or that a store writes. -/
def pageDesc (s : State) (spad page : Nat) (h : PageHdr) (first : Nat) (store : Bool) (valid : BitVec 128) : Desc :=
  let d := numDie page
  let f := hdrForm h
  kvDescriptor spad (dataVa s d h.tier h.frame + first * f.rowBytes)
    (if f.scaleRow = 0 then 0 else scaleVa s d h.tier h.frame + first * f.scaleRow) (min 128 f.tokens) f.rowBytes
    (f.tokens * f.rowBytes + f.tokens * f.scaleRow * 2 ^ 16) (hdrFcw h) store false valid

/-- The descriptor of a page that has no frame: nothing is read (R115, R196). -/
def emptyDesc (spad d : Nat) : Desc := kvDescriptor spad 0 0 128 (2 * d) 0 0 false true 0

/-- The address of a row of a KV descriptor, and of its scales (R196). -/
def kvRowVa (d : Desc) (t : Nat) (value : Bool) : Nat := d.base + (if value then d.rowStride % 2 ^ 16 else 0) + t * d.rowBytes
def kvScaleVa (d : Desc) (t scaleRow : Nat) (value : Bool) : Nat :=
  d.scaleBase + (if value then d.rowStride / 2 ^ 16 else 0) + t * scaleRow

/-- The stored bytes of one row that a KV load descriptor moves, and its scales (R196). -/
def kvBytes (w : Who) (page : Nat) (h : PageHdr) (d : Desc) (t : Nat) (value : Bool) : Act (List (Byte × Bool) × List (Byte × Bool)) := do
  let w := ofDie w (numDie page)
  let z := (hdrForm h).scaleRow
  let bs ← poolData w (kvRowVa d t value) d.rowBytes
  let sc ← if z = 0 then pure [] else poolData w (kvScaleVa d t z value) z
  return (bs, sc)

/-- The stored bytes of one token's key or value row of a page, and of its scales (R106). -/
def tokenBytes (w : Who) (page : Nat) (h : PageHdr) (token : Nat) (value : Bool) : Act (List (Byte × Bool) × List (Byte × Bool)) := do
  let first := blockToken token
  kvBytes w page h (pageDesc (← get) 0 page h first false 0) (token - first) value

/-- The word of a core that a KV descriptor delivers a row to, or stores it from: key rows from spad on, value rows from spad + v_spad on
(R196). -/
def kvRowWord (d : Desc) (t : Nat) (value : Bool) : Nat := d.spad + (if value then d.vSpad else 0) + t * d.rowBytes / 16

/-- A delivered row of a KV descriptor laid into the core's words for the command (R196, R208). -/
def layKv (w : Who) (d : Desc) (t : Nat) (value : Bool) (bs sc : List (Byte × Bool)) : Act Unit :=
  modify (fun s => layBytes s (w.key.getD 0) w.core (kvRowWord d t value) bs sc)

/-- A token of a page as its descriptor delivers it (R115, R196): a row whose valid bit is 0 as poison, with NOFETCH +0.0 marked poison. `page`
is a page number + 1, 0 for a hole. -/
def tokenOf (w : Who) (d page token : Nat) : Act TokenRows := do
  let s ← get
  let h := (if page = 0 then none else peekHdr s (page - 1)).getD { hdrOf [] with state := 4 }
  let first := blockToken token
  let spad := placeWord s (w.key.getD 0) w.core [1, page, first]
  let desc := if h.state = 4 then emptyDesc spad d
    else pageDesc s spad (page - 1) h first false (BitVec.ofNat 128 (h.valid / 2 ^ first))
  let t := token - first
  if dNoFetch desc then
    let zero : List (Byte × Bool) := List.replicate desc.rowBytes (0, true)
    layKv w desc t false zero []
    layKv w desc t true zero []
    return poisonToken d
  else
    let row (value : Bool) : Act (List Elem) := do
      let (bs, sc) ← kvBytes w (page - 1) h desc t value
      let ok := desc.valid.getLsbD t
      layKv w desc t value (bs.map (fun b => (b.1, b.2 || !ok))) sc
      return pageRow h bs sc ok
    return (← row false, ← row true)

/-- What the walk found for a page of a sequence. -/
def walked (walk : List ((Nat × Nat × Nat) × Nat)) (seq head i : Nat) : Nat :=
  ((walk.find? (fun e => e.1 == (seq, head, i))).map (·.2)).getD 0

/-- A sequence's descriptor as the control core holds it. -/
def seqNow (s : State) (n : Nat) : SeqDesc :=
  match peekPool s 0 (seqVa s n) with
  | some pa => seqOf (peekBytes s pa 64)
  | none => seqOf []

/-- A sequence's waymark list as the control core holds it (R83). -/
def marksNow (s : State) (n : Nat) : List Nat :=
  match peekPool s 0 (seqVa s n) with
  | some pa => (List.range (seqNow s n).waymarkCount).map (fun i => bytesNat (peekBytes s (pa + 0x100 + 4 * i) 4) % 2 ^ 26)
  | none => []

/-- A token of a sequence by position. -/
def seqToken (w : Who) (walk : List ((Nat × Nat × Nat) × Nat)) (d seq head pos : Nat) : Act TokenRows := do
  let tpp := 2 ^ (seqNow (← get) seq).tppLog2
  tokenOf w d (walked walk seq head (pos / tpp)) (pos % tpp)

/-! ### Step staging (R366) -/

/-- Bytes with the poison of their granules: one poisoned element poisons its granule (R64, R406). -/
def markGranules (va : Nat) (bs : List (Byte × Bool)) : List (Byte × Bool) :=
  let o := va % 16
  let parts := bs.take (16 - o) :: chunksOf 16 bs.length (bs.drop (16 - o))
  parts.flatMap (fun g => g.map (fun b => (b.1, g.any (·.2))))

/-- A stored row: the bytes of the codes, each with the poison of its own elements (R64, R426). -/
def storedBytes (fcw : BitVec 16) (r : Nat → Nat) (xs : List Marked) : List (Byte × Bool) :=
  let fmt := fcwFmt fcw
  let bytes := packElems fmt (storeRow fcw r xs).codes
  let b := elemBits fmt
  let bad (i : Nat) : Bool := (xs.getD i (f32Zero, false)).2
  bytes.mapIdx (fun k x => (x, (List.range (8 / b + 1)).any (fun i => bad ((8 * k) / b + i) &&
    decide (((8 * k) / b + i) * b < 8 * k + 8))))

/-- The scale bytes of a stored row, each with its poison. -/
def storedScales (fcw : BitVec 16) (r : Nat → Nat) (xs : List Marked) : List (Byte × Bool) :=
  let st := storeRow fcw r xs
  let per := scaleBytes (fcwFmt fcw)
  (st.scales.zip st.scalePoison).flatMap (fun e => (natBytes per e.1).map (fun b => (b, e.2)))

/-! ### Unfinished sums written back (R37 to R39, R60) -/

/-- The number of the store stream that writes the running state back (log 34). -/
def stateStream : Nat := Config.storeStream 3 % 8

/-- The store stream of a loaded plan that writes unfinished sums back at the end of a plan step; none under a standard plan, whose running
state is FP32 (R37, R208). -/
def stateDesc (s : State) (op : Nat) (p : SlotWord) : Option Desc :=
  let id := planNamed op p
  if id = 0 then none
  else
    let img := planBytesOf s id
    let h := planHeader img
    ((queueDescs (planDescs img h) (queueEntry img h stateStream)).head?).filter (fun d => dStore d && dKind d == 0)

/-- Where a write-back places its rows: their format, the address and stride of the elements, the address of the scales. -/
structure BackPlace where
  fcw : BitVec 16
  base : Nat
  stride : Nat
  scaleBase : Nat

/-- The place of a write-back: the store stream's, or rows of FP32 side by side. -/
def backPlace (d : Option Desc) (width : Nat) : BackPlace :=
  match d with
  | some d => ⟨d.fmt, d.base, d.rowStride, d.scaleBase⟩
  | none => ⟨0, 0, 4 * width, 0⟩

/-- The granules of an element, and of the scale of a block, of a row of a write-back. -/
def elemGranule (b : BackPlace) (row i : Nat) : Nat := (b.base + row * b.stride + elemBytes (fcwFmt b.fcw) i) / 16
def scaleGranule (b : BackPlace) (row k : Nat) : Nat := scaleAddr b.scaleBase b.fcw b.stride row k / 16

/-- Rows of unfinished sums after their store stream has narrowed them and a load stream has read them back (R24, R37, R38). An element is
poison when its granule, or that of its block's scale, was written as poison (R64, R426). -/
def readBack (b : BackPlace) (r : Nat → Nat → Nat) (rows : List (List Marked)) : List (List Marked) :=
  let scaled := hasBlocks (fcwFmt b.fcw)
  let blk := blockElems (fcwBlk b.fcw)
  let stored := rows.mapIdx (fun i xs => storeRow b.fcw (r i) xs)
  let bad := (rows.mapIdx (fun i xs => (xs.zipIdx.filter (·.1.2)).map (fun x => elemGranule b i x.2))).flatten.eraseDups
  let badScales := (stored.mapIdx (fun i st => (st.scalePoison.zipIdx.filter (·.1)).map (fun x => scaleGranule b i x.2))).flatten.eraseDups
  stored.mapIdx (fun i st => st.codes.mapIdx (fun k code =>
    let n := if scaled then k / blk else 0
    (f32OfNum (decodeElem b.fcw (st.scales.getD n 0) code),
      bad.contains (elemGranule b i k) || (scaled && badScales.contains (scaleGranule b i n)))))

/-- The rows of an unfinished output tile written back and read again: `index` its logical tile index, `split` its logical split, `visit`
the number of earlier write-backs, `width` its columns (R39, R40). -/
def writeBack (d : Option Desc) (seed index split visit width : Nat) (rows : List (List Marked)) : List (List Marked) :=
  readBack (backPlace d width) (fun i c => srValue seed (srC0 visit) index (srC2 stateStream 0 split) 0 (i * width + c)) rows

/-- FP32 values as bytes. -/
def bytesF32 (xs : List Marked) : List (Byte × Bool) := xs.flatMap (fun x => (natBytes 4 x.1.toNat).map (fun b => (b, x.2)))

/-- A tile of rows for memory. -/
def memTile (j : Job) (dest stride : Nat) (rows : List (List (Byte × Bool))) : List Staged :=
  if rows.isEmpty then [] else [{ kind := 0, asid := j.asid, dest := dest, stride := stride, rows := rows }]

/-- Bytes a staged tile holds. -/
def stagedSize (t : Staged) : Nat := (t.rows.map (·.length)).sum

/-- Whether anything staged is poison. -/
def stagedPoison (t : Staged) : Bool := t.rows.any (fun r => r.any (·.2))

/-- Bits written into one byte of memory: the mask and the values (R98 mrow_base). -/
def writeBits (j : Job) (va : Nat) (row : List (Byte × Bool)) : Act Unit := do
  let w := j.who 0 8
  let pa ← xlateAct w j.asid va 3
  if regionOf pa = .host ∧ hostHeld (← get) j.key then throw (.park .waitHost)
  let old ← physReadAct w pa 1
  let m := (row.getD 0 (0, false)).1
  let v := row.getD 1 (0, false)
  let o := (old.getD 0 (0, false))
  modify (physWrite w pa [(o.1 &&& ~~~m) ||| (v.1 &&& m)] (v.2 || o.2))

/-- A row with its poison written to the address space of a staged tile; rows in pages answered NO_MAPPING are discarded (R220). -/
def drainRow (j : Job) (asid va : Nat) (row : List (Byte × Bool)) : Act Unit := do
  let w := j.who 0 8
  let gone := if asid = j.asid then unmappedPages j w va row.length else []
  if !gone.isEmpty then
    modify (fun s => gone.foldl (fun s page => noteHoldPage s j.key j.cluster w.core w.queue page) (markPoison s j.key))
  else
    let held := hostHeld (← get) j.key
    for e in poisonRuns 0 (markGranules va row) do
      writeVa (j.who 0 8) held asid (va + e.1) e.2.1 e.2.2

/-- The tokens a staged tile makes valid, and what step 7 of R118 sets; a page dropped meanwhile has no token to make valid (R128). -/
def validTokens (j : Job) (t : Staged) (seq : Nat) (retain : Nat) : Act Unit := do
  let w := j.ctl
  let h ← readHdr w (t.page - 1)
  let ones := (2 ^ t.rows.length - 1) * 2 ^ t.token
  let now_ := touchNow (← get)
  if h.state ≠ 4 then writeHdr w (t.page - 1) { h with
    valid := h.valid ||| ones, writerSeq := seq, touch := now_, fmt := h.fmt % 16384 + retain % 4 * 16384 }

/-- One staged row sent to another scratchpad or to the package handoff, in transfers of at most 256 bytes (R174, R187, R192). -/
def sendRow (t : Staged) (a : Nat) (row : List (Byte × Bool)) (s : State) : State :=
  (lines256 (row.length + 1) a row.length).foldl (fun s e =>
    let bs := (row.drop (e.1 - a)).take e.2
    if t.kind = 2 then remoteTransfer s t.core t.ctr e.1 bs else handoffTransfer s e.1 bs) s

/-- A staged REMOTE or HANDOFF tile or a handoff notice sent on its way (R366). -/
def drainAway (t : Staged) (s : State) : State :=
  let first := if t.kind = 2 then t.dest * 16 else t.dest
  let s := t.rows.zipIdx.foldl (fun s e => sendRow t (first + t.stride * e.2) e.1 s) s
  match t.notice with
  | some n => postNotice s t.core n.1 n.2
  | none => s

/-- One staged tile moved to its destination (R366). A write to a page in QUARANTINE is illegal (R110). -/
def drainTile (j : Job) (t : Staged) : Act Unit := do
  if t.kind = 2 ∨ t.kind = 3 then
    modify (drainAway t)
    return
  if t.page ≠ 0 then
    let h ← legalHdr j.ctl (t.page - 1)
    if h.state = 5 then pageIllegal j.ctl (t.page - 1) 5 (hdrCtl h)
  for e in t.rows.zipIdx do
    let va := t.dest + t.stride * e.2
    if t.kind = 4 then writeBits j va e.1
    else if t.kind = 1 then
      for r in poisonRuns 0 (markGranules va e.1) do
        poolStore (j.who 0 8) (va + r.1) (r.2.1.map (fun b => (b, r.2.2)))
    else drainRow j t.asid va e.1
  if t.page ≠ 0 then
    let seq := param j.p 0x44 16
    validTokens j t seq (seqNow (← get) seq).retain

end Sys2Proof.Machine
end

