-- ==== Sys2Proof/Machine/Steps.lean ====
section
/-! DEFINITION. How a compute command is cut into plan steps: query tiles and packing, the items of a split, octets of splits that run on
one cluster, and which step a cluster runs next (spec/04_attention_dataflow.md R84, R85, R89, R90, R96, spec/11_kettle_links.md R299
to R301, spec/13_scheduling.md R340). -/
namespace Sys2Proof.Machine

/-! ### Query rows (R82, R89) -/

/-- A query row: its row in the tensors, its position, its sequence and the end of its keys. -/
structure QRow where
  row : Nat
  pos : Nat
  seq : Nat
  kvEnd : Nat
  deriving DecidableEq, Repr

/-- The rows of a pack entry. -/
def entryRows (e : PackEntry) : List QRow := (List.range e.count).map (fun i => ⟨e.row + i, e.pos + i, e.seq, e.kvEnd⟩)

/-- Entries fill query tiles in table order; one that does not fit starts the next tile (R89). -/
def packRows : List PackEntry → List QRow → List (List QRow)
  | [], [] => []
  | [], cur => [cur]
  | e :: rest, cur =>
    if cur.length + e.count > 128 then cur :: packRows rest (entryRows e) else packRows rest (cur ++ entryRows e)

/-- Query tiles of a command. -/
def queryTileCount (c : Cmd) (p : SlotWord) : Nat :=
  if c.packTable.isEmpty then (param p 0x54 32 + 127) / 128 else (packRows (c.packTable.map packOf) []).length

/-- The rows of a query tile. -/
def queryRows (c : Cmd) (p : SlotWord) (qt : Nat) : List QRow :=
  if c.packTable.isEmpty then
    (List.range (min 128 (param p 0x54 32 - 128 * qt))).map (fun i =>
      ⟨128 * qt + i, param p 0x50 26 + 128 * qt + i, param p 0x5C 16, param p 0x58 27⟩)
  else (packRows (c.packTable.map packOf) []).getD qt []

/-- Rows of the Q and O tensors: the lse and flag arrays hold one entry for each (R98, R99). -/
def queryRowTotal (c : Cmd) (p : SlotWord) : Nat :=
  if c.packTable.isEmpty then param p 0x54 32 else (c.packTable.map packOf).foldl (fun m e => max m (e.row + e.count)) 0

/-! ### Pairs of query row and key tile (R82, R84, R85) -/

/-- The waymark list a command applies to a sequence (R83). -/
def marksFor (s : State) (m : MaskForm) (seq : Nat) : List Nat := if m.waymarks then marksNow s seq else []

/-- Whether a key tile of a sequence belongs to a split for a row (R85, R89). -/
def ownsTile (s' split seq t : Nat) (r : QRow) : Bool :=
  let g := splitRange (keyTiles r.kvEnd) s' split
  r.seq == seq && decide (g.1 ≤ t ∧ t < g.2)

/-- The keys of a tile that a row is allowed (R82). -/
def rowKeys (m : MaskForm) (marks : List Nat) (s' split seq t : Nat) (r : QRow) : List Bool :=
  if ownsTile s' split seq t r then (List.range 128).map (fun i => allowed m r.kvEnd marks r.pos (128 * t + i))
  else List.replicate 128 false

/-- Whether a pair of query tile and key tile is not skipped (R84). -/
def pairRuns (m : MaskForm) (marks : List Nat) (s' split seq t : Nat) (rows : List QRow) : Bool :=
  rows.any (fun r => (rowKeys m marks s' split seq t r).any id)

/-- The sequence and key tile pairs that a split visits for a query tile, in order (R84, R85, R89). -/
def visitTiles (s : State) (m : MaskForm) (s' split : Nat) (rows : List QRow) : List (Nat × Nat) :=
  (rows.map (·.seq)).eraseDups.flatMap (fun q =>
    let mine := (rows.filter (fun r => r.seq == q)).map (fun r => splitRange (keyTiles r.kvEnd) s' split)
    let hi := mine.foldl (fun a g => max a g.2) 0
    let lo := mine.foldl (fun a g => min a g.1) hi
    ((List.range (hi - lo)).map (fun i => lo + i)).filterMap (fun t =>
      if pairRuns m (marksFor s m q) s' split q t rows then some (q, t) else none))

/-! ### The shape of a command -/

/-- Split count after padding (R42). -/
def splitsOf (op : Nat) (p : SlotWord) : Nat :=
  padSplits (match op with
    | 0x0303 => param p 0x4C 16
    | 0x0304 => param p 0x54 16
    | _ => param p 0x64 16)

/-- Output columns of PROJ (R90). -/
def projCols (p : SlotWord) : Nat := let h := shapeAt p 0x48; (h.qHeads + 2 * h.kvHeads) * h.d

/-- Column tiles of a matrix command, query tiles of an attention command. -/
def tilesAcross (c : Cmd) (op : Nat) (p : SlotWord) : Nat :=
  match op with
  | 0x0303 => (projCols p + 127) / 128
  | 0x0304 => (param p 0x4C 32 + 127) / 128
  | _ => queryTileCount c p

/-- Output tiles, numbered as R97 and R330 number them; the dQ tiles of ATTN_BWD. -/
def tileCount (c : Cmd) (op : Nat) (p : SlotWord) : Nat :=
  tilesAcross c op p * (match op with
    | 0x0303 => (param p 0x38 32 + 127) / 128
    | 0x0304 => (param p 0x48 32 + 127) / 128
    | _ => (shapeAt p 0x60).qHeads)

/-- The k-tiles of a matrix command (R90, R330). -/
def reduceTiles (op : Nat) (p : SlotWord) : Nat := if op = 0x0303 then param p 0x40 32 / 128 else (param p 0x50 32 + 127) / 128

/-- The formats of a matrix command's operands and its passes (R36). -/
def matrixForm (op : Nat) (p : SlotWord) : BitVec 16 × BitVec 16 × Nat :=
  let a := fcwAt p (if op = 0x0303 then 0x50 else 0x58)
  let b := fcwAt p (if op = 0x0303 then 0x52 else 0x5A)
  (a, b, usedPasses (if op = 0x0303 then (shapeAt p 0x48).passes else param p 0x5E 16 / 16 % 4) (fcwFmt a) (fcwFmt b))

/-- An item of a backward task: a query tile of a head against a key tile, or the store of a key tile's dK and dV (R94, R96). -/
inductive BackItem where
  | pair (head qt tile : Nat)
  | store (tile : Nat)
  deriving DecidableEq, Repr

/-- The items of a KV head's split: for each key tile its pairs in ascending head and query tile, then its store (R96). -/
def backItems (s : State) (c : Cmd) (p : SlotWord) (g split : Nat) : List BackItem :=
  let m := maskAt p
  let h := shapeAt p 0x60
  let s' := splitsOf 0x0302 p
  let seq := param p 0x5C 16
  let r := splitRange (keyTiles (param p 0x58 27)) s' split
  ((List.range (r.2 - r.1)).map (fun i => r.1 + i)).flatMap (fun t =>
    let qts := (List.range (queryTileCount c p)).filter (fun qt =>
      pairRuns m (marksFor s m seq) s' split seq t (queryRows c p qt))
    (List.range h.group).flatMap (fun i => qts.map (fun qt => BackItem.pair (g * h.group + i) qt t)) ++ [.store t])

/-- The sequence of an attention command, under packing that of the first entry, whose page format every entry's has (R88). -/
def firstSeq (c : Cmd) (p : SlotWord) : Nat :=
  match c.packTable with
  | [] => param p 0x5C 16
  | v :: _ => (packOf v).seq

/-- The key format of an attention command. -/
def keyFmt (s : State) (c : Cmd) (p : SlotWord) : Nat := (seqNow s (firstSeq c p)).fmtKv % 32

/-- Array passes for one item of a standard plan: a key tile of ATTN_FWD, a tile pair of ATTN_BWD, a k-tile (R35, R58, R94). -/
def itemPasses (s : State) (c : Cmd) (op : Nat) (p : SlotWord) : Nat :=
  let n (a b : Nat) : Nat := usedPasses (shapeAt p 0x60).passes a b
  let fq := fcwFmt (fcwAt p 0x68)
  let fk := keyFmt s c p
  let fo := fcwFmt (fcwAt p 0x6A)
  let ft := if fk = 2 then 2 else 1
  match op with
  | 0x0301 => n fq fk + n fk (probFmt fk)
  | 0x0302 => n fq fk + n fo fk + n ft fo + n ft fq + n ft fk
  | _ => (matrixForm op p).2.2

/-- Items per visit of a standard plan: what 4,096 cycles of array slots hold, a pass of attention at head dimension 64 being halved
(R57, R340). -/
def visitSize (s : State) (c : Cmd) (op : Nat) (p : SlotWord) : Nat :=
  let slots := if (op = 0x0301 ∨ op = 0x0302) ∧ (shapeAt p 0x60).d ≠ 128 then 64 else 32
  max 1 (slots / max 1 (itemPasses s c op p))

/-- Items of a task: a task is an output tile's split, or for ATTN_BWD a KV head's split. -/
def taskSize (s : State) (c : Cmd) (op : Nat) (p : SlotWord) (task : Nat) : Nat :=
  let s' := splitsOf op p
  match op with
  | 0x0301 => (visitTiles s (maskAt p) s' (task % s') (queryRows c p (task / s' % tilesAcross c op p))).length
  | 0x0302 => (backItems s c p (task / s') (task % s')).length
  | _ => let r := splitRange (reduceTiles op p) s' (task % s'); r.2 - r.1

/-- Visits of a task. -/
def taskVisits (s : State) (c : Cmd) (op : Nat) (p : SlotWord) (task : Nat) : Nat :=
  (taskSize s c op p task + visitSize s c op p - 1) / visitSize s c op p

/-! ### Octets: what the eight cores of a cluster do together -/

/-- Tasks that run side by side on the cores of a cluster, the output tiles finished with them, the ring round they belong to, and the
octet whose cluster runs it: its own where none is named, for a finish that of its tiles' lowest split (R87). -/
structure Octet where
  tasks : List Nat
  finish : List Nat
  round : Nat
  home : Option Nat := none
  deriving DecidableEq, Repr

/-- Tasks in groups of eight. -/
def octetsOf (round : Nat) (tasks : List Nat) : List Octet := (chunksOf 8 tasks.length tasks).map (fun ts => ⟨ts, [], round, none⟩)

/-- Tiles finished in groups of eight of one home, after everything else: the root of a tile is formed by the cluster that holds the partial
of its lowest split (R66, R87). -/
def finishOctets (round : Nat) (home : Nat → Nat) (tiles : List Nat) : List Octet :=
  ((tiles.map home).eraseDups).flatMap (fun h =>
    let mine := tiles.filter (fun t => home t == h)
    (chunksOf 8 mine.length mine).map (fun ts => ⟨[], ts, round, some h⟩))

/-- The splits of a position's block (R299). -/
def blockSplits (s' count pos : Nat) : List Nat := (List.range (s' / count)).map (fun i => pos * s' / count + i)

/-- The group mode of a ring command, 0 for every other command (R297). -/
def ringMode (s : State) (c : Cmd) : Nat := if isRing c then groupMode s c else 0

/-- The octets of a command that runs in no ring group (R340). An output tile of at most eight splits finishes in the octet that computes
them; of more, in an octet of its own on the cluster of its lowest split. -/
def plainOctets (op s' across group tilesOfHead : Nat) : List Octet :=
  let splits := List.range s'
  if op = 0x0302 then
    octetsOf 0 ((List.range across).flatMap (fun t => splits.map (fun x => t * s' + x))) ++
      finishOctets 1 (fun t => t / tilesOfHead / group * s' / 8) (List.range (across * group * tilesOfHead))
  else if s' ≤ 8 then
    (octetsOf 0 ((List.range across).flatMap (fun t => splits.map (fun x => t * s' + x)))).map (fun o =>
      { o with finish := (o.tasks.filter (fun t => t % s' = s' - 1)).map (· / s') })
  else
    (List.range across).flatMap (fun t =>
      octetsOf 0 (splits.map (fun x => t * s' + x)) ++ [⟨[], [t], 0, some (t * (s' / 8 + 1))⟩])

/-- The octets of a command, in order (R299 to R301, R340). -/
def octets (s : State) (c : Cmd) : List Octet :=
  let p := slotAt s c.key
  let op := c.opcode
  let s' := splitsOf op p
  let tiles := tileCount c op p
  let across := if op = 0x0302 then (shapeAt p 0x60).kvHeads else tiles
  let group := (shapeAt p 0x60).group
  let tasksOf (splits : List Nat) : List Nat := (List.range across).flatMap (fun t => splits.map (fun x => t * s' + x))
  let pos := groupPos s c
  let count := groupCount s c
  let blk := s' / count
  let source (t : Nat) : Nat := if op = 0x0302 then t / tilesAcross c op p / group else t
  match ringMode s c with
  | 1 =>
    let perRound := (across * blk + 7) / 8
    (List.range count).flatMap (fun r => octetsOf r (tasksOf (blockSplits s' count ((pos + count - r) % count)))) ++
      finishOctets count (fun t => pos * perRound + source t * blk / 8) (List.range tiles)
  | 2 => octetsOf 0 (tasksOf (blockSplits s' count pos)) ++ finishOctets 1 (fun t => source t * blk / 8) (List.range tiles)
  | _ => plainOctets op s' across group (tilesAcross c op p)

/-- Whether the tiles of an octet finish in its last visit: a single split needs no combine (R76, R86). -/
def finishesInVisit (op s' : Nat) (o : Octet) : Bool := op ≠ 0x0302 && s' == 1 && !o.tasks.isEmpty

/-- Whether a task is logical split 0 of a MATMUL that accumulates: its sums start from C, k-tile or none (R330). -/
def startsFromC (op : Nat) (p : SlotWord) (task : Nat) : Bool := op == 0x0304 && paramBit p 0x5E 1 && task % splitsOf op p == 0

/-- Visits of an octet under a standard plan: those of its longest task, one at least where it finishes a tile or a task starts from C. -/
def standardVisits (s : State) (c : Cmd) (o : Octet) : Nat :=
  let p := slotAt s c.key
  let n := o.tasks.foldl (fun m t => max m (taskVisits s c c.opcode p t)) 0
  if finishesInVisit c.opcode (splitsOf c.opcode p) o ∨ o.tasks.any (startsFromC c.opcode p) then max 1 n else n

/-- The plan steps of one run of a loaded plan: the descriptors of its step queue (R209); 0 for a standard plan. -/
def planRun (s : State) (c : Cmd) : Nat :=
  let id := cmdPlan s c
  if id = 0 then 0 else let img := planBytesOf s id; (queueEntry img (planHeader img) (planHeader img).stepQueue).count

/-- Plan steps in which an octet computes: under a standard plan one for each visit, under a loaded plan one for each descriptor of the
plan's step queue (R209). -/
def octetVisits (s : State) (c : Cmd) (o : Octet) : Nat :=
  if planRun s c = 0 ∨ o.tasks.isEmpty then standardVisits s c o else planRun s c

/-- The visits that plan step `v` of an octet runs, from and to: under a loaded plan an even share of them (log 60). -/
def visitRange (s : State) (c : Cmd) (o : Octet) (v : Nat) : Nat × Nat :=
  if planRun s c = 0 then (v, v + 1)
  else (v * standardVisits s c o / planRun s c, (v + 1) * standardVisits s c o / planRun s c)

/-- The visits of a plan step, in order. -/
def stepVisits (s : State) (c : Cmd) (o : Octet) (v : Nat) : List Nat :=
  let r := visitRange s c o v
  (List.range (r.2 - r.1)).map (fun i => r.1 + i)

/-- Plan steps of an octet. -/
def octetSteps (s : State) (c : Cmd) (o : Octet) : Nat :=
  let last := !o.finish.isEmpty && !finishesInVisit c.opcode (splitsOf c.opcode (slotAt s c.key)) o
  octetVisits s c o + bit last

/-- Octet `i` runs on hold `i mod n`, a finish on the hold of its home: those of one hold, with their indices. -/
def holdOctets (s : State) (c : Cmd) (n hold : Nat) : List (Nat × Octet) :=
  ((octets s c).zipIdx.filter (fun e => e.1.home.getD e.2 % n == hold)).map (fun e => (e.2, e.1))

/-- A plan step: its octet with its index, which step of the octet it is, the tasks of the octet that it computes, and whether it is the last
step of its visit. -/
structure StepAt where
  index : Nat
  octet : Octet
  visit : Nat
  wave : List Nat
  last : Bool

/-- Step `i` of a list of octets. -/
def stepIn (s : State) (c : Cmd) : List (Nat × Octet) → Nat → Option StepAt
  | [], _ => none
  | (k, o) :: rest, i =>
    let n := octetSteps s c o
    if i < n then some ⟨k, o, i, o.tasks, true⟩ else stepIn s c rest (i - n)

/-- The index of a cluster among a command's holds. -/
def holdIndex (c : Cmd) (g : Nat) : Nat := (c.holds.findIdx? (fun h => h.cluster == g)).getD 0

/-- The cores of a cluster that are not fenced. -/
def coresLeft (s : State) (g : Nat) : List Nat := (List.range 8).filter (fun i => !isFenced s (8 * g + i))

/-- The plan step a hold runs next. Where fewer cores than tasks are left, it computes as many tasks of the visit as there are cores, so that no
core runs the visits of two tasks in one plan step (R13, R65, R340). -/
def nextStep (s : State) (c : Cmd) (h : Hold) : Option StepAt :=
  (stepIn s c (holdOctets s c c.holds.length (holdIndex c h.cluster)) h.steps).map (fun x =>
    let left := x.octet.tasks.filter (fun t => !h.ran.contains t)
    let n := max 1 (coresLeft s h.cluster).length
    { x with wave := left.take n, last := decide (left.length ≤ n) })

/-- The index of a plan step within its command: the steps of the octets before its own come first (R199). -/
def stepIndex (s : State) (c : Cmd) (x : StepAt) : Nat := (((octets s c).take x.index).map (octetSteps s c)).sum + x.visit

/-- Whether a step only finishes tiles (R86). -/
def isFinish (s : State) (c : Cmd) (x : StepAt) : Bool := decide (x.visit ≥ octetVisits s c x.octet)

/-- Whether a step finishes the tiles of its octet. -/
def finishesTiles (s : State) (c : Cmd) (x : StepAt) : Bool :=
  isFinish s c x ||
    (finishesInVisit c.opcode (splitsOf c.opcode (slotAt s c.key)) x.octet && x.last && decide (x.visit + 1 = octetVisits s c x.octet))

/-- Whether every step of an octet has committed. -/
def octetDone (s : State) (c : Cmd) (i : Nat) : Bool :=
  let n := c.holds.length
  let home := (((octets s c)[i]?).bind (·.home)).getD i
  match c.holds[home % n]? with
  | none => false
  | some h =>
    let before := (holdOctets s c n (home % n)).filter (fun e => decide (e.1 ≤ i))
    decide (h.steps ≥ (before.map (fun e => octetSteps s c e.2)).sum)

/-- Whether every visit of the octet of a task has committed: its partial is there (R85). A task of no octet runs on another package. -/
def partialDone (s : State) (c : Cmd) (task : Nat) : Bool :=
  match (octets s c).zipIdx.find? (fun e => e.1.tasks.contains task) with
  | none => false
  | some (o, i) =>
    let n := c.holds.length
    match c.holds[o.home.getD i % n]? with
    | none => false
    | some h =>
      let before := (holdOctets s c n (o.home.getD i % n)).filter (fun e => decide (e.1 < i))
      decide (h.steps ≥ (before.map (fun e => octetSteps s c e.2)).sum + octetVisits s c o)

/-- The cluster that holds the partial of a task (R87). -/
def partialCluster (s : State) (c : Cmd) (task : Nat) : Option Nat :=
  match (octets s c).zipIdx.find? (fun e => e.1.tasks.contains task) with
  | none => none
  | some (o, i) => (c.holds[o.home.getD i % c.holds.length]?).map (·.cluster)

/-- Whether a task gives a partial of an output tile. -/
def feeds (c : Cmd) (p : SlotWord) (task tile : Nat) : Bool :=
  let s' := splitsOf c.opcode p
  if c.opcode = 0x0302 then task / s' == tile / tilesAcross c c.opcode p / (shapeAt p 0x60).group else task / s' == tile

/-- Whether the earlier octets that a finish needs have committed: those that give its tiles a partial, and under a row reduction
those that finish tiles to their left (R69, R86). -/
def finishReady (s : State) (c : Cmd) (x : StepAt) : Bool :=
  let p := slotAt s c.key
  let red := c.opcode == 0x0304 && decide (param p 0x5E 16 / 4 % 4 ≠ 0)
  let across := tilesAcross c c.opcode p
  let needs (o : Octet) : Bool :=
    x.octet.finish.any (fun t => o.tasks.any (fun k => feeds c p k t) ||
      (red && o.finish.any (fun u => u / across == t / across && decide (u < t))))
  ((octets s c).zipIdx.filter (fun e => decide (e.2 < x.index))).all (fun e => !needs e.1 || octetDone s c e.2)

/-! ### The cores of a cluster (R13, R65) -/

/-- The core of a cluster that computes the task at a position of a plan step: the control core deals tasks over the cores that are not fenced
(R13, R65). -/
def coreFor (s : State) (g i : Nat) : Nat :=
  let l := coresLeft s g
  l.getD (i % max 1 l.length) (i % 8)

/-- Whether every octet of the rounds before a round has committed (R300). -/
def roundsDone (s : State) (c : Cmd) (r : Nat) : Bool :=
  (octets s c).zipIdx.all (fun e => decide (e.1.round ≥ r) || octetDone s c e.2)

/-- Plan steps of a command over all its clusters (R311). -/
def plannedSteps (s : State) (c : Cmd) : Nat := ((octets s c).map (octetSteps s c)).sum

end Sys2Proof.Machine
end

