-- ==== Sys2Proof/Machine/Tiles.lean ====
section
/-! DEFINITION. What the cores compute in a plan step: the passes of forward and backward attention and of matrix commands through the score
array and the accumulator file (spec/03_score_array.md, spec/04_attention_dataflow.md). -/
namespace Sys2Proof.Machine

/-- What a plan step works from: its job, the command, what the walk found, and the ring round. -/
structure Env where
  j : Job
  c : Cmd
  walk : List ((Nat × Nat × Nat) × Nat)
  round : Nat

/-- What a plan step leaves: the command's partials with the counts of their write-backs, the tiles it stages, and the fully masked rows it
finished. -/
structure StepOut where
  parts : Table (List RowAcc)
  backs : Table Nat
  staged : List Staged
  masked : Nat

/-- A task of a core in a plan step: the task and its visits. -/
abbrev TaskRun := Nat × List Nat

/-! ### The array and the accumulator file of a core (R48, R49, R66) -/

/-- The global number of a core of the job's cluster. -/
def Env.core (e : Env) (core : Nat) : Nat := 8 * e.j.cluster + core

/-- The passes of an operand pair on a core; swaps and ripple-ins are counted (R48, R71). -/
def corePasses (e : Env) (core : Nat) (x : PairIn) (ps : List Product) (sums : List (List Sum)) : Act (List (List Sum)) := do
  let s ← get
  let r := pairPasses x ps (arrayAt s (e.core core)) sums
  set (countEntries (setArray s (e.core core) r.1) e.j.cluster r.2.2)
  return r.2.1

/-- The bank of an output tile, filled from its partial when it has none yet (R49). -/
def fillBank (e : Env) (core tile : Nat) (part : List RowAcc) : Act (List (List Sum)) := do
  let s ← get
  match accBank (arrayAt s (e.core core)) tile with
  | some rows => return rows
  | none => return part.map (·.o)

/-- The bank of an output tile written. -/
def writeBank (e : Env) (core tile : Nat) (rows : List (List Sum)) : Act Unit :=
  modify (fun s => setArray s (e.core core) (setAccBank (arrayAt s (e.core core)) tile rows))

/-- The bank of an output tile drained into its partial: written back, handed to the combine unit or to the output path (R49, R66). -/
def drainBank (e : Env) (core tile : Nat) (part : List RowAcc) : Act (List RowAcc) := do
  let s ← get
  let a := arrayAt s (e.core core)
  match accBank a tile with
  | none => return part
  | some rows =>
    set (setArray s (e.core core) { a with banks := a.banks.filter (fun b => b.1 ≠ tile) })
    return (part.zip rows).map (fun x => { x.1 with o := x.2 })

/-- The arrays of a cluster hold nothing from one plan step to the next (R60). -/
def clearArrays (s : State) (g : Nat) : State := { s with arrays := s.arrays.filter (fun e => decide (e.1 / 8 ≠ g)) }

/-- A running sum that starts from zero. -/
def zeroSum : Sum := (f32Zero, false)

/-- `n` vectors of `m` running sums that start from zero. -/
def zeroSums (n m : Nat) : List (List Sum) := List.replicate n (List.replicate m zeroSum)

/-- A plan step's counts that only timing decides: busy cycles, feed stalls and shadow waits, and the stream counts of the tiles that no rule
gives: those of a standard plan, and under a loaded one those of the KV descriptors that the control core builds (R203, R227; log 14). -/
def countTiming (s : State) (g : Nat) (standard kv : Bool) : State :=
  let s := [0x18, 0x30, 0x38].foldl (fun s r => bumpFree s (0x2000 + g * 0x80) r) s
  if standard ∨ kv then [0x08, 0x10, 0x18, 0x20, 0x28].foldl (fun s r => bumpFree s (0x4000 + g * 0x80) r) s else s

/-! ### Keys -/

/-- The address of a block's tile in its staging half (R300). -/
def stagedTile (s : State) (e : Env) (fcw : BitVec 16) (d seq head t : Nat) : Nat :=
  let p := e.j.p
  let n := groupCount s e.c
  let b := blockPairs (keySpans e.c.packTable p) (splitsOf 0x0301 p) n ((groupPos s e.c + n - e.round) % n)
  stageAddr s e.round 0 + (head * b.length + b.findIdx (fun x => x == (seq, t))) * tileBytes fcw d

/-- A token of a block in its staging half: its stored words and scales (R300). -/
def stagedToken (e : Env) (core : Nat) (q : SeqDesc) (seq head t i : Nat) : Act TokenRows := do
  let fcw := BitVec.ofNat 16 q.fmtKv
  let d := dimOf q.hd
  let f := pageForm fcw d 0
  let h : PageHdr := { hdrOf [] with fmt := q.fmtKv % 8192 + (if d = 128 then 8192 else 0) }
  let base := stagedTile (← get) e fcw d seq head t
  let w := e.j.who core 1
  let row (value : Nat) : Act (List Elem) := do
    let bs ← poolData w (base + (128 * value + i) * f.rowBytes) f.rowBytes
    let sc ← if f.scaleRow = 0 then pure [] else
      poolData w (base + 256 * f.rowBytes + (128 * value + i) * f.scaleRow) f.scaleRow
    return pageRow h bs sc true
  return (← row 0, ← row 1)

/-- The key and value rows of the unmasked lanes of a key tile (R61, R115, R300). Masked lanes add no product, in the FP8 and MXFP4 modes too,
where a cell can hold masked and unmasked keys (DESIGN CHOICE, log 57). -/
def keyRows (e : Env) (core seq head t : Nat) (lanes : List Bool) : Act (List TokenRows) := do
  let q := seqNow (← get) seq
  let mut out := []
  for x in lanes.zipIdx do
    if x.1 then
      let k ← if e.round = 0 then seqToken (e.j.who core 1) e.walk (dimOf q.hd) seq head (128 * t + x.2)
        else stagedToken e core q seq head t x.2
      out := out ++ [k]
  return out

/-- The entries of a list whose lane is unmasked. -/
def laneList {α : Type} (lanes : List Bool) (xs : List α) : List α := (lanes.zip xs).filterMap (fun e => if e.1 then some e.2 else none)

/-- The lanes that some row does not mask (R61). -/
def anyLane (masks : List (List Bool)) : List Bool := (List.range 128).map (fun i => masks.any (fun m => m.getD i false))

/-- The elements of a list dealt to the places that are on. -/
def spread {α : Type} : List Bool → List α → List (Option α)
  | [], _ => []
  | true :: bs, x :: xs => some x :: spread bs xs
  | _ :: bs, xs => none :: spread bs xs

/-- Rows replaced where a new one was produced; a suppressed output leaves its entry (R62). -/
def mergeRows {α : Type} (on : List Bool) (new old : List α) : List α :=
  ((spread on new).zip old).map (fun x => x.1.getD x.2)

/-! ### Forward attention (R58, R74 to R80) -/

/-- The formats of an attention command on a sequence's pages (R36, R73). -/
def attnForm (p : SlotWord) (q : SeqDesc) : AttnForm :=
  let h := shapeAt p 0x60
  let fq := fcwFmt (fcwAt p 0x68)
  let fk := q.fmtKv % 32
  ⟨h.d, fq, fk, usedPasses h.passes fq fk, usedPasses h.passes fk (probFmt fk), fMul (BitVec.ofNat 32 (param p 0x4C 32)) f32Log2E⟩

/-- A query row of a head. -/
def queryElems (j : Job) (core head row fk : Nat) : Act (List Elem) :=
  let d := (shapeAt j.p 0x60).d
  tensorElems j core 0 (operandFmt (fcwFmt (fcwAt j.p 0x68)) fk) (fcwAt j.p 0x68) (param j.p 0x08 64) (param j.p 0x40 32) row (head * d) d

/-- A forward task in a plan step: the model's number of its query tile, its key tiles and its rows with their query elements. -/
structure FwdTask where
  task : Nat
  n : Nat
  items : List (Nat × Nat)
  rows : List (QRow × List Elem)

/-- A key tile between its QKᵀ pass and its PV pass: the unmasked value rows, and each row's step through the softmax engine. -/
structure FwdTile where
  form : AttnForm
  values : List (List Elem)
  steps : List (Option RowStep)

/-- The rows of a task's query tile, those loaded that do not mask every tile. -/
def fwdTask (e : Env) (core n : Nat) (r : TaskRun) : Act FwdTask := do
  let s ← get
  let p := e.j.p
  let s' := splitsOf 0x0301 p
  let per := visitSize s e.c 0x0301 p
  let across := tilesAcross e.c 0x0301 p
  let rows := queryRows e.c p (r.1 / s' % across)
  let m := maskAt p
  let all := visitTiles s m s' (r.1 % s') rows
  let items := r.2.flatMap (fun v => (all.drop (v * per)).take per)
  let mut loaded : List (QRow × List Elem) := []
  for q in rows do
    let on := items.any (fun x => (rowKeys m (marksFor s m x.1) s' (r.1 % s') x.1 x.2 q).any id)
    let xs ← if on then queryElems e.j core (r.1 / s' / across) q.row ((seqNow s q.seq).fmtKv % 32) else pure []
    loaded := loaded ++ [(q, xs)]
  return ⟨r.1, n, items, loaded⟩

/-- The partial that a task goes on from (R74). -/
def fwdPart (d : Nat) (parts : Table (List RowAcc)) (x : FwdTask) : List RowAcc :=
  let a := tget [] parts x.task
  if a.isEmpty then x.rows.map (fun _ => emptyRow d) else a

/-- The QKᵀ pass of a key tile, and the softmax engine on every row that does not mask all of it (R58, R61, R74). -/
def qkSlot (e : Env) (core : Nat) (x : FwdTask) (seq t : Nat) (later : List Nat) (part : List RowAcc) :
    Act (FwdTile × List RowAcc) := do
  let s ← get
  let p := e.j.p
  let s' := splitsOf 0x0301 p
  let m := maskAt p
  let h := shapeAt p 0x60
  let head := x.task / s' / tilesAcross e.c 0x0301 p
  let masks := x.rows.map (fun r => rowKeys m (marksFor s m seq) s' (x.task % s') seq t r.1)
  let on := masks.map (fun k => k.any id)
  let lanes := anyLane masks
  let keys ← keyRows e core seq (head / h.group) t lanes
  let f := attnForm p (seqNow (← get) seq)
  let live := laneList on (x.rows.map (·.2))
  let nq := live.length
  let nk := keys.length
  let scores ← corePasses e core { n := x.n, cells := turn f.d live, vectors := keys.map (·.1), later := later }
    (products f.passesQk f.fq f.fk) (zeroSums nk nq)
  let byRow := spread on (turn nq scores)
  let steps := (byRow.zip (masks.zip part)).map (fun (r : Option (List Sum) × List Bool × RowAcc) => r.1.map (fun v =>
    softmaxRow f.c (elemFmt (probFmt f.fk)) r.2.2 ((v.zip (laneList lanes r.2.1)).map (fun k => if k.2 then some k.1 else none))))
  modify (fun s =>
    let g := e.j.cluster
    let s := countPasses s g f.passesQk nk (128 - nq) (128 - nk) (halved (cellsOf f.fq f.fk f.d) 128)
    countPoison s g f.passesQk scores)
  return (⟨f, keys.map (·.2), steps⟩, (part.zip steps).map (fun a => match a.2 with
    | none => a.1
    | some st => { a.1 with m := st.m, l := st.l, bad := st.bad }))

/-- The PV pass of a key tile into the query tile's bank (R50, R58, R74). -/
def pvSlot (e : Env) (core n : Nat) (x : FwdTask) (y : FwdTile) (later : List Nat) (part : List RowAcc) : Act Unit := do
  let f := y.form
  let bank ← fillBank e core x.task part
  let on := y.steps.map (·.isSome)
  let entering := (y.steps.zip bank).filterMap (fun a => a.1.map (fun st => st.enter a.2))
  let out ← corePasses e core { n := n, cells := y.values, vectors := y.steps.filterMap (·.map RowStep.vector), later := later }
    (products f.passesPv f.fk (probFmt f.fk)) entering
  writeBank e core x.task (mergeRows on out bank)
  modify (fun s =>
    let g := e.j.cluster
    let nq := out.length
    let nk := y.values.length
    let s := countPasses s g f.passesPv nq (128 - nk) (128 - nq) (halved (cellsOf f.fk (probFmt f.fk) 128) f.d)
    countPoison s g f.passesPv out)

/-- The slots of `n` key tiles: QKᵀ passes, each PV pass `lag` tiles behind its own (R58, R79). The second component tells a PV pass. -/
def fwdSlots (n lag : Nat) : List (Nat × Bool) :=
  (List.range (n + lag)).flatMap (fun i =>
    (if i < n then [(i, false)] else []) ++ (if lag ≤ i then [(i - lag, true)] else []))

/-- The query operands that later slots need (R58). -/
def queryNeeds (items : List (FwdTask × Nat × Nat)) (slots : List (Nat × Bool)) : List Nat :=
  (slots.filter (fun k => !k.2)).flatMap (fun k => match items[k.1]? with
    | some x => (List.range 3).map (operandId x.1.n)
    | none => [])

/-- Every forward task of a core in a plan step (R58, R79). -/
def fwdCore (e : Env) (core : Nat) (runs : List TaskRun) (parts : Table (List RowAcc)) : Act (Table (List RowAcc)) := do
  let d := (shapeAt e.j.p 0x60).d
  let mut tasks : List FwdTask := []
  for r in runs.zipIdx do
    tasks := tasks ++ [← fwdTask e core r.2 r.1]
  let items := tasks.flatMap (fun x => x.items.map (fun i => (x, i)))
  let slots := fwdSlots items.length (if d = 128 then 1 else 2)
  let mut tiles : List FwdTile := []
  let mut parts := parts
  for k in slots.zipIdx do
    match items[k.1.1]? with
    | none => pure ()
    | some (x, i) =>
      let later := queryNeeds items (slots.drop (k.2 + 1))
      let part := fwdPart d parts x
      if k.1.2 then
        match tiles[k.1.1]? with
        | none => pure ()
        | some y =>
          pvSlot e core (runs.length + k.1.1) x y later part
          if (items[k.1.1 + 1]?).all (fun z => z.1.task ≠ x.task) then
            let done ← drainBank e core x.task part
            parts := tset [] parts x.task done
      else
        let (y, part) ← qkSlot e core x i.1 i.2 later part
        tiles := tiles ++ [y]
        parts := tset [] parts x.task part
  return parts

/-! ### Matrix commands (R48, R90, R330) -/

/-- A row of a matrix partial: the output row alone. -/
def matrixRow (o : List Marked) : RowAcc := ⟨f32Zero, f32Zero, false, o⟩

/-- Rows and columns of an output tile of a matrix command. -/
def matrixSpan (op : Nat) (p : SlotWord) (rt ct : Nat) : Nat × Nat :=
  let m := if op = 0x0303 then param p 0x38 32 else param p 0x48 32
  let n := if op = 0x0303 then projCols p else param p 0x4C 32
  (min 128 (m - 128 * rt), min 128 (n - 128 * ct))

/-- Positions that a tail of `n` reduction indices adds as +0.0: the rest of the cells that the pass feeds (R51, R57, R330). -/
def tailPad (a b n : Nat) : Nat :=
  match arrayForm a b with
  | .fp8 => n % 2
  | .mxfp4 => (4 - n % 4) % 4
  | _ => if n ≤ 64 then 0 else 128 - n

/-- Whether a matrix command holds its second operand stationary, and whether its passes run on axis T (R48, R330). -/
def statB (op : Nat) (p : SlotWord) : Bool := op == 0x0304 && paramBit p 0x5E 0
def axisT (op : Nat) (p : SlotWord) : Bool := op == 0x0304 && paramBit p 0x5E 6

/-- The model's number of the stationary tile of a k-tile: by row tile and k-tile, with STAT_B by column tile and k-tile (R48). -/
def stationaryTile (op : Nat) (p : SlotWord) (rt ct kt : Nat) : Nat := (if statB op p then ct else rt) * 2 ^ 26 + kt

/-- One k-tile of a matrix command on an output tile: `rows` are the bank's, logical rows of logical columns (R48, R49). A pass of a tile
narrower than 128 counts 128 vectors, its zero-padded streaming vectors among them, while poison is counted over the real vectors alone
(DESIGN CHOICE, log 57). -/
def matrixTile (e : Env) (core rt ct kt : Nat) (rows : List (List Sum)) : Act (List (List Sum)) := do
  let p := e.j.p
  let op := e.j.op
  let (fa, fb, count) := matrixForm op p
  let (m, cols) := matrixSpan op p rt ct
  let depth := if op = 0x0303 then 128 else min 128 (param p 0x50 32 - 128 * kt)
  let aStride := if op = 0x0303 then param p 0x30 32 else param p 0x38 32
  let bStride := if op = 0x0303 then elemBytes (fcwFmt fb) (projCols p) else param p 0x3C 32
  let mut as : List (List Elem) := []
  for i in List.range m do
    as := as ++ [← tensorElems e.j core 0 (operandFmt (fcwFmt fa) (fcwFmt fb)) fa (param p 0x08 64) aStride (128 * rt + i) (128 * kt) depth]
  let mut bs : List (List Elem) := []
  for i in List.range depth do
    bs := bs ++ [← tensorElems e.j core 1 (operandFmt (fcwFmt fb) (fcwFmt fa)) fb (param p 0x10 64) bStride (128 * kt + i)
      (128 * ct) cols]
  let pad := List.replicate (tailPad (fcwFmt fa) (fcwFmt fb) depth) elemZero
  let aRows := as.map (· ++ pad)
  let bCols := (turn cols bs).map (· ++ pad)
  let stat := if statB op p then bCols else aRows
  let out ← corePasses e core
    { n := stationaryTile op p rt ct kt, cells := if axisT op p then stat else turn (depth + pad.length) stat, vectors := if statB op p then aRows else bCols,
      axisT := axisT op p, swapped := statB op p, later := [] }
    (products count (fcwFmt fa) (fcwFmt fb)) (if statB op p then rows else turn cols rows)
  modify (fun s =>
    let g := e.j.cluster
    let half := halved (cellsOf (fcwFmt fa) (fcwFmt fb) depth) (if statB op p then cols else m)
    countPoison (countPasses s g count 128 0 0 half) g count out)
  return if statB op p then out else turn m out

/-- What a matrix task starts from: +0.0, or C for logical split 0 under ACCUM (R330). -/
def matrixStart (e : Env) (core rt ct split : Nat) : Act (List RowAcc) := do
  let p := e.j.p
  let (rows, cols) := matrixSpan e.j.op p rt ct
  let mut out := []
  for i in List.range rows do
    let r ← if e.j.op = 0x0304 ∧ paramBit p 0x5E 1 ∧ split = 0 then do
        let xs ← tensorElems e.j core 2 fmtFp32 (fcwAt p 0x5C) (param p 0x18 64) (param p 0x40 32) (128 * rt + i) (128 * ct) cols
        pure (xs.map elemF32)
      else pure (List.replicate cols (f32Zero, false))
    out := out ++ [matrixRow r]
  return out

/-- A matrix task's visits of a plan step. -/
def matrixTask (e : Env) (core : Nat) (r : TaskRun) (part : List RowAcc) : Act (List RowAcc) := do
  let p := e.j.p
  let s' := splitsOf e.j.op p
  let per := visitSize (← get) e.c e.j.op p
  let across := tilesAcross e.c e.j.op p
  let g := splitRange (reduceTiles e.j.op p) s' (r.1 % s')
  let all := (List.range (g.2 - g.1)).map (fun i => g.1 + i)
  let items := r.2.flatMap (fun v => (all.drop (v * per)).take per)
  let rt := r.1 / s' / across
  let ct := r.1 / s' % across
  let part ← if part.isEmpty ∧ r.2.contains 0 ∧ (!items.isEmpty ∨ startsFromC e.j.op p r.1) then matrixStart e core rt ct (r.1 % s') else pure part
  for kt in items do
    let rows ← fillBank e core r.1 part
    let rows ← matrixTile e core rt ct kt rows
    writeBank e core r.1 rows
  drainBank e core r.1 part

/-- Every matrix task of a core in a plan step. -/
def matrixCore (e : Env) (core : Nat) (runs : List TaskRun) (parts : Table (List RowAcc)) : Act (Table (List RowAcc)) := do
  let mut parts := parts
  for r in runs do
    let part ← matrixTask e core r (tget [] parts r.1)
    parts := tset [] parts r.1 part
  return parts

/-! ### Backward attention (R94 to R96) -/

/-- A query row of a backward pair: its elements of Q and dO, `D` of R94, the row's `lam` with its poison. -/
structure BackRow where
  q : List Elem
  dO : List Elem
  dsum : Marked
  lam : Marked

/-- Keys of the running sums of a backward task in the table of partials. -/
def backKey (task : Nat) (value : Bool) : Nat := 2 ^ 40 + 2 * task + bit value

/-- A query row loaded for a backward pair; none when its lse is −∞, which masks the lane (R94). -/
def backRow (e : Env) (core head row : Nat) : Act (Option BackRow) := do
  let p := e.j.p
  let d := (shapeAt p 0x60).d
  let total := queryRowTotal e.c p
  let l ← vectorF32 e.j core 4 (param p 0x18 64 + 4 * (head * total + row)) 1
  let lse := l.getD 0 (f32Zero, false)
  if lse.1 = f32NegInf then return none
  let fk := (seqNow (← get) (param p 0x5C 16)).fmtKv % 32
  let q ← queryElems e.j core head row fk
  let stride := param p 0x44 32
  let o ← tensorElems e.j core 2 fmtFp32 (fcwAt p 0x6A) (param p 0x10 64) stride row (head * d) d
  let g ← tensorElems e.j core 3 (operandFmt (fcwFmt (fcwAt p 0x6A)) fk) (fcwAt p 0x6A) (param p 0x20 64) stride row (head * d) d
  return some ⟨q, g, backSum g o, (fMul lse.1 f32Log2E, lse.2)⟩

/-- One pair of query tile and key tile, the `x`-th of its core in the plan step: the five passes (R94 to R96). dK and dV grow in the banks;
each dQ output, formed from +0.0, is added to the split's dQ partial by the fused ADD of the output path, which is answered. The fused operations
counted are that ADD and, for the first pair of a query tile in a split, the MUL that forms D (R69, R71; DESIGN CHOICE, log 57). A key lane that
only rows with an lse of −∞ are allowed stays fed: lanes come from the masks of R82 alone (DESIGN CHOICE, log 57). -/
def backPair (e : Env) (core x task head qt t : Nat) (parts : Table (List RowAcc)) : Act (Table (List RowAcc)) := do
  let s ← get
  let p := e.j.p
  let h := shapeAt p 0x60
  let s' := splitsOf 0x0302 p
  let split := task % s'
  let m := maskAt p
  let seq := param p 0x5C 16
  let rows := queryRows e.c p qt
  let masks := rows.map (fun r => rowKeys m (marksFor s m seq) s' split seq t r)
  let lanes := anyLane masks
  let keys ← keyRows e core seq (head / h.group) t lanes
  let mut live : List (Nat × BackRow × List Bool) := []
  for y in (rows.zip masks).zipIdx do
    if y.1.2.any id then
      match ← backRow e core head y.1.1.row with
      | some b => live := live ++ [(y.2, b, laneList lanes y.1.2)]
      | none => pure ()
  let q := seqNow (← get) seq
  let fk := q.fmtKv % 32
  let ft := if fk = 2 then 2 else 1
  let fq := fcwFmt (fcwAt p 0x68)
  let fo := fcwFmt (fcwAt p 0x6A)
  let n (a b : Nat) : Nat := usedPasses h.passes a b
  let ps (a b : Nat) : List Product := products (n a b) a b
  let scale : F32 := BitVec.ofNat 32 (param p 0x4C 32)
  let c := fMul scale f32Log2E
  let nq := live.length
  let nk := keys.length
  let qs := live.map (·.2.1.q)
  let ds := live.map (·.2.1.dO)
  let sOut ← corePasses e core { n := 4 * x, cells := turn h.d qs, vectors := keys.map (·.1), later := [] } (ps fq fk) (zeroSums nk nq)
  let dpOut ← corePasses e core { n := 4 * x + 1, cells := turn h.d ds, vectors := keys.map (·.2), later := [] } (ps fo fk) (zeroSums nk nq)
  let soft := (keys.mapIdx (fun k _ => live.mapIdx (fun i r =>
    backElem c scale r.2.1.lam.1 (elemFmt ft) (!r.2.2.getD k false) r.2.1.lam.2 ((sOut.getD k []).getD i zeroSum)
      ((dpOut.getD k []).getD i zeroSum) r.2.1.dsum)))
  let pCells := soft.map (fun r => r.map (·.1))
  let dsCells := soft.map (fun r => r.map (·.2))
  let start : List RowAcc := List.replicate 128 (matrixRow (List.replicate h.d zeroSum))
  let grow (key n' : Nat) (cells : List (List Elem)) (pass : List Product) (xs : List (List Elem)) : Act (List (List Sum)) := do
    let old := tget [] parts key
    let bank ← fillBank e core key (if old.isEmpty then start else old)
    let out ← corePasses e core { n := n', cells := cells, vectors := turn h.d xs, axisT := true, later := [] } pass
      (turn h.d (laneList lanes bank))
    writeBank e core key (mergeRows lanes (turn nk out) bank)
    return out
  let dv ← grow (backKey task true) (4 * x + 2) pCells (ps ft fo) ds
  let dk ← grow (backKey task false) (4 * x + 3) dsCells (ps ft fq) qs
  let dqOut ← corePasses e core { n := 4 * x + 3, cells := dsCells, vectors := turn h.d (keys.map (·.1)), later := [] } (ps ft fk)
    (zeroSums h.d nq)
  let qKey := (head * tilesAcross e.c 0x0302 p + qt) * s' + split
  let old := tget [] parts qKey
  let byRow := spread ((List.range rows.length).map (fun i => live.any (fun r => r.1 == i))) (turn nq dqOut)
  let dq := (byRow.zip (if old.isEmpty then rows.map (fun _ => matrixRow (List.replicate h.d zeroSum)) else old)).map (fun a =>
    match a.1 with
    | none => a.2
    | some y => matrixRow ((y.zip a.2.o).map (fun z => (fAdd z.1.1 z.2.1, z.1.2 || z.2.2))))
  modify (fun s =>
    let g := e.j.cluster
    let turned := 128 - nk + (128 - nq)
    let s := bumpArr s g 0x58 (1 + bit old.isEmpty)
    let s := countPasses s g (n fq fk) nk (128 - nq) (128 - nk) (halved (cellsOf fq fk h.d) 128)
    let s := countPasses s g (n fo fk) nk (128 - nq) (128 - nk) (halved (cellsOf fo fk h.d) 128)
    let s := countPasses s g (n ft fo) h.d turned 0 (halved (cellsOf ft fo 128) 128)
    let s := countPasses s g (n ft fq) h.d turned 0 (halved (cellsOf ft fq 128) 128)
    let s := countPasses s g (n ft fk) h.d turned 0 (halved (cellsOf ft fk 128) 128)
    [(n fq fk, sOut), (n fo fk, dpOut), (n ft fo, dv), (n ft fq, dk), (n ft fk, dqOut)].foldl (fun s y => countPoison s g y.1 y.2) s)
  return tset [] parts qKey dq

/-- The store stream that an output of a command uses, and how often it has written that tile back: the earlier write-backs of unfinished
sums count when they took the same stream (R39). -/
def storeVisit (backs : Table Nat) (key out : Nat) : Nat :=
  if Config.storeStream out % 8 = stateStream then tget 0 backs key else 0

/-- Rows in runs of consecutive row numbers, each a staged tile. -/
def rowRuns (j : Job) (base stride : Nat) : List (Nat × List (Byte × Bool)) → List Staged
  | [] => []
  | (r, bs) :: rest =>
    match rowRuns j base stride rest with
    | t :: ts => if t.dest = base + (r + 1) * stride ∧ stride ≠ 0 then { t with dest := base + r * stride, rows := bs :: t.rows } :: ts
        else memTile j (base + r * stride) stride [bs] ++ t :: ts
    | [] => memTile j (base + r * stride) stride [bs]

/-- The rows of one tensor tile staged: `rows` gives each row's number, its values and their random values; a block-scaled tensor's scales
go where its scale base puts them (R23, R195). -/
def tileRows (s : State) (j : Job) (base stride : Nat) (fcw : BitVec 16) (col : Nat) (rows : List (Nat × (Nat → Nat) × List Marked)) :
    List Staged :=
  let data := rowRuns j (base + elemBytes (fcwFmt fcw) col) stride (rows.map (fun r => (r.1, storedBytes fcw r.2.1 r.2.2)))
  if hasBlocks (fcwFmt fcw) then
    let sb := scaleAddr (scaleBaseOf s j base true) fcw stride 0 (col / blockElems (fcwBlk fcw))
    data ++ rowRuns j sb (scaleStride fcw stride) (rows.map (fun r => (r.1, storedScales fcw r.2.1 r.2.2)))
  else data

/-- The dK and dV rows of a key tile staged, and their sums cleared for the next (R96, R97, R99). -/
def backStore (e : Env) (core task t : Nat) (out : StepOut) : Act StepOut := do
  let s ← get
  let p := e.j.p
  let h := shapeAt p 0x60
  let g := task / splitsOf 0x0302 p
  let fcw := fcwAt p 0x7A
  let stride := param p 0x48 32
  let index := g * keyTiles (param p 0x58 27) + t
  let n := min 128 (param p 0x58 27 - 128 * t)
  let mut r := out
  for value in [false, true] do
    let key := backKey task value
    let old := tget [] r.parts key
    let part ← drainBank e core key (if old.isEmpty then List.replicate 128 (matrixRow (List.replicate h.d zeroSum)) else old)
    let output := 1 + bit value
    let c2 := srC2 (Config.storeStream output % 8) 0 0
    let rnd (i x : Nat) : Nat := srValue (param p 0 64) (srC0 (storeVisit r.backs key output)) index c2 0 (i * h.d + x)
    let tile := tileRows s e.j (param p (if value then 0x38 else 0x30) 64) stride fcw (g * h.d)
      ((part.take n).mapIdx (fun i a => (128 * t + i, rnd i, a.o)))
    r := { r with parts := tset [] r.parts key [], backs := tset 0 r.backs key 0, staged := r.staged ++ tile }
  return r

/-- Every backward task of a core in a plan step; sums of a key tile that is not done stay unfinished. -/
def backCore (e : Env) (core : Nat) (runs : List TaskRun) (out : StepOut) : Act StepOut := do
  let s ← get
  let p := e.j.p
  let s' := splitsOf 0x0302 p
  let per := visitSize s e.c 0x0302 p
  let mut r := out
  let mut x := 0
  for y in runs do
    let all := backItems s e.c p (y.1 / s') (y.1 % s')
    for i in y.2.flatMap (fun v => (all.drop (v * per)).take per) do
      match i with
      | .pair head qt t =>
        let parts ← backPair e core x y.1 head qt t r.parts
        r := { r with parts := parts }
        x := x + 1
      | .store t => r ← backStore e core y.1 t r
    for value in [false, true] do
      let key := backKey y.1 value
      let old := tget [] r.parts key
      let s ← get
      if (accBank (arrayAt s (e.core core)) key).isSome then
        let part ← drainBank e core key (if old.isEmpty then List.replicate 128 (matrixRow []) else old)
        r := { r with parts := tset [] r.parts key part }
  return r

/-! ### The tasks of a plan step (R37, R60, R65) -/

/-- The unfinished sums that a task leaves at the end of a plan step: the key of the partial, its logical tile index, its split and its tile
width; none when the split's partial is done (R37, R39, R97). -/
def unfinished (s : State) (e : Env) (r : TaskRun) (parts : Table (List RowAcc)) : List (Nat × Nat × Nat × Nat) :=
  let p := e.j.p
  let s' := splitsOf e.j.op p
  if r.2.isEmpty then []
  else if e.j.op = 0x0302 then
    let kt := keyTiles (param p 0x58 27)
    let per := visitSize s e.c 0x0302 p
    let tile := ((backItems s e.c p (r.1 / s') (r.1 % s')).take ((r.2.getLastD 0 + 1) * per)).getLast?
    match tile with
    | some (.pair _ _ t) => [false, true].map (fun v => (backKey r.1 v, r.1 / s' * kt + t, 0, (shapeAt p 0x60).d))
    | _ => []
  else if r.2.getLastD 0 + 1 < taskVisits s e.c e.j.op p r.1 ∧ !(tget [] parts r.1).isEmpty then
    [(r.1, r.1 / s', r.1 % s', if e.j.op = 0x0301 then (shapeAt p 0x60).d else 128)]
  else []

/-- Unfinished sums written back by their store stream (R37, R39, R60). -/
def writeBacks (s : State) (e : Env) (r : TaskRun) (out : StepOut) : StepOut :=
  (unfinished s e r out.parts).foldl (fun out u =>
    let part := tget [] out.parts u.1
    let n := tget 0 out.backs u.1
    let rows := writeBack (stateDesc s e.j.op e.j.p) (param e.j.p 0 64) u.2.1 u.2.2.1 n u.2.2.2 (part.map (·.o))
    { out with parts := tset [] out.parts u.1 ((part.zip rows).map (fun x => { x.1 with o := x.2 })), backs := tset 0 out.backs u.1 (n + 1) })
    out

/-- The tasks that a core of the cluster computes in a plan step, with their visits (R65). -/
def coreRuns (s : State) (g core : Nat) (tasks visits : List Nat) : List TaskRun :=
  (tasks.zipIdx.filter (fun t => coreFor s g t.2 == core)).map (fun t => (t.1, visits))

/-- What the cores of a cluster compute in a plan step. -/
def computeStep (e : Env) (tasks visits : List Nat) (out : StepOut) : Act StepOut := do
  let s ← get
  let mut r := out
  for core in List.range 8 do
    let runs := coreRuns s e.j.cluster core tasks visits
    if !runs.isEmpty then
      match e.j.op with
      | 0x0301 =>
        let parts ← fwdCore e core runs r.parts
        r := { r with parts := parts }
      | 0x0302 => r ← backCore e core runs r
      | _ =>
        let parts ← matrixCore e core runs r.parts
        r := { r with parts := parts }
      for y in runs do
        r := writeBacks s e y r
  return r

end Sys2Proof.Machine
end

