-- ==== Sys2Proof/Machine/Outputs.lean ====
section
/-! DEFINITION. What becomes of the partials of a plan step: the combine tree, the fused operation, the row reduction, the rotary encoding, the
KV append, and the finished tiles a step stages (spec/03_score_array.md R66 to R69, spec/04_attention_dataflow.md R76, R86 to R100). -/
namespace Sys2Proof.Machine

/-! ### The combine tree (R43, R86, R87) -/

/-- The key of a node of an output tile's tree: level and lowest split. -/
def nodeKey (tile level i : Nat) : Nat := tile * 2 ^ 14 + level * 1024 + i

/-- The key of a partial that another package has sent (R301). -/
def remoteKey (tile level i : Nat) : Nat := 2 ^ 42 + nodeKey tile level i

/-- A split's own partial, computed here or sent by the package that owns the split; none when it computed nothing (R43, R85, R301). -/
def leafOf (op : Nat) (p : SlotWord) (parts : Table (List RowAcc)) (tile i : Nat) : Option (List RowAcc) :=
  match tget [] parts (tile * splitsOf op p + i), tget [] parts (remoteKey tile 0 i) with
  | [], [] => none
  | [], x => some x
  | x, _ => some x

/-- A node already formed, here or on another package. -/
def formedOf (parts nodes : Table (List RowAcc)) (tile l i : Nat) : Option (List RowAcc) :=
  match tget [] nodes (nodeKey tile l i), tget [] parts (remoteKey tile l i) with
  | [], [] => none
  | [], x => some x
  | x, _ => some x

/-- The node of level `l` from split `i` on of an output tile's tree. -/
def nodeOf (op : Nat) (p : SlotWord) (parts nodes : Table (List RowAcc)) (tile l i : Nat) : Option (List RowAcc) :=
  treeNode (op == 0x0301) (leafOf op p parts tile) (formedOf parts nodes tile) l i

/-- The nodes that the combine units of a command's clusters have formed (R87). -/
def allNodes (c : Cmd) : Table (List RowAcc) := c.holds.flatMap (fun h => h.nodes)

/-- A hold without the nodes of finished tiles. -/
def dropNodes (tiles : List Nat) (h : Hold) : Hold := { h with nodes := h.nodes.filter (fun e => !tiles.contains (e.1 / 2 ^ 14)) }

/-- The root of an output tile. -/
def rootOf (op : Nat) (p : SlotWord) (parts nodes : Table (List RowAcc)) (tile : Nat) : Option (List RowAcc) :=
  nodeOf op p parts nodes tile (Nat.log2 (splitsOf op p)) 0

/-! ### Finished tiles (R67 to R69, R76, R91, R92) -/

/-- The descriptor of a loaded plan that delivers the fused operand: the first of the queue that opnd_q names; none under a standard plan
(R67). -/
def fuseDesc (s : State) (j : Job) (f : FuseCtl) : Option Desc :=
  let id := planNamed j.op j.p
  if id = 0 then none
  else
    let img := planBytesOf s id
    let h := planHeader img
    (queueDescs (planDescs img h) (queueEntry img h f.opndQ)).head?

/-- Elements of the operand tensor that a descriptor names, from column `col` of a row on; positions outside it have the stream's padding
value (R33, R67). -/
def operandElems (j : Job) (core oq : Nat) (d : Desc) (row col n : Nat) : Act (List Marked) := do
  let size := max 1 (elemBits (fcwFmt d.fmt))
  let have_ := if row < d.extRows then min n (8 * d.extBytes / size - col) else 0
  let xs ← if have_ = 0 then pure [] else tensorElems j core oq fmtFp32 d.fmt d.base d.rowStride row col have_
  return xs.map elemF32 ++ List.replicate (n - have_) (padValue d.fmt d.padValue, false)

/-- The fused operand of one output row: `row` its row, `col` its first column, `n` columns (R67). A loaded plan's stream delivers it in its
own format; a standard plan reads it at fuse_base, in the output's format for TILE and in FP32 for ROW and COL (R98). -/
def fuseRow (j : Job) (core : Nat) (f : FuseCtl) (base stride : Nat) (fcw : BitVec 16) (row col n : Nat) : Act (List Marked) := do
  if f.op = 0 then return []
  else if f.shape = 3 then return List.replicate n (f.scalar, false)
  else match fuseDesc (← get) j f, f.shape with
    | some d, 0 => operandElems j core (fuseOperand f.opndQ) d row col n
    | some d, 1 => do
      let x ← operandElems j core (fuseOperand f.opndQ) d row 0 1
      return List.replicate n (x.getD 0 zeroSum)
    | some d, _ => operandElems j core (fuseOperand f.opndQ) d 0 col n
    | none, 0 => return (← tensorElems j core (fuseOperand f.opndQ) fmtFp32 fcw base stride row col n).map elemF32
    | none, 1 => do
      let x ← vectorF32 j core (fuseOperand f.opndQ) (base + 4 * row) 1
      return List.replicate n (x.getD 0 zeroSum)
    | none, _ => vectorF32 j core (fuseOperand f.opndQ) (base + 4 * col) n

/-- A row through the fused operation. -/
def fused (f : FuseCtl) (xs operand : List Marked) : List Marked :=
  if f.op = 0 then xs else (xs.zip operand).map (fun e => fuseElem f.op e.1 e.2)

/-- An output tile counted when its fused operation is not NONE (R71). -/
def countFused (j : Job) (f : FuseCtl) : Act Unit := if f.op = 0 then pure () else modify (fun s => bumpArr s j.cluster 0x58 1)

/-- The random value of an element of a finished output tile: stream of output `out`, its tree's root level (R39, R40). -/
def outRand (op : Nat) (p : SlotWord) (backs : Table Nat) (out tile width i x : Nat) : Nat :=
  let c2 := srC2 (Config.storeStream out % 8) (Nat.log2 (splitsOf op p)) 0
  let visit := if splitsOf op p = 1 ∧ op ≠ 0x0302 then storeVisit backs tile out else 0
  srValue (param p 0 64) (srC0 visit) tile c2 0 (i * width + x)

/-- Flag bits by bit number, in staged bytes with their masks (R98 mrow_base). -/
def flagTiles (j : Job) (base : Nat) (bits : List (Nat × Bool × Bool)) : List Staged :=
  ((bits.map (fun b => b.1 / 8)).eraseDups).map (fun k =>
    let mine := bits.filter (fun b => b.1 / 8 == k)
    let mask := mine.foldl (fun m b => m ||| 2 ^ (b.1 % 8)) 0
    let v := mine.foldl (fun m b => if b.2.1 then m ||| 2 ^ (b.1 % 8) else m) 0
    { kind := 4, asid := j.asid, dest := base + k, stride := 0,
      rows := [[(BitVec.ofNat 8 mask, false), (BitVec.ofNat 8 v, mine.any (fun b => b.2.2))]] })

/-- An output tile of ATTN_FWD (R76): output, lse and flags. -/
def finishFwd (e : Env) (core tile : Nat) (nodes : Table (List RowAcc)) (out : StepOut) : Act StepOut := do
  let p := e.j.p
  let d := (shapeAt p 0x60).d
  let across := tilesAcross e.c 0x0301 p
  let head := tile / across
  let rows := queryRows e.c p (tile % across)
  let accs := (rootOf 0x0301 p out.parts nodes tile).getD (rows.map (fun _ => emptyRow d))
  let f := fuseOf p 0x28
  let fcw := fcwAt p 0x6A
  let total := queryRowTotal e.c p
  countFused e.j f
  let mut os : List (Nat × (Nat → Nat) × List Marked) := []
  let mut ls : List (Nat × List (Byte × Bool)) := []
  let mut fs : List (Nat × Bool × Bool) := []
  for x in (rows.zip accs).zipIdx do
    let r := x.1.1
    let fin := finishRow x.1.2
    let operand ← fuseRow e.j core f (param p 0x30 64) (param p 0x48 32) fcw r.row (head * d) d
    let xs := fused f fin.o operand
    os := os ++ [(r.row, outRand 0x0301 p out.backs 0 tile d x.2, xs)]
    ls := ls ++ [(head * total + r.row, bytesF32 [fin.lse])]
    fs := fs ++ [(head * total + r.row, fin.flag, fin.lse.2)]
  let o := tileRows (← get) e.j (param p 0x10 64) (param p 0x44 32) fcw (head * d) os
  let l := if param p 0x18 64 = 0 then [] else rowRuns e.j (param p 0x18 64) 4 ls
  let m := if param p 0x20 64 = 0 then [] else flagTiles e.j (param p 0x20 64) fs
  return { out with staged := out.staged ++ o ++ l ++ m, masked := out.masked + (fs.filter (fun b => b.2.1)).length }

/-- An output tile of dQ (R96, R97). -/
def finishDq (s : State) (e : Env) (tile : Nat) (nodes : Table (List RowAcc)) (out : StepOut) : StepOut :=
  let p := e.j.p
  let d := (shapeAt p 0x60).d
  let across := tilesAcross e.c 0x0302 p
  let rows := queryRows e.c p (tile % across)
  let accs := (rootOf 0x0302 p out.parts nodes tile).getD (rows.map (fun _ => matrixRow (List.replicate d zeroSum)))
  let os := ((rows.zip accs).zipIdx).map (fun x => (x.1.1.row, outRand 0x0302 p out.backs 0 tile d x.2, x.1.2.o))
  { out with staged := out.staged ++ tileRows s e.j (param p 0x28 64) (param p 0x40 32) (fcwAt p 0x7A) (tile / across * d) os }

/-- The rotary axes of a token of PROJ (R91). -/
def ropeAxes (p : SlotWord) (pos : Nat) : List RopeAxis :=
  let st := param p 0x5F 8
  let sr := param p 0x5E 8
  let sc := param p 0x5D 8
  let g := (gridOf (param p 0x74 26) (param p 0x58 16) (param p 0x5A 16) pos).getD (0, 0, 0)
  let off (o : Nat) : Int := (BitVec.ofNat 16 (param p o 16)).toInt
  let base (o : Nat) : F32 := BitVec.ofNat 32 (param p o 32)
  [⟨0, st, base 0x60, g.1 + off 0x6C⟩, ⟨st, sr, base 0x64, g.2.1 + off 0x6E⟩, ⟨st + sr, sc, base 0x68, g.2.2 + off 0x70⟩]

/-- A head's row of PROJ after rotary encoding. -/
def ropeRow (p : SlotWord) (pos : Nat) (xs : List Marked) : List Marked :=
  (ropeAxes p pos).foldl (ropeAxisRow (paramBit p 0x5C 0)) xs

/-- Consecutive tokens of one page, with their rows. -/
def pageRuns {α : Type} (tpp : Nat) (rows : List (Nat × α)) : List (Nat × Nat × List α) :=
  ((rows.map (fun r => r.1 / tpp)).eraseDups).map (fun i =>
    let mine := rows.filter (fun r => r.1 / tpp == i)
    (i, (mine.map (fun r => r.1 % tpp)).headD 0, mine.map (·.2)))

/-- Key or value rows of a KV head staged into the pages of their positions, at the places of a KV store descriptor (R92, R118, R196): pages the
walk did not take are left alone. -/
def kvTiles (s : State) (e : Env) (head : Nat) (value : Bool) (rows : List (Nat × List Marked)) : List Staged :=
  let seq := param e.j.p 0x44 16
  let tpp := 2 ^ (seqNow s seq).tppLog2
  (pageRuns tpp rows).flatMap (fun r =>
    let page := walked e.walk seq head r.1
    match if page = 0 then none else peekHdr s (page - 1) with
    | none => []
    | some h =>
      let f := hdrForm h
      let fcw := hdrFcw h &&& 0xFBFF#16
      let first := blockToken r.2.1
      let t := r.2.1 - first
      let d := pageDesc s 0 (page - 1) h first true (BitVec.ofNat 128 ((2 ^ r.2.2.length - 1) * 2 ^ t))
      let data : Staged := {
        kind := 1, asid := poolAsid s, dest := kvRowVa d t value, stride := d.rowBytes
        rows := r.2.2.map (storedBytes fcw (fun _ => 0)), page := if value then page else 0, token := r.2.1 }
      let sc : Staged := {
        kind := 1, asid := poolAsid s, dest := kvScaleVa d t f.scaleRow value, stride := f.scaleRow
        rows := r.2.2.map (storedScales fcw (fun _ => 0)) }
      if f.scaleRow = 0 then [data] else [sc, data])

/-- Whether the rows of a head of PROJ are rotated (R91): heads are numbered query, key, value (R90). -/
def projRotates (p : SlotWord) (sh : Shape) (hd : Nat) : Bool :=
  (decide (hd < sh.qHeads) && paramBit p 0x56 1) ||
    (decide (sh.qHeads ≤ hd ∧ hd < sh.qHeads + sh.kvHeads) && paramBit p 0x56 2)

/-- An output tile of PROJ (R90 to R92): the columns that stay in the output tensor are one row of it for each token. -/
def finishProj (e : Env) (core tile : Nat) (nodes : Table (List RowAcc)) (out : StepOut) : Act StepOut := do
  let p := e.j.p
  let sh := shapeAt p 0x48
  let across := tilesAcross e.c 0x0303 p
  let tt := tile / across
  let ct := tile % across
  let (rows, cols) := matrixSpan 0x0303 p tt ct
  let accs := (rootOf 0x0303 p out.parts nodes tile).getD
    (List.replicate rows (matrixRow (List.replicate cols (f32Zero, false))))
  let f := fuseOf p 0x20
  let fcw := fcwAt p 0x54
  let stride := param p 0x34 32
  let start := param p 0x3C 26
  countFused e.j f
  let mut done : List (Nat × List Marked) := []
  for x in accs.zipIdx do
    let n := 128 * tt + x.2
    let operand ← fuseRow e.j core f (param p 0x28 64) stride fcw n (128 * ct) cols
    done := done ++ [(n, fused f x.1.o operand)]
  let append := paramBit p 0x56 0
  let roped := done.map (fun r =>
    (r.1, (List.range (cols / sh.d)).map (fun i =>
      let hd := 128 * ct / sh.d + i
      let xs := (r.2.drop (i * sh.d)).take sh.d
      if projRotates p sh hd then ropeRow p (start + r.1) xs else xs)))
  let plain := if append then min cols (sh.qHeads * sh.d - 128 * ct) else cols
  let s ← get
  let o := if plain = 0 then [] else tileRows s e.j (param p 0x18 64) stride fcw (128 * ct)
    (roped.map (fun r => (r.1, outRand 0x0303 p out.backs 0 tile 128 (r.1 % 128), r.2.flatten.take plain)))
  let kv := if !append then [] else (List.range (cols / sh.d)).flatMap (fun i =>
    let hd := 128 * ct / sh.d + i
    let rows := roped.map (fun r => (start + r.1, r.2.getD i []))
    if hd < sh.qHeads then []
    else if hd < sh.qHeads + sh.kvHeads then kvTiles s e (hd - sh.qHeads) false rows
    else kvTiles s e (hd - sh.qHeads - sh.kvHeads) true rows)
  return { out with staged := out.staged ++ o ++ kv }

/-- The key of a row tile's running row reduction. -/
def reduceKey (rt : Nat) : Nat := 2 ^ 41 + rt

/-- A row reduction continued over the columns of one more tile (R69). -/
def reduceMore (red : Nat) (before : Option Marked) (xs : List Marked) : Marked :=
  match before with
  | none => reduceRow red xs
  | some b =>
    (xs.foldl (fun a x => if red = 1 then fAdd a x.1 else fMax a x.1) b.1, b.2 || xs.any (·.2))

/-- An output tile of MATMUL (R330), with the row reduction after its last column tile. -/
def finishMatmul (e : Env) (core tile : Nat) (nodes : Table (List RowAcc)) (out : StepOut) : Act StepOut := do
  let p := e.j.p
  let across := tilesAcross e.c 0x0304 p
  let rt := tile / across
  let ct := tile % across
  let (rows, cols) := matrixSpan 0x0304 p rt ct
  let accs := (rootOf 0x0304 p out.parts nodes tile).getD
    (List.replicate rows (matrixRow (List.replicate cols (f32Zero, false))))
  let f := fuseOf p 0x20
  let fcw := fcwAt p 0x5C
  let red := param p 0x5E 16 / 4 % 4
  countFused e.j f
  let mut os : List (Nat × (Nat → Nat) × List Marked) := []
  let mut sums : List RowAcc := []
  let before := tget [] out.parts (reduceKey rt)
  for x in accs.zipIdx do
    let n := 128 * rt + x.2
    let operand ← fuseRow e.j core f (param p 0x28 64) (param p 0x44 32) fcw n (128 * ct) cols
    let xs := fused f x.1.o operand
    os := os ++ [(n, outRand 0x0304 p out.backs 0 tile 128 x.2, xs)]
    sums := sums ++ [matrixRow [reduceMore red ((before[x.2]?).bind (fun a => a.o.head?)) xs]]
  let o := tileRows (← get) e.j (param p 0x18 64) (param p 0x40 32) fcw (128 * ct) os
  let r := if red ≠ 0 ∧ ct + 1 = across then
      memTile e.j (param p 0x30 64 + 512 * rt) 4 (sums.map (fun a => bytesF32 (a.o.take 1)))
    else []
  return { out with staged := out.staged ++ o ++ r, parts := if red = 0 then out.parts else tset [] out.parts (reduceKey rt) sums }

/-- A finished output tile. -/
def finishTile (e : Env) (core tile : Nat) (nodes : Table (List RowAcc)) (out : StepOut) : Act StepOut :=
  match e.j.op with
  | 0x0301 => finishFwd e core tile nodes out
  | 0x0302 => do return finishDq (← get) e tile nodes out
  | 0x0303 => finishProj e core tile nodes out
  | _ => finishMatmul e core tile nodes out

/-- The partials of finished tiles leave the table. -/
def dropParts {α : Type} (op : Nat) (p : SlotWord) (tiles : List Nat) (parts : Table α) : Table α :=
  let s' := splitsOf op p
  parts.filter (fun e => decide (e.1 ≥ 2 ^ 40) || !tiles.contains (e.1 / s'))

/-- Everything a plan step computes: the visits of its tasks, then the tiles it finishes. `stores` is false on a member of a KEYSPLIT group
that forms no root (R301). -/
def runStep (e : Env) (x : StepAt) (visits : List Nat) (finishes stores : Bool) (nodes : Table (List RowAcc)) : Act StepOut := do
  modify (fun s => clearArrays s e.j.cluster)
  let mut out ← computeStep e x.wave visits ⟨e.c.parts, e.c.backs, [], 0⟩
  if finishes && stores then
    let s ← get
    for t in x.octet.finish.zipIdx do
      out ← finishTile e (coreFor s e.j.cluster t.2) t.1 nodes out
    out := { out with
      parts := dropParts e.j.op e.j.p x.octet.finish out.parts, backs := dropParts e.j.op e.j.p x.octet.finish out.backs }
  let kv := e.j.op == 0x0301 || e.j.op == 0x0302 || (e.j.op == 0x0303 && paramBit e.j.p 0x56 0)
  modify (fun s => countTiming (clearArrays s e.j.cluster) e.j.cluster (planNamed e.j.op e.j.p == 0) kv)
  return out

end Sys2Proof.Machine
end

