-- ==== Sys2Proof/Machine/Walks.lean ====
section
/-! DEFINITION. What a plan step needs of the KV pages before it starts: the walk and its pins, pages allocated, copied and reclaimed
from DROPPED for a write, and restorations (spec/05_kv_pages.md R111, R115, R118 to R120, R125, spec/06_prefix_sharing.md R149, R154,
spec/14_firmware.md R368). -/
namespace Sys2Proof.Machine

/-- A page that a plan step needs: sequence, KV head and page index. -/
abbrev PageNeed := Nat × Nat × Nat

/-! ### Which pages -/

/-- The pages that hold unmasked keys of a tile. -/
def tilePages (seq head t tpp : Nat) (lanes : List Bool) : List PageNeed :=
  (((List.range 128).filter (fun i => lanes.getD i false)).map (fun i => (seq, head, (128 * t + i) / tpp))).eraseDups

/-- The pages a visit of a task reads (R84, R115). -/
def visitPages (s : State) (c : Cmd) (p : SlotWord) (task visit : Nat) : List PageNeed :=
  let s' := splitsOf c.opcode p
  let m := maskAt p
  let h := shapeAt p 0x60
  let across := tilesAcross c c.opcode p
  let per := visitSize s c c.opcode p
  let pages (head qt seq t : Nat) : List PageNeed :=
    let masks := (queryRows c p qt).map (fun r => rowKeys m (marksFor s m seq) s' (task % s') seq t r)
    tilePages seq (head / h.group) t (2 ^ (seqNow s seq).tppLog2) (anyLane masks)
  match c.opcode with
  | 0x0301 =>
    let qt := task / s' % across
    ((visitTiles s m s' (task % s') (queryRows c p qt)).drop (visit * per)).take per |>.flatMap (fun x =>
      pages (task / s' / across) qt x.1 x.2)
  | 0x0302 =>
    ((backItems s c p (task / s') (task % s')).drop (visit * per)).take per |>.flatMap (fun x =>
      match x with
      | .pair head qt t => pages head qt (param p 0x5C 16) t
      | .store _ => [])
  | _ => []

/-- The pages that a finished tile of PROJ writes, in ascending head and page index (R92, R118). -/
def appendPages (s : State) (p : SlotWord) (across tile : Nat) : List PageNeed :=
  if !paramBit p 0x56 0 then []
  else
    let sh := shapeAt p 0x48
    let seq := param p 0x44 16
    let tpp := 2 ^ (seqNow s seq).tppLog2
    let start := param p 0x3C 26
    let (rows, cols) := matrixSpan 0x0303 p (tile / across) (tile % across)
    let first := (start + 128 * (tile / across)) / tpp
    let last := (start + 128 * (tile / across) + rows - 1) / tpp
    (List.range (cols / sh.d)).flatMap (fun i =>
      let hd := 128 * (tile % across) / sh.d + i
      if hd < sh.qHeads then []
      else (List.range (last + 1 - first)).map (fun k => (seq, (hd - sh.qHeads) % sh.kvHeads, first + k)))

/-- The pages a plan step needs, each once, in the order of its walk: whether it writes them. -/
def stepPages (s : State) (c : Cmd) (x : StepAt) : Bool × List PageNeed :=
  let p := slotAt s c.key
  if c.opcode = 0x0303 then
    (true, if finishesTiles s c x then (x.octet.finish.flatMap (appendPages s p (tilesAcross c c.opcode p))).eraseDups else [])
  else if isFinish s c x ∨ x.octet.round ≠ 0 then (false, [])
  else (false, (x.wave.flatMap (fun t => (stepVisits s c x.octet x.visit).flatMap (visitPages s c p t))).eraseDups)

/-! ### Pins (R111, R368) -/

/-- A command's hold on a cluster. -/
def holdOf (s : State) (k g : Nat) : Option Hold := (cmdOf s k).bind (fun c => c.holds.find? (fun h => h.cluster == g))

/-- The command's pin on a page, taken once for the command and cluster and appended to its pin list (R111, R368); a page in quarantine grants
none, and the walk reads its path again (R154). -/
def takePin (w : Who) (k page : Nat) : Act Unit := do
  match holdOf (← get) k w.cluster with
  | none => pure ()
  | some h =>
    if h.pins.contains page then pure ()
    else if h.pins.length ≥ 131072 then
      reportAct { cause := 0x22, source := 0x8003 + w.cluster, key := some k, cluster := w.cluster, info0 := h.pins.length }
      abortWith 0x20
    else if ← pinPage (ofDie w (numDie page)) page then
      modify (physWrite w (pinListAddr w.cluster h.rslot + 4 * h.pins.length) (natBytes 4 page) false)
      modify (fun s => updHold s k w.cluster (fun h => { h with pins := h.pins ++ [page] }))
    else throw (.park .running)

/-- What the walk of a hold has found for a page it needs: a walk made again takes the same page (R368). -/
def walkedPage (s : State) (k g : Nat) (n : PageNeed) : Option Nat :=
  (holdOf s k g).bind (fun h => (h.walk.find? (fun e => e.1 == n)).map (fun e => e.2))

/-- A page that the walk of a hold has found, noted. -/
def noteWalked (k g : Nat) (n : PageNeed) (x : Nat) : Act Unit :=
  modify (fun s => updHold s k g (fun h => { h with walk := h.walk ++ [(n, x)] }))

/-! ### Restorations (R125) -/

/-- A page's restoration asked for, or waited for when one is in progress; the step waits at its boundary. -/
def askRestore {α : Type} (w : Who) (k seq page : Nat) : Act α := do
  let h ← readHdr w page
  if !h.restoring then writeHdr w page { h with restoring := true }
  modify (fun s =>
    if s.pgk.restores.any (fun r => r.page == page && r.key == k && r.cluster == w.cluster) then s
    else { s with pgk := { s.pgk with restores := s.pgk.restores ++ [⟨page, seq, k, w.cluster, []⟩] } })
  throw (.park .running)

/-- Whether a dropped page is restored for a sequence and a command (R115, R125). -/
def wantsRestore (s : State) (k seq page : Nat) : Bool :=
  (seqNow s seq).flags % 2 == 1 && !(cmdOf s k).any (fun c => c.unrestored.contains page)

/-! ### The walk for reading (R115) -/

/-- One page read: none (0) for a hole. -/
def walkRead (w : Who) (k layer : Nat) (n : PageNeed) : Act Nat := do
  let found ← match walkedPage (← get) k w.cluster n with
    | some x => pure x
    | none => do
      match ← findPage w (seqNow (← get) n.1) layer n.2.1 n.2.2 with
      | none => pure 0
      | some (_, _, e) =>
        takePin w k e.number
        noteWalked k w.cluster n (e.number + 1)
        pure (e.number + 1)
  if found = 0 then return 0
  let h ← legalHdr w (found - 1)
  if h.state = 4 ∧ wantsRestore (← get) k n.1 (found - 1) then askRestore w k n.1 (found - 1)
  return found

/-! ### The walk for writing (R118 to R120, R149) -/

/-- An allocation that must wait (R119): for a header and a near frame, or for a near frame of one die. -/
def allocWait {α : Type} (w : Who) (k : Nat) (only restore : Option Nat) : Act α := do
  modify (fun s => { s with
    pgk := { s.pgk with allocWaits := s.pgk.allocWaits ++ [⟨k, w.cluster, s.now, false, only, restore, none, false⟩] }
    pwr := { s.pwr with lastAllocWait := tset 0 s.pwr.lastAllocWait w.die (s.now + 1) } })
  throw (.park .running)

/-- What is kept for a command's allocation whose wait has ended, taken by it. -/
def takeHeld (w : Who) (k : Nat) (only restore : Option Nat) : Act (Option (Nat × Nat × Nat)) := do
  let s ← get
  let ends (a : AllocWait) : Bool := a.key == k && a.cluster == w.cluster && a.only == only && a.restore == restore && a.done
  match s.pgk.allocWaits.find? ends with
  | none => return none
  | some a =>
    set { s with pgk := { s.pgk with allocWaits := removeFirst ends s.pgk.allocWaits } }
    return a.held

/-- A header and a near frame for a new page (R119). -/
def allocPage (w : Who) (k : Nat) : Act (Nat × Nat × Nat) := do
  match ← takeHeld w k none none with
  | some x => return x
  | none =>
    match allocDie (← get) w.die with
    | some x => return x
    | none => allocWait w k none none

/-- A near frame of a die for a DROPPED page that is written (R120). -/
def nearFrame (w : Who) (k d : Nat) (restore : Option Nat) : Act Nat := do
  match ← takeHeld w k (some d) restore with
  | some x => return x.2.2
  | none =>
    match freeNear (← get) d with
    | some f =>
      modify (fun s => takeFrame s d false f)
      return f
    | none => allocWait w k (some d) restore

/-- The fmt word of a page's header: the sequence's format, its head dimension and its retention class (R108). -/
def pageFmt (q : SeqDesc) : Nat := q.fmtKv % 8192 + bit (q.hd = 1) * 8192 + q.retain % 4 * 16384

/-- A hole filled with a new page (R118 step 2). -/
def fillHole (w : Who) (k layer : Nat) (n : PageNeed) (node i : Nat) : Act Nat := do
  let q := seqNow (← get) n.1
  let (d, hIdx, f) ← allocPage w k
  let page ← takePage w d hIdx f n.1 layer n.2.1 q.tppLog2 (pageFmt q) (n.2.2 * 2 ^ q.tppLog2)
  let h ← readHdr w page
  writeEntry w node i (entryNat true h.gen page)
  let home := ofDie w q.homeDie
  writeSeq home n.1 { q with mapped := q.mapped + 1 }
  return page

/-- A shared page copied for its writer, whose entry then maps the copy (R149). -/
def copyOnWrite (w : Who) (k : Nat) (n : PageNeed) (node i page : Nat) : Act Nat := do
  let h ← legalHdr w page
  let q := seqNow (← get) n.1
  let (d, hIdx, f) ← allocPage w k
  let copy ← takePage w d hIdx f n.1 h.layer h.kvHead h.tppLog2 (h.fmt % 16384 + q.retain % 4 * 16384) h.firstPos
  copyFrames w (hdrForm h) (numDie page) h.tier h.frame d 0 f
  let h' ← readHdr w copy
  writeHdr w copy { h' with valid := h.valid }
  writeEntry w node i (entryNat true h'.gen copy)
  modify (fun s => bumpSpn s q.homeDie 0x58 1)
  decRef w page
  return copy

/-- A dropped page that is written, in a near frame of its die: no valid token, LIVE or SHARED, and its charge released (R120). -/
def revive (w : Who) (k page frame : Nat) : Act Unit := do
  let h ← legalHdr w page
  writeHdr w page { h with
    frame := frame, valid := 0, tier := 0, state := if h.refcount > 1 then 2 else 1, reason := 0, dropHi := 0, qEpoch := 0 }
  modify (fun s => updCmd (bumpPgk s (numDie page) 0x68 1) k (fun c => { c with revived := insertNat page c.revived }))
  chargeSeq w h.writerSeq false

/-- Whether another walk holds the lock of a P0 entry (R149, R150). -/
def lockedByOther (s : State) (k g node i : Nat) : Bool :=
  s.cmds.any (fun c => c.holds.any (fun h => (c.key ≠ k || h.cluster ≠ g) && h.locked == some (node, i)))

/-- Whether a page is copied for its writer: its entry's lock is held for the copy already, or it is SHARED and the command has not itself
written it back from DROPPED (R118, R120, R149, R150). -/
def mustCopy (s : State) (k g node i page : Nat) (h : PageHdr) : Bool :=
  (holdOf s k g).any (fun x => x.locked == some (node, i)) ||
    (h.state == 2 && !(cmdOf s k).any (fun c => c.revived.contains page))

/-- The lock of a P0 entry, taken or left. -/
def setLock (k g : Nat) (x : Option (Nat × Nat)) : Act Unit := modify (fun s => updHold s k g (fun h => { h with locked := x }))

/-- One page made ready for a write, steps 1 to 5 of R118. A second writer of an entry that is being copied waits for the lock (R150). A page that
was dropped while its copy waited is written back in place, and the lock is released (R120, R149). -/
def walkWrite (w : Who) (k layer : Nat) (n : PageNeed) : Act Nat := do
  let q := seqNow (← get) n.1
  match ← buildPath w q.homeDie (pathOf q layer n.2.1 n.2.2) q.dirRoot with
  | none => nodeFailed w q.homeDie w.die
  | some (node, i) =>
    let e ← readEntry w node i
    let page ← if e.v then do
        if !e.kind then pageIllegal w e.number 6 0
        let h ← legalHdr w e.number
        if h.gen ≠ e.gen then pageIllegal w e.number 6 (hdrCtl h) else pure e.number
      else fillHole w k layer n node i
    let h ← legalHdr w page
    if h.state = 5 then pageIllegal w page 5 (hdrCtl h)
    takePin w k page
    if lockedByOther (← get) k w.cluster node i then throw (.park .running)
    if h.state = 4 then
      revive w k page (← nearFrame w k (numDie page) none)
      setLock k w.cluster none
      return page + 1
    else if mustCopy (← get) k w.cluster node i page h then
      setLock k w.cluster (some (node, i))
      let copy ← copyOnWrite w k n node i page
      takePin w k copy
      setLock k w.cluster none
      return copy + 1
    else return page + 1

/-- The pages of a restoration that are DROPPED, each with the page that needs it: those alone it writes (R126). -/
def droppedOf (w : Who) (layer : Nat) : List PageNeed → Act (List (PageNeed × Nat))
  | [] => pure []
  | n :: rest => do
    let more ← droppedOf w layer rest
    match ← findPage w (seqNow (← get) n.1) layer n.2.1 n.2.2 with
    | none => return more
    | some (_, _, e) =>
      let h ← legalHdr w e.number
      return if h.state = 4 then (n, e.number) :: more else more

/-- Near frames taken for the pages of a restoration before any of them is written (R126). -/
def reserveFrames (w : Who) (k page : Nat) (pages : List Nat) : Act Unit := do
  for x in pages do
    let have_ := ((← get).pgk.restores.find? (fun r => r.page == page)).elim [] (fun r => r.frames)
    if !have_.any (fun f => f.1 == x) then
      let f ← nearFrame w k (numDie x) (some page)
      modify (fun s => { s with pgk := { s.pgk with restores := s.pgk.restores.map (fun r =>
        if r.page = page ∧ runsRestore s r then { r with frames := r.frames ++ [(x, f)] } else r) } })

/-- The frame reserved for a page of a restoration, taken out of its list. -/
def takeReserved (page x : Nat) : Act Nat := do
  let f := (((← get).pgk.restores.find? (fun r => r.page == page)).bind (fun r => r.frames.find? (fun f => f.1 == x))).elim 0 (fun f => f.2)
  modify (fun s => { s with pgk := { s.pgk with restores := s.pgk.restores.map (fun r =>
    if r.page = page then { r with frames := r.frames.filter (fun f => f.1 ≠ x) } else r) } })
  return f

/-- The KV layer a command names (R98, R100). -/
def layerOf (op : Nat) (p : SlotWord) : Nat := if op = 0x0303 then param p 0x46 16 else param p 0x5E 16

/-- One page of a write that an earlier walk of the step has made ready, or made ready now (R118, R368). -/
def walkReady (w : Who) (k layer : Nat) (n : PageNeed) : Act Nat := do
  match walkedPage (← get) k w.cluster n with
  | some x => return x
  | none =>
    let x ← walkWrite w k layer n
    noteWalked k w.cluster n x
    return x

/-- The walk of a plan step, page by page. -/
def walkAll (w : Who) (k layer : Nat) (write : Bool) : List PageNeed → Act (List (PageNeed × Nat))
  | [] => pure []
  | n :: rest => do
    let page ← if write then walkReady w k layer n else walkRead w k layer n
    let more ← walkAll w k layer write rest
    return (n, page) :: more

/-! ### The restoration itself (R125, R126) -/

/-- The parameter area of a recipe's PROJ for positions `p0` to `p1 − 1` of a sequence and layer, in the place of a command's (R126). -/
def recipeParams (slot : SlotWord) (entry : List Byte) (seq layer p0 p1 : Nat) : SlotWord :=
  let p := setBytes slot 0x40 (entry.take 120 ++ List.replicate 72 0)
  let pos := bytesNat ((entry.drop 0x78).take 4) % 2 ^ 26
  let act := param p 0x08 64 + 2 ^ 64 + p0 * param p 0x30 32 - pos * param p 0x30 32
  let p := setBits p (8 * 0x48) 64 (act % 2 ^ 64)
  let p := setBits p (8 * (0x40 + 0x3C)) 32 p0
  let p := setBits p (8 * (0x40 + 0x38)) 32 (p1 - p0)
  let p := setBits p (8 * (0x40 + 0x44)) 16 seq
  let p := setBits p (8 * (0x40 + 0x46)) 16 layer
  setBits p (8 * (0x40 + 0x56)) 1 1

/-- One plan step of a restoration: its splits, and the sums that they leave unfinished written back (R37, R39, R126). -/
def restoreStep (e : Env) (core : Nat) (tasks visits : List Nat) (out : StepOut) : Act StepOut := do
  let runs := tasks.map (fun t => (t, visits))
  let parts ← matrixCore e core runs out.parts
  modify (fun s => clearArrays s e.j.cluster)
  let s ← get
  return runs.foldl (fun out r => writeBacks s e r out) { out with parts := parts }

/-- Every split of one output tile of a PROJ, in the plan steps of the PROJ command that its recipe spells, then the tile finished and moved to
its destination; a poisoned output fails it (R126). -/
def restoreTile (e : Env) (tile : Nat) : Act Unit := do
  let s ← get
  let as : State := { s with host := { s.host with slots := tset 0 s.host.slots e.j.key e.j.p } }
  let core := coreFor s e.j.cluster 0
  let s' := splitsOf 0x0303 e.j.p
  let steps := (octets as e.c).flatMap (fun o =>
    (List.range (octetVisits as e.c o)).map (fun v => (o.tasks.filter (fun t => t / s' == tile), stepVisits as e.c o v)))
  let mut out : StepOut := ⟨[], [], [], 0⟩
  for x in steps do
    out ← restoreStep e core x.1 x.2 out
  let done ← finishProj e core tile [] out
  if done.staged.any stagedPoison then throw (.reject { code := 0x10 })
  for t in done.staged do
    drainTile e.j t

/-- The restoration of a page runs its layer's recipe for the sequence whose walk met it (R125, R126). It is rejected when it fails. Every near
frame it needs is taken before it writes any page. -/
def runRestore (k g page seq : Nat) : Act Unit := do
  let s ← get
  let w : Who := { die := g / 4, key := some k, cluster := g }
  let h ← readHdr w page
  let q := seqNow s seq
  let fail {α : Type} : Act α := throw (.reject { code := 0x10 })
  if q.recipeBase = 0 then fail
  let asid := cmdAsid s k
  let entry ← readCtl w asid (q.recipeBase + h.layer * 128) 128 3
  let p0 := h.firstPos
  let p1 := min (h.firstPos + 2 ^ h.tppLog2) q.length
  if p1 ≤ p0 then fail
  let p := recipeParams (slotAt s k) entry seq h.layer p0 p1
  if bytesNat ((entry.drop 0x78).take 4) ≥ 2 ^ 26 ∨ bytesNat (entry.drop 0x7C) ≠ 0 then fail
  let _ ← projCheck k p
  match cmdOf (← get) k with
  | none => fail
  | some c =>
    let j : Job := ⟨k, 0x0303, p, asid, g, (holdOf s k g).elim [] (·.noMap), []⟩
    let c' := { c with opcode := 0x0303 }
    let pages := (List.range (tileCount c' 0x0303 p)).flatMap (appendPages s p (tilesAcross c' 0x0303 p))
    let gone ← droppedOf w h.layer pages.eraseDups
    reserveFrames w k page (gone.map (fun e => e.2))
    for e in gone do
      revive w k e.2 (← takeReserved page e.2)
    let walk := gone.map (fun e => (e.1, e.2 + 1))
    for tile in List.range (tileCount c' 0x0303 p) do
      restoreTile ⟨j, c', walk, 0⟩ tile

end Sys2Proof.Machine
end

