-- ==== Sys2Proof/Machine/RingCommands.lean ====
section
/-! DEFINITION. Ring commands between packages: credits, blocks sent on, partials that cross packages, and what a member waits for
(spec/11_kettle_links.md R298 to R301). -/
namespace Sys2Proof.Machine

/-! ### Blocks (R299, R300) -/

/-- The sequence a ring command reads, under packing the first. -/
def ringSeqNow (s : State) (c : Cmd) : SeqDesc := seqNow s (firstSeq c (slotAt s c.key))

/-- The position whose block a member computes in a round (R300). -/
def roundPos (s : State) (c : Cmd) (r : Nat) : Nat := let n := groupCount s c; (groupPos s c + n - r % n) % n

/-- The key tiles of the block of a position, with their sequences. -/
def blockTiles (s : State) (c : Cmd) (pos : Nat) : List (Nat × Nat) :=
  let p := slotAt s c.key
  blockPairs (keySpans c.packTable p) (splitsOf 0x0301 p) (groupCount s c) pos

/-- Frames of the block of a position: 512 bytes each (R284). -/
def blockFrames (s : State) (c : Cmd) (pos : Nat) : Nat :=
  let q := ringSeqNow s c
  ((blockTiles s c pos).length * q.kvHeads * tileBytes (BitVec.ofNat 16 q.fmtKv) (dimOf q.hd) + 511) / 512

/-- Frames of one of a block's two transfers: the first carries the lower half, rounded up (R300). -/
def halfFrames (f half : Nat) : Nat := if half = 0 then (f + 1) / 2 else f / 2

/-- Whether a transfer of a round's block has been written whole. -/
def halfHere (s : State) (c : Cmd) (r half : Nat) : Bool :=
  let n := halfFrames (blockFrames s c (roundPos s c r)) half
  let pred := memberAt s c ((groupPos s c + groupCount s c - 1) % groupCount s c)
  n == 0 || s.ktl.inbound.any (fun i =>
    i.src == pred && i.group == groupOf s c && i.round == r && i.xfer % 2 == half && decide (i.frames ≥ n))

/-- Whether a member holds the block of a round (R300). -/
def blockHere (s : State) (c : Cmd) (r : Nat) : Bool := r == 0 || (halfHere s c r 0 && halfHere s c r 1)

/-- Blocks a member has sent on: two transfers each. -/
def blocksSent (s : State) (c : Cmd) : Nat := (s.ktl.transfers.filter (fun t => t.key == c.key)).length / 2

/-- Whether frames of a command's transfers, of those a test selects, still wait at a port. -/
def framesWait (s : State) (c : Cmd) (test : FrameHead → Bool) : Bool :=
  (List.range 4).any (fun k => (portAt s k).waiting.any (fun w => w.key == some c.key && test (frameHead w.frame)))

/-- Whether frames of a command are unacknowledged. -/
def framesUnacked (s : State) (c : Cmd) : Bool :=
  (List.range 4).any (fun k => (portAt s k).replayBuf.any (fun f => losesFrame s f == some c.key))

/-- Whether a member has sent on the block of a round (R300). -/
def sentOn (s : State) (c : Cmd) (r : Nat) : Bool :=
  decide (blocksSent s c > r) && !framesWait s c (fun h => h.type == 2 && h.addr / 2 ^ 58 % 16 == r + 1)

/-- The CREDIT granule of a command (R285): its sequence, digest and group. -/
def creditWord (s : State) (c : Cmd) (rest : Nat) : Word128 :=
  BitVec.ofNat 128 (rest + groupOf s c * 2 ^ 45 + (c.ringSeq.getD 0).toNat * 2 ^ 48 + c.digest.toNat * 2 ^ 64)

/-- Whether a received credit belongs to a command and says what a test asks. -/
def creditOf (s : State) (c : Cmd) (src : Nat) (kind : Nat) (test : Nat → Bool) (x : Nat × Word128) : Bool :=
  let v := x.2.toNat % 2 ^ 64
  x.1 == src && decide (v / 2 ^ 47 % 2 = kind) && decide (v / 2 ^ 45 % 4 = groupOf s c) &&
    decide (v / 2 ^ 48 = (c.ringSeq.getD 0).toNat) && test v

/-- The credits a member sends its predecessor: rounds 1 and 2 at once, round `r` once it has computed and sent on the block of
round `r − 2` (R300). -/
def sendCredits (s : State) (c : Cmd) : Nat → State
  | 0 => s
  | fuel + 1 =>
    let r := ((cmdOf s c.key).elim 0 (·.round)) + 1
    let ok := decide (r < groupCount s c) && (decide (r ≤ 2) || (roundsDone s c (r - 1) && sentOn s c (r - 2)))
    if ok then
      let pred := memberAt s c ((groupPos s c + groupCount s c - 1) % groupCount s c)
      let s := sendCredit s pred (creditWord s c (2 ^ 47 + r * 2 ^ 41))
      sendCredits (updCmd s c.key (fun c => { c with round := r })) c fuel
    else s

/-! ### Sending a block (R300) -/

/-- Bytes as payload words, a granule with a poisoned byte poison. -/
def wordsOf (bs : List (Byte × Bool)) : List MarkedWord :=
  (chunksOf 16 bs.length bs).map (fun g => ((BitVec.ofNat 128 (bytesNat (g.map (·.1))) : Word128), g.any (·.2)))

/-- A token's key and value rows and scales as the walk delivers them, as stored (R300). -/
def ownToken (w : Who) (k seq layer head pos : Nat) (f : PageForm) :
    Act ((List (Byte × Bool) × List (Byte × Bool)) × (List (Byte × Bool) × List (Byte × Bool))) := do
  let q := seqNow (← get) seq
  let tpp := 2 ^ q.tppLog2
  let none_ (n : Nat) : List (Byte × Bool) := List.replicate n (0, true)
  let lost := ((none_ f.rowBytes, none_ f.scaleRow), (none_ f.rowBytes, none_ f.scaleRow))
  match ← findPage w q layer head (pos / tpp) with
  | none => return lost
  | some (_, _, e) =>
    let h ← legalHdr w e.number
    if h.state = 4 then
      if wantsRestore (← get) k seq e.number then askRestore w k seq e.number else return lost
    else
      let bad := !h.valid.testBit (pos % tpp)
      let mark (x : List (Byte × Bool) × List (Byte × Bool)) : List (Byte × Bool) × List (Byte × Bool) :=
        (x.1.map (fun b => (b.1, b.2 || bad)), x.2.map (fun b => (b.1, b.2 || bad)))
      return (mark (← tokenBytes w e.number h (pos % tpp) false), mark (← tokenBytes w e.number h (pos % tpp) true))

/-- A member's own block as bytes: tiles in ascending key tile within each KV head; in a tile key rows, value rows, key scales, value
scales (R300). -/
def ownBlock (c : Cmd) (w : Who) : Act (List (Byte × Bool)) := do
  let s ← get
  let p := slotAt s c.key
  let q := ringSeqNow s c
  let f := pageForm (BitVec.ofNat 16 q.fmtKv) (dimOf q.hd) 0
  let mut out : List (Byte × Bool) := []
  for head in List.range q.kvHeads do
    for t in blockTiles s c (groupPos s c) do
      let mut rows := []
      for i in List.range 128 do
        rows := rows ++ [← ownToken w c.key t.1 (param p 0x5E 16) head (128 * t.2 + i) f]
      out := out ++ rows.flatMap (·.1.1) ++ rows.flatMap (·.2.1) ++ rows.flatMap (·.1.2) ++ rows.flatMap (·.2.2)
  return out

/-- A block in a staging half as bytes. -/
def heldBlock (c : Cmd) (r : Nat) : Act (List (Byte × Bool)) := do
  let n := blockFrames (← get) c (roundPos (← get) c r)
  let mut out : List (Byte × Bool) := []
  for i in List.range n do
    out := out ++ (← poolData { die := 0, key := some c.key } (stageAddr (← get) r i) 512)
  return out

/-- One transfer started: its frames put up at the port its first frame takes, which it keeps (R291), and the transfer kept. -/
def sendTransfer (s : State) (c : Cmd) (byXfer : Bool) (xfer dst : Nat) (frames : List (List Granule)) (done : Bool) : State :=
  let port := routePort s dst xfer byXfer
  let t : KtlTransfer := ⟨xfer, c.key, dst, port.getD 0, frames.length, done⟩
  let s := { s with ktl := { s.ktl with transfers := s.ktl.transfers ++ [t] } }
  match port with
  | some k => enqueue s k (frames.map (fun f => ⟨f, none, some c.key⟩))
  | none => s

/-- One transfer of a block, kept until its DONE (R300). -/
def sendHalf (s : State) (c : Cmd) (dst xfer round first : Nat) (words : List MarkedWord) : State :=
  let fs := (chunksOf 32 words.length words).zipIdx.map (fun f => buildFrame
    { type := 2, dst := dst, src := ownPkg s, vc := 0, len := f.1.length, xfer := xfer,
      addr := groupOf s c * 2 ^ 62 + round * 2 ^ 58 + (first + f.2) } 0 0 f.1)
  sendTransfer s c true xfer dst fs fs.isEmpty

/-- The next even transfer tag. -/
def evenXfer (s : State) : Nat := (s.ktl.nextXfer + 1) / 2 * 2 % 65536

/-- The block of a round sent to the successor as its round `r + 1` (R300). -/
def sendBlock (c : Cmd) (w : Who) (r : Nat) : Act Unit := do
  let bs ← if r = 0 then ownBlock c w else heldBlock c r
  let s ← get
  let dst := memberAt s c ((groupPos s c + 1) % groupCount s c)
  let words := wordsOf bs
  let x := evenXfer s
  let cut := 32 * halfFrames ((words.length + 31) / 32) 0
  let s := { s with ktl := { s.ktl with nextXfer := x + 2 } }
  let s := sendHalf s c dst x (r + 1) 0 (words.take cut)
  set (sendHalf s c dst (x + 1) (r + 1) (cut / 32) (words.drop cut))

/-- The requester of a ring command's own reads: its first cluster. -/
def ringWho (c : Cmd) : Who :=
  let g := (c.holds.map (·.cluster)).headD 0
  { die := g / 4, key := some c.key, cluster := g }

/-- An action of a ring command: an abort ends it, a wait leaves what was done. -/
def ringAct (s : State) (c : Cmd) (a : Act Unit) : State :=
  match a.run s with
  | .ok _ s' => s'
  | .error (.abort code) s' => abortCmd s' c.key code
  | .error _ s' => s'

/-- Whether a received credit is the one for the block a member sends on as round `r + 1` (R300). -/
def blockCredit (s : State) (c : Cmd) (r : Nat) (x : Nat × Word128) : Bool :=
  creditOf s c (memberAt s c ((groupPos s c + 1) % groupCount s c)) 1 (fun v => decide (v / 2 ^ 41 % 16 = r + 1)) x

/-- The next block sent on, once the member holds it and its successor's credit (R300). -/
def sendNext (s : State) (c : Cmd) : State :=
  let r := blocksSent s c
  let test := blockCredit s c r
  if r + 1 < groupCount s c ∧ blockHere s c r ∧ s.ktl.credits.any test ∧ !s.pgk.restores.any (fun x => x.key == c.key) then
    let s' := ringAct s c (sendBlock c (ringWho c) r)
    if blocksSent s' c > r then { s' with ktl := { s'.ktl with credits := removeFirst test s'.ktl.credits } } else s'
  else s

/-- A DONE sent for each transfer that has been written whole (R300). -/
def sendDones (s : State) (c : Cmd) : State :=
  s.ktl.inbound.foldl (fun s i =>
    let n := halfFrames (blockFrames s c (roundPos s c i.round)) (i.xfer % 2)
    if i.done ∨ i.group ≠ groupOf s c ∨ i.frames < n ∨ i.round = 0 then s
    else
      let s := sendTo s { type := 4, dst := i.src, src := ownPkg s, vc := 1, len := 0, xfer := i.xfer, addr := i.frames } true []
      { s with ktl := { s.ktl with inbound := s.ktl.inbound.map (fun x =>
          if x.src = i.src ∧ x.xfer = i.xfer then { x with done := true } else x) } }) s

/-! ### Partials that cross packages (R301) -/

/-- The right children that a position receives: powers of two below its own lowest bit, or below the count for position 0. -/
def childBits (count pos : Nat) : List Nat :=
  (List.range 4).filter (fun b => decide (2 ^ b < count) && (pos == 0 || decide (pos % 2 ^ (b + 1) = 0)))

/-- The position that takes a position's partial: itself without its lowest bit. -/
def parentPos (pos : Nat) : Nat := pos - (pos &&& (pos ^^^ (pos - 1)))

/-- Level and lowest split of the node that a position sends or forms last. -/
def topNode (s' count pos : Nat) : Nat × Nat :=
  let z := (childBits count pos).length
  (Nat.log2 (s' / count) + z, pos * s' / count)

/-- Whether every partial that an output tile takes from other packages has arrived. -/
def remotesHere (s : State) (c : Cmd) (tile : Nat) : Bool :=
  let s' := splitsOf c.opcode (slotAt s c.key)
  let n := groupCount s c
  let pos := groupPos s c
  decide (c.round ≥ (tile + 1) * (childBits n pos).length) || (childBits n pos).isEmpty || s' == 0

/-- The task that computes split `i` of an output tile: for dQ that of the tile's KV head (R96). -/
def splitTask (s : State) (c : Cmd) (tile i : Nat) : Nat :=
  let p := slotAt s c.key
  let source := if c.opcode = 0x0302 then tile / tilesAcross c c.opcode p / (shapeAt p 0x60).group else tile
  source * splitsOf c.opcode p + i

/-- Whether the partial of split `i` of an output tile is there, from this package or from the one that owns the split (R85, R301). -/
def splitHere (s : State) (c : Cmd) (tile i : Nat) : Bool :=
  let task := splitTask s c tile i
  if (octets s c).any (fun o => o.tasks.contains task) then partialDone s c task else remotesHere s c tile

/-- Whether a node's child is present: formed, or a split's own partial; empty when every split it covers is done and computed nothing
(R43, R87). -/
def childReady (s : State) (c : Cmd) (tile l i : Nat) : Bool :=
  let p := slotAt s c.key
  (formedOf c.parts (allNodes c) tile l i).isSome ||
    ((List.range (2 ^ l)).all (fun x => splitHere s c tile (i + x)) &&
      (l == 0 || (nodeOf c.opcode p c.parts (allNodes c) tile l i).isNone))

/-- Whether the trees of the tiles that a step finishes are formed to their roots, each node in its combine unit (R76, R87). A member that forms
no root finishes nothing (R301). -/
def treesReady (s : State) (c : Cmd) (x : StepAt) : Bool :=
  !isFinish s c x || (ringMode s c == 2 && groupPos s c ≠ 0) ||
    x.octet.finish.all (fun t => childReady s c t (Nat.log2 (splitsOf c.opcode (slotAt s c.key))) 0)

/-- An empty partial's rows, which a maximum of −∞ marks in every row. -/
def emptyPartial (d : Nat) : List RowAcc := List.replicate 128 (emptyRow d)

/-- The 66,560 bytes of a partial: the output rows, then the maxima, then the sums, the rest 0 (R87, R301). -/
def partialBytes (d : Nat) (x : List RowAcc) : List (Byte × Bool) :=
  let rows := x ++ (emptyPartial d).drop x.length
  let o := rows.flatMap (fun r => bytesF32 r.o)
  let clean (v : F32) : List (Byte × Bool) := bytesF32 [(v, false)]
  let bs := o ++ rows.flatMap (fun r => clean r.m) ++ rows.flatMap (fun r => clean r.l)
  bs ++ List.replicate (66560 - bs.length) (0, false)

/-- A partial from its words; none when every row's maximum is −∞. -/
def partialOf (d : Nat) (ws : List MarkedWord) : List RowAcc :=
  let vals : List Marked := ws.flatMap (fun w => (List.range 4).map (fun i => (w.1.extractLsb' (32 * i) 32, w.2)))
  let rows := (List.range 128).map (fun i =>
    let o := (vals.drop (i * d)).take d
    let m := (vals.getD (128 * d + i) (f32Zero, false)).1
    let l := (vals.getD (128 * d + 128 + i) (f32Zero, false)).1
    (⟨m, l, o.all (·.2), o⟩ : RowAcc))
  if rows.all (fun r => r.m == f32NegInf) then [] else rows

/-- The window a KEYSPLIT command takes partials through: core, window and first word, in the lane of its first cluster. -/
def ringWindow (c : Cmd) : Nat × Nat × Nat :=
  match c.holds with
  | h :: _ => (8 * h.cluster, 2 * h.lane, h.lane * 0x20000)
  | [] => (0, 0, 0)

/-- Output tiles of a ring command. -/
def ringTiles (s : State) (c : Cmd) : Nat := tileCount c c.opcode (slotAt s c.key)

/-- The next partial that a position takes: its output tile and the child's position. -/
def nextRemote (s : State) (c : Cmd) : Option (Nat × Nat) :=
  let bits := childBits (groupCount s c) (groupPos s c)
  if bits.isEmpty ∨ c.round ≥ ringTiles s c * bits.length then none
  else some (c.round / bits.length, groupPos s c + 2 ^ (bits.getD (c.round % bits.length) 0))

/-- A partial that has arrived whole passes from its window to the tree, and the window closes (R301). -/
def takePartial (s : State) (c : Cmd) : State :=
  match nextRemote s c with
  | none => s
  | some (tile, child) =>
    let (core, win, base) := ringWindow c
    let w := windowOf s core win
    let mine (i : Inbound) : Bool := i.src == memberAt s c child && i.via == some (core, win, w.gen.toNat)
    if w.state = 1 ∧ w.openedFor = c.key + 1 ∧ s.ktl.inbound.any (fun i => mine i && decide (i.frames ≥ 130)) then
      let (words, s) := (List.range 4160).foldl (fun (a : List MarkedWord × State) i =>
        let (x, s) := spadRead a.2 (some c.key) core (base + i)
        (a.1 ++ [x], s)) ([], s)
      let p := slotAt s c.key
      let d := (shapeAt p 0x60).d
      let top := topNode (splitsOf c.opcode p) (groupCount s c) child
      let x := partialOf d words
      let x := if c.opcode = 0x0301 then x else x.map (fun r => { r with m := f32Zero, l := f32Zero })
      let s := setWindow s core win (closedNow s.now (closing w))
      let s := { s with ktl := { s.ktl with inbound := s.ktl.inbound.filter (fun i => !mine i) } }
      updCmd s c.key (fun c => { c with round := c.round + 1, parts := tset [] c.parts (remoteKey tile top.1 top.2) x })
    else s

/-- The window opened for the next partial, and its credit sent (R301). -/
def openWindowFor (s : State) (c : Cmd) : State :=
  match nextRemote s c with
  | none => s
  | some (_, child) =>
    let (core, win, base) := ringWindow c
    let w := windowOf s core win
    if mayOpen s w then
      let arg : BitVec 64 := BitVec.ofNat 64 (base + (base + 4159) * 2 ^ 19 + 2 ^ 39)
      let s := setWindow s core win (opened w arg c.key)
      sendCredit s (memberAt s c child) (creditWord s c (gaddrOf core base + w.gen.toNat * 2 ^ 30 + win * 2 ^ 38))
    else s

/-- A position's own part of an output tile's tree is complete. -/
def ownPart (s : State) (c : Cmd) (tile : Nat) : Bool :=
  (octets s c).zipIdx.all (fun e => !e.1.tasks.any (fun t => feeds c (slotAt s c.key) t tile) || octetDone s c e.2)

/-- The node of an output tile that a position sends is formed: its own part of the tree and what it takes from others (R87, R301). -/
def ownTree (s : State) (c : Cmd) (tile : Nat) : Bool :=
  let top := topNode (splitsOf c.opcode (slotAt s c.key)) (groupCount s c) (groupPos s c)
  ownPart s c tile && remotesHere s c tile && childReady s c tile top.1 top.2

/-- The output tile whose partial a position sends next. -/
def nextSent (s : State) (c : Cmd) : Nat := (s.ktl.transfers.filter (fun t => t.key == c.key)).length

/-- The partial of the next output tile sent to the package that forms its node, through the window its credit names (R301). -/
def sendPartial (s : State) (c : Cmd) : State :=
  let pos := groupPos s c
  let tile := nextSent s c
  let dst := memberAt s c (parentPos pos)
  let test := creditOf s c dst 0 (fun _ => true)
  if pos = 0 ∨ tile ≥ ringTiles s c ∨ !ownTree s c tile then s
  else match s.ktl.credits.find? test with
    | none => s
    | some x =>
      let v := x.2.toNat % 2 ^ 64
      let p := slotAt s c.key
      let top := topNode (splitsOf c.opcode p) (groupCount s c) pos
      let d := (shapeAt p 0x60).d
      let node := (nodeOf c.opcode p c.parts (allNodes c) tile top.1 top.2).getD (emptyPartial d)
      let xfer := evenXfer s
      let s := { s with ktl := { s.ktl with nextXfer := xfer + 2, credits := removeFirst test s.ktl.credits } }
      let fs := (chunksOf 32 4160 (wordsOf (partialBytes d node))).zipIdx.map (fun f => buildFrame
        { type := 1, dst := dst, src := ownPkg s, vc := 0, len := 32, xfer := xfer,
          addr := v / 2 ^ 30 % 256 * 2 ^ 56 + v / 2 ^ 38 % 8 * 2 ^ 53 + (v % 2 ^ 27 + 32 * f.2) } 0 0 f.1)
      let s := sendTransfer s c true xfer dst fs true
      updCmd s c.key (fun c => { c with
        parts := dropParts c.opcode p [tile] c.parts, holds := c.holds.map (dropNodes [tile])
        slotted := c.slotted.filter (fun e => e.1 / splitsOf c.opcode p ≠ tile) })

/-! ### Waiting (R300) -/

/-- Whether everything a ring command sends has been sent and acknowledged. -/
def ringDone (s : State) (c : Cmd) : Bool :=
  match ringMode s c with
  | 1 => decide (blocksSent s c + 1 ≥ groupCount s c) && s.ktl.transfers.all (fun t => t.key ≠ c.key || t.done)
  | 2 => groupPos s c == 0 || (decide ((s.ktl.transfers.filter (fun t => t.key == c.key)).length ≥ ringTiles s c) &&
      !framesWait s c (fun _ => true) && !framesUnacked s c)
  | _ => true

/-- Whether a plan step's round may start: the rounds before it have ended and its block is complete; for a root over packages, its
partials have arrived (R300, R301). -/
def ringReady (s : State) (c : Cmd) (x : StepAt) : Bool :=
  match ringMode s c with
  | 1 => roundsDone s c x.octet.round && (decide (x.octet.round ≥ groupCount s c) || blockHere s c x.octet.round)
  | 2 => !isFinish s c x || groupPos s c ≠ 0 || x.octet.finish.all (remotesHere s c)
  | _ => true

/-- What a ring command waits for (R300): the DONE of each transfer it has sent, the credit for a block it holds, the block of a round whose
predecessors have ended; in KEYSPLIT the credit for a partial it has formed, and the partial of a tile whose own part it has. -/
def ringWaits (s : State) (c : Cmd) : List RingWait :=
  match ringMode s c with
  | 0 => []
  | 1 =>
    let r := blocksSent s c
    (s.ktl.transfers.filter (fun t => t.key == c.key && !t.done)).map (fun t => .done t.xfer) ++
      (if r + 1 < groupCount s c ∧ blockHere s c r ∧ !s.ktl.credits.any (blockCredit s c r) then [.credit (r + 1)] else []) ++
      ((List.range (groupCount s c)).filter (fun r => decide (r > 0) && roundsDone s c r && !blockHere s c r)).map (fun r => .block r)
  | _ =>
    (match nextRemote s c with
      | some (tile, _) => if ownPart s c tile then [.block c.round] else []
      | none => []) ++
      (if groupPos s c ≠ 0 ∧ nextSent s c < ringTiles s c ∧ ownTree s c (nextSent s c) then [.credit (nextSent s c)] else [])

/-- A placed ring command's links at the end of a step. -/
def ringSettle (s : State) (k : Nat) : State :=
  match cmdOf s k with
  | none => s
  | some c =>
    if !isRing c ∨ c.placedAt.isNone then s
    else
      let s := if ringMode s c = 1 then
          let s := sendNext (sendDones (sendCredits s c 16) c) c
          (cmdOf s k).elim s (fun c => sendCredits s c 16)
        else if ringMode s c = 2 then
          let s := takePartial s c
          let s := (cmdOf s k).elim s (fun c => openWindowFor s c)
          (cmdOf s k).elim s (fun c => sendPartial s c)
        else s
      match cmdOf s k with
      | none => s
      | some c =>
        let waits := (ringWaits s c).map (fun w => (w, ((c.ringWaits.find? (fun x => x.1 == w)).map (·.2)).getD s.now))
        updCmd s k (fun c => { c with ringWaits := waits })

end Sys2Proof.Machine
end

