-- ==== Sys2Proof/Machine/PlanQueues.lean ====
section
/-! DEFINITION. The stream queues of a loaded plan within the plan steps of a compute command, and multicast groups (spec/08_streams.md R199,
R209, R221 to R226). -/
namespace Sys2Proof.Machine

/-! ### The queues of a plan step (R199, R209; log 60) -/

/-- The image of the plan that a command names; empty for a standard plan. -/
def planImage (s : State) (c : Cmd) : List Byte := planBytesOf s (cmdPlan s c)

/-- The cores of a cluster that a plan step's tasks run on, each with its task (R13). -/
def taskCores (s : State) (g : Nat) (x : StepAt) : List (Nat × Nat) := x.wave.mapIdx (fun i t => (8 * g + coreFor s g i, t))

/-- The queues of a plan that have descriptors (R210). -/
def usedQueues (img : List Byte) : List Nat := (List.range 8).filter (fun i => decide ((streamEntry img i).count > 0))

/-- The queues that a plan step runs, core × 8 + queue, each with the task of its core; none under a standard plan or in a step that only
finishes tiles. -/
def stepQueues (s : State) (c : Cmd) (g : Nat) (x : StepAt) : List (Nat × Nat) :=
  if cmdPlan s c = 0 ∨ isFinish s c x then []
  else (taskCores s g x).flatMap (fun e => (usedQueues (planImage s c)).map (fun i => (e.1 * 8 + i, e.2)))

/-- P0 to P7 of a queue of a compute command: the logical split, the plan step's index within the command, and the parameters from the command
(R199). -/
def computeParams (s : State) (c : Cmd) (x : StepAt) (task : Nat) : List (BitVec 64) :=
  BitVec.ofNat 64 (task % splitsOf c.opcode (slotAt s c.key)) :: BitVec.ofNat 64 (stepIndex s c x) ::
    (List.range 6).map (fun i => Config.planParam (cmdPlan s c) (i + 2))

/-- Whether the queues that a plan step needs are free of other streams. -/
def queuesFree (s : State) (c : Cmd) (g : Nat) (x : StepAt) : Bool :=
  (stepQueues s c g x).all (fun e => (queueAt s (e.1 / 8) (e.1 % 8)).state == .free)

/-- One queue of a plan step set going: where the last commit of its task left it, else at its first descriptor; a queue that stood at the last
step's boundary goes on. -/
def beginQueue (c : Cmd) (h : Hold) (x : StepAt) (s : State) (e : Nat × Nat) : State :=
  let core := e.1 / 8
  let qi := e.1 % 8
  let now := queueAt s core qi
  let ps := computeParams s c x e.2
  let q := match h.saved.find? (fun y => y.1 == e.2 * 8 + qi) with
    | some (_, q) => { q with gen := now.gen, params := ps, wait := if q.wait = .boundary then .none else q.wait }
    | none => startQueue { Queue.reset with gen := now.gen } c.key (cmdSession s c.key) (cmdPlan s c) false ps
  runAhead (setQueue s core qi q) core qi

/-- The queues of a plan step set going, once the step is under way. -/
def beginQueues (s : State) (c : Cmd) (h : Hold) (x : StepAt) : State :=
  (stepQueues s c h.cluster x).foldl (beginQueue c h x) s

/-- Whether a queue holds a plan step's commit back: its step queue until its descriptor is delivered, every queue in the octet's last step
until its list is, and any queue while a transfer waits for a translation answer (R209, R366). -/
def holdsStep (s : State) (c : Cmd) (x : StepAt) (i : Nat) : Bool :=
  let q := queueAt s (i / 8) (i % 8)
  let last := decide (x.visit + 1 = octetVisits s c x.octet)
  let stepper := i % 8 == (planHeader (planImage s c)).stepQueue
  q.key == c.key && q.state ≠ .free &&
    (q.state == .faulted || !(transfersWhere q (fun t => t.fault.isSome)).isEmpty ||
      (stepper && !(q.issued.isEmpty && !q.unitDone && (q.wait == .boundary || q.wait == .done))) ||
      (last && !stepper && q.wait ≠ .done))

/-- Whether every queue of a plan step has come to its boundary. -/
def queuesReady (s : State) (c : Cmd) (g : Nat) (x : StepAt) : Bool := (stepQueues s c g x).all (fun e => !holdsStep s c x e.1)

/-- A queue as a commit leaves it: transfers in flight are issued again in the next step. -/
def restQueue (q : Queue) : Queue := mapTransfers (fun t => { t with sent := t.done }) { q with handoff := none }

/-- The last beats of the queues of a plan step go to the banks (R167). -/
def flushBeats (s : State) (c : Cmd) (g : Nat) (x : StepAt) : State :=
  (stepQueues s c g x).foldl (fun s e => flushBeat s (e.1 / 8) (e.1 % 8)) s

/-- The queues of a plan step given back at its commit, their records kept for the next step of the octet (R209, R221). -/
def endQueues (s : State) (c : Cmd) (g : Nat) (x : StepAt) : State :=
  let s := flushBeats s c g x
  let last := decide (x.visit + 1 = octetVisits s c x.octet)
  let keep := if last then [] else (stepQueues s c g x).map (fun e => (e.2 * 8 + e.1 % 8, restQueue (queueAt s (e.1 / 8) (e.1 % 8))))
  let rest (h : Hold) : List (Nat × Queue) := h.saved.filter (fun e => x.octet.tasks.contains (e.1 / 8) && !x.wave.contains (e.1 / 8))
  updHold (freeQueues s c.key g) c.key g (fun h => { h with saved := rest h ++ keep, streamed := [], emptied := [], cores := [] })

/-! ### Multicast groups (R222 to R226) -/

/-- Whether every task of a plan step has one split, so that its cores share keys (R85). -/
def sharesKeys (c : Cmd) (p : SlotWord) (ts : List Nat) : Bool :=
  let s' := splitsOf c.opcode p
  decide (ts.length ≥ 2) && ts.all (fun t => t % s' == ts.headD 0 % s')

/-- Whether every task of a plan step works for one output tile, so that its cores share the query tile. -/
def sharesQuery (c : Cmd) (p : SlotWord) (ts : List Nat) : Bool :=
  let s' := splitsOf c.opcode p
  decide (ts.length ≥ 2) && ts.all (fun t => t / s' == ts.headD 0 / s')

/-- Tiles of a standard plan's group of a kind in a visit: the visit's key tiles, or the query tile. -/
def groupTiles (s : State) (c : Cmd) (p : SlotWord) (x : StepAt) (kv : Bool) : Nat :=
  let size := visitSize s c c.opcode p
  if kv then x.wave.foldl (fun m t =>
    max m ((stepVisits s c x.octet x.visit).map (fun v => min size (taskSize s c c.opcode p t - v * size))).sum) 0
  else 1

/-- A group of a plan step, every receiver attached: one on each core that runs a split (R222). Plan 0 keeps to the receiver limit of R402,
and its ring is the whole multicast buffer in the eight slots of 64 KiB that it holds (log 60). -/
def newGroup (s : State) (c : Cmd) (g tiles : Nat) (x : StepAt) : Group :=
  let s' := splitsOf c.opcode (slotAt s c.key)
  let n := if cmdPlan s c = 0 then receiverLimit s g else 8
  { key := c.key, tiles := tiles, receivers := ((taskCores s g x).take n).map (fun e => ⟨e.1, e.2 % s', 0, true, none, 0⟩),
    fetched := 0, queue := none, base := 0, slotWords := 4096, slots := 8, lost := [] }

/-- The groups of a plan step: under a standard plan one where its cores share keys or a query tile, under a loaded plan those of its group
entries that a queue names (R85, R211, R222). -/
def stepGroups (s : State) (c : Cmd) (g : Nat) (x : StepAt) : List (Nat × Group) :=
  let p := slotAt s c.key
  if cmdPlan s c = 0 then
    let kinds : List Bool :=
      if c.opcode ≠ 0x0301 then [] else if sharesKeys c p x.wave then [true] else if sharesQuery c p x.wave then [false] else []
    kinds.map (fun kv => (0, newGroup s c g (groupTiles s c p x kv) x))
  else
    let img := planImage s c
    (List.range (planHeader img).groupCount).filterMap (fun i =>
      ((usedQueues img).find? (fun qi => (streamEntry img qi).group == 128 + i)).map (fun qi =>
        let e := groupEntry img (planHeader img) i
        (i, { newGroup s c g 0 x with queue := some qi, base := e.ringBase, slotWords := e.slotWords, slots := e.slots })))

/-- The groups of a plan step formed (R222). -/
def formGroups (s : State) (c : Cmd) (g : Nat) (x : StepAt) : State :=
  if isFinish s c x then s
  else (stepGroups s c g x).foldl (fun s e =>
    { s with str := { s.str with groups := tset none s.str.groups (4 * g + e.1) (some e.2) } }) s

/-- A group of a cluster replaced. -/
def setGroup (s : State) (cluster group : Nat) (x : Group) : State :=
  { s with str := { s.str with groups := tset none s.str.groups (4 * cluster + group) (some x) } }

/-- Tiles the leader has taken: the most of any attached receiver (R222). -/
def leaderTaken (x : Group) : Nat := (x.receivers.filter (fun r => r.attached)).foldl (fun m r => max m r.taken) 0

/-- The fewest tiles any attached receiver has taken. -/
def leastTaken (x : Group) : Nat := (x.receivers.filter (fun r => r.attached)).foldl (fun m r => min m r.taken) (leaderTaken x)

/-- Whether the source may fetch its next tile: at most four tiles ahead of the leader, into a free slot; a slot is free when every attached
receiver has taken its tile (R222). -/
def mayFetch (x : Group) : Bool :=
  x.receivers.any (fun r => r.attached) && decide (x.fetched < leaderTaken x + 4) && decide (x.fetched < leastTaken x + x.slots)

/-- Whether a receiver's core waits for a translation answer. -/
def receiverStalled (s : State) (k core : Nat) : Bool :=
  let mine (w : Waiter) : Bool := w.key == k && w.core == core && w.origin == 0
  (allPendings s).any (fun e => e.2.2.waiters.any mine) || s.xlt.miss.any (fun e => e.2.any (fun m => m.waiters.any mine)) ||
    s.xlt.missRegs.any (fun e => mine e.2.2)

/-- Hold timers: while the leader waits for its next tile, every attached receiver whose lag is 8 holds the group, its timer from when it
began to, with the budget then in force; the timers of the others stand at 0 (R223, R224, R345). -/
def holdTimers (s : State) (waits : Bool) (x : Group) : Group :=
  let top := leaderTaken x
  { x with receivers := x.receivers.map (fun r =>
      let holds := r.attached && decide (top ≥ r.taken + 8) && (waits || r.holdSince.isSome)
      if !holds then { r with holdSince := none, budget := 0 }
      else if r.holdSince.isSome then r
      else { r with holdSince := some s.now, budget := ticksCeil (cfgVal s 0x4002 0) }) }

/-- The receivers that held a group and no longer do. -/
def holdsEnded (x x' : Group) : Nat :=
  ((x.receivers.zip x'.receivers).filter (fun e => e.1.holdSince.isSome && e.2.holdSince.isNone)).length

/-- Cycles that `n` holds lasted, which only timing decides (R227; log 14). -/
def countHolds (s : State) (cluster n : Nat) : State :=
  (List.range n).foldl (fun s _ => bumpFree s (0x4000 + cluster * 0x80) 0x58) s

/-- A group with its hold timers as the lags now have them; a hold that ends is counted (R223, R227). -/
def settleHolds (s : State) (cluster group : Nat) (waits : Bool) (x : Group) : State :=
  let x' := holdTimers s waits x
  countHolds (setGroup s cluster group x') cluster (holdsEnded x x')

/-- The groups of a cluster end with the plan step; tiles that a standard plan's detached receivers fetched by themselves are counted (R224,
R227). -/
def endGroups (s : State) (g : Nat) : State :=
  let gs := (s.str.groups.filter (fun e => decide (e.1 / 4 = g))).filterMap (·.2)
  let holding := (gs.map (fun x => (x.receivers.filter (fun r => r.holdSince.isSome)).length)).sum
  let alone := (gs.map (fun x => ((x.receivers.filter (fun r => !r.attached)).map (fun r => x.tiles - r.taken)).sum)).sum
  bumpStr (countHolds { s with str := { s.str with groups := s.str.groups.filter (fun e => decide (e.1 / 4 ≠ g)) } } g holding) g 0x68 alone

/-! ### The group of a standard plan -/

/-- The byte address of a word of a cluster's multicast buffer in `Spad.multicast`. -/
def multicastAddr (cluster w : Nat) : Nat := cluster * 2 ^ 19 + w % 32768 * 16

/-- The first word of the ring slot of a tile of a group. -/
def groupSlot (x : Group) (n : Nat) : Nat := x.base + n % max 1 x.slots * x.slotWords

/-- Bytes put into a cluster's multicast buffer. -/
def putRing (s : State) (a : Nat) (bs : List (Byte × Bool)) : State :=
  { s with spad := { s.spad with multicast := (poisonRuns 0 bs).foldl (fun m e => m.write (a + e.1) e.2.1 e.2.2) s.spad.multicast } }

/-- The key tiles of the task that a standard plan's group works for in the running visit. -/
def groupItems (s : State) (c : Cmd) (x : StepAt) : List (Nat × Nat) :=
  let p := slotAt s c.key
  let s' := splitsOf c.opcode p
  let task := x.wave.headD 0
  let per := visitSize s c c.opcode p
  let all := visitTiles s (maskAt p) s' (task % s') (queryRows c p (task / s' % tilesAcross c c.opcode p))
  (stepVisits s c x.octet x.visit).flatMap (fun v => (all.drop (v * per)).take per)

/-- One row of a KV tile as a group's source reads it, without the effects of the read, which the step's own accesses have; a hole is +0.0
marked poison (R115, R222). -/
def ringRow (s : State) (walk : List ((Nat × Nat × Nat) × Nat)) (d seq head pos : Nat) (value : Bool) : List (Byte × Bool) :=
  let tpp := 2 ^ (seqNow s seq).tppLog2
  let page := walked walk seq head (pos / tpp)
  let token := pos % tpp
  let first := blockToken token
  match if page = 0 then none else peekHdr s (page - 1) with
  | none => List.replicate (2 * d) (0, true)
  | some h =>
    let desc := pageDesc s 0 (page - 1) h first false 0
    match peekPool s (numDie (page - 1)) (kvRowVa desc (token - first) value) with
    | some pa => (nearReads s pa desc.rowBytes).map (fun b => (b.1, b.2 || !h.valid.testBit token))
    | none => List.replicate desc.rowBytes (0, true)

/-- The rows that a standard plan's source puts into the ring for tile `n` of its group: key rows and value rows of a key tile, or the rows of
the query tile (R85, R222). -/
def ringRows (s : State) (x : Group) (cluster n : Nat) : List (List (Byte × Bool)) :=
  match (cmdOf s x.key).bind (fun c => (c.holds.find? (fun h => h.cluster == cluster)).bind (fun h =>
      (nextStep s c h).map (fun at_ => (c, h, at_)))) with
  | none => []
  | some (c, h, at_) =>
    let p := slotAt s c.key
    let sh := shapeAt p 0x60
    let task := at_.wave.headD 0
    let head := task / splitsOf c.opcode p / tilesAcross c c.opcode p
    if sharesKeys c p at_.wave then
      match (groupItems s c at_)[n]? with
      | none => []
      | some (seq, t) => [false, true].flatMap (fun value =>
          (List.range 128).map (fun i => ringRow s h.walk sh.d seq (head / sh.group) (128 * t + i) value))
    else
      let j := jobOf s c h
      let fcw := fcwAt p 0x68
      (queryRows c p (task / splitsOf c.opcode p % tilesAcross c c.opcode p)).map (fun q =>
        let va := param p 0x08 64 + q.row * param p 0x40 32 + elemBytes (fcwFmt fcw) (head * sh.d)
        match (xlateOwn { die := cluster / 4 } j.asid va 1 s).1 with
        | .ok pa => (physRead { die := cluster / 4 } pa (spanBytes (fcwFmt fcw) sh.d) s).1
        | .error _ => [])

/-- Rows one after another from an address of the ring on. -/
def putRows (s : State) : Nat → List (List (Byte × Bool)) → State
  | _, [] => s
  | a, r :: rest => putRows (putRing s a r) (a + r.length) rest

/-- A broadcast of a standard plan's group: the source fetches its next tile into the ring, and every attached receiver that is not stalled takes
one of those fetched, while no attached receiver's lag would reach 9 (R222, R223). The receivers' elements reach the arrays by the step's own
accesses, with the same words (log 60). -/
def standardBroadcast (s : State) (cluster group : Nat) (x : Group) : State :=
  let fetch := decide (x.fetched < x.tiles) && mayFetch x
  let s := if fetch then putRows s (multicastAddr cluster (groupSlot x x.fetched)) (ringRows s x cluster x.fetched) else s
  let x := { x with fetched := x.fetched + bit fetch }
  let low := leastTaken x
  let ready (r : Receiver) : Bool := r.attached && !receiverStalled s x.key r.core && decide (r.taken < x.fetched)
  let waits := x.receivers.any (fun r => r.attached && !receiverStalled s x.key r.core && r.taken == leaderTaken x &&
    decide (r.taken < x.tiles ∧ r.taken ≥ low + 8))
  let x := { x with receivers := x.receivers.map (fun (r : Receiver) =>
      if ready r && decide (r.taken < low + 8) then { r with taken := r.taken + 1 } else r) }
  bumpStr (settleHolds s cluster group waits x) cluster 0x50 (bit fetch)

/-! ### The group of a loaded plan -/

/-- The receiver that stands at the next tile to be fetched, with that tile as its queue would issue it: the source uses its descriptors
(R222). -/
def sourceTile (s : State) (x : Group) (qi : Nat) : Option (Nat × IssuedTile) :=
  (x.receivers.find? (fun r => r.attached && r.taken == x.fetched && (queueAt s r.core qi).wait == .group)).map (fun r =>
    (r.core, issuedFront (queueAt s r.core qi)))

/-- Whether a waiter is the source of a cluster's group, and no transfer of a receiver's queue. -/
def sourceWaiter (s : State) (k cluster qi : Nat) (w : Waiter) : Bool :=
  w.key == k && w.origin == 0 && w.queue == qi && clusterOf w.core == cluster && !isQueueWaiter s w

/-- Whether the source of a group waits on a fault (R221). -/
def sourceFaulted (s : State) (k cluster qi : Nat) : Bool := (allPendings s).any (fun e => e.2.2.waiters.any (sourceWaiter s k cluster qi))

/-- Whether the source of a group already waits for a page. -/
def sourceWaits (s : State) (k cluster qi die asid va : Nat) : Bool :=
  let mine (w : Waiter) : Bool := sourceWaiter s k cluster qi w && vpageOf w.va == vpageOf va
  ((pendingFor s die asid va).any (fun e => e.2.waiters.any mine)) || ((missFor s die asid va).any (fun e => e.2.waiters.any mine)) ||
    s.xlt.missRegs.any (fun e => mine e.2.2)

/-- The source's translation of an address: a miss leaves a waiter of the command on the cluster, once for a page, merged where the page's fault
is pending already (R221, R246); fenced memory ends the command (R18). -/
def sourceXlate (s : State) (k core qi va : Nat) : Option Nat × State :=
  let die := core / 32
  let asid := cmdAsid s k
  match cachedPa s (some core) die asid va 1 with
  | (some pa, s) => if paFenced s pa then (none, abortOwner s ((cmdOf s k).map (·.key))) else (some pa, s)
  | (none, s) =>
    if sourceWaits s k (clusterOf core) qi die asid va then (none, s)
    else
      let w : Who := { die := die, key := some k, cluster := clusterOf core, origin := 0, core := core, queue := qi }
      let pending := (pendingFor s die asid va).isSome
      let s := missRequest s die asid (waiterOf w va 1)
      (none, if pending then updHold s k (clusterOf core) (fun h => { h with faulted := true }) else s)

/-- Block scales of a tile of a group kept with the ring, by the tile's number (log 38). -/
def keepScales (s : State) (cluster group n : Nat) (x : Transfer) (bs : List (Byte × Bool)) : State :=
  match tget none s.str.groups (4 * cluster + group) with
  | none => s
  | some y => setGroup s cluster group { y with
      scales := ((n, x.row, x.byte), bs) :: y.scales.filter (fun e => e.1 ≠ (n, x.row, x.byte) && decide (e.1.1 + y.slots > n)) }

/-- One transfer of the source read into the ring, a tile's block scales beside it: none while its translation is missing. -/
def sourceTransfer (cluster group core qi slot n : Nat) (k : Nat) (t : IssuedTile) (mem : Nat) (acc : Option State) (x : Transfer) :
    Option State :=
  acc.bind (fun s =>
    if x.lost then some s
    else
      match sourceXlate s k core qi (transferAddress (descOf t.raw) mem x) with
      | (none, _) => none
      | (some pa, s) =>
        let w : Who := { die := core / 32, key := some k, cluster := cluster, origin := 0, core := core, queue := qi }
        let (bs, s) := physRead w pa x.bytes s
        let s := if bs.any (·.2) then notePoison s k else s
        let s := if x.scale then keepScales s cluster group n x bs
          else putRing s (multicastAddr cluster slot + x.row * (descOf t.raw).rowBytes + x.byte) bs
        some (bumpStr s cluster 0x18 x.bytes))

/-- The source's misses of a tile left with the translation unit (R246). -/
def sourceMisses (s : State) (k core qi : Nat) (t : IssuedTile) (mem : Nat) : State :=
  (t.transfers.filter (fun x => !x.lost)).foldl (fun s x => (sourceXlate s k core qi (transferAddress (descOf t.raw) mem x)).2) s

/-- The rows of a tile that lie in unmapped pages, of the queue's list or of the hold's (R220). -/
def lostRows (noMap : List Nat) (t : IssuedTile) (mem : Nat) : List Nat :=
  let d := descOf t.raw
  let n := validBytes d t.loops
  (List.range d.rows).filter (fun r => lostRow t r || rowUnmapped { Queue.reset with noMap := noMap } d mem r n)

/-- The source fetches the group's next tile into its ring slot, whole (R222). A tile declared empty needs no fetch. -/
def groupFetch (s : State) (cluster group : Nat) (x : Group) (qi : Nat) : State :=
  match sourceTile s x qi with
  | none => s
  | some (core, t) =>
    let lists := ((cmdOf s x.key).bind (fun c => c.holds.find? (fun h => h.cluster == cluster))).elim [] (fun h => h.noMap)
    let noMap := (lists.filter (fun e => e.1 % 8 = qi)).flatMap (·.2)
    match t.op with
    | .emit mem _ =>
      let lost := lostRows noMap t mem.toNat
      let t : IssuedTile := { t with transfers := t.transfers.map (fun (y : Transfer) => if lost.contains y.row then { y with lost := true } else y) }
      match t.transfers.foldl (sourceTransfer cluster group core qi (groupSlot x x.fetched) x.fetched x.key t mem.toNat) (some s) with
      | none => sourceMisses s x.key core qi t mem.toNat
      | some s =>
        let scales := (tget none s.str.groups (4 * cluster + group)).elim x.scales (fun y => y.scales)
        bumpStr (setGroup s cluster group { x with
          scales := scales, fetched := x.fetched + 1
          lost := (x.fetched, lost) :: x.lost.filter (fun e => e.1 + x.slots > x.fetched) }) cluster 0x50 1
    | _ => setGroup s cluster group { x with fetched := x.fetched + 1 }

/-- The bytes of a transfer as they stand in the ring. -/
def ringBytes (s : State) (cluster slot : Nat) (t : IssuedTile) (x : Transfer) : List (Byte × Bool) :=
  s.spad.multicast.reads (multicastAddr cluster slot + x.row * (descOf t.raw).rowBytes + x.byte) x.bytes

/-- What a transfer of a receiver's tile writes into the receiver's scratchpad out of the ring. -/
def takeTransfer (cluster core qi : Nat) (x : Group) (r : Receiver) (got t : IssuedTile) (w : Nat) (s : State) (y : Transfer) : State :=
  let d := descOf t.raw
  if y.scale then
    let bs := ((x.scales.find? (fun e => e.1 == (r.taken, y.row, y.byte))).map (·.2)).getD []
    setScales s core (rowWord d w y.row) y.byte bs
  else
    storeLoaded (addBeat s core qi true (transferWords d w y)) core got w y (ringBytes s cluster (groupSlot x r.taken) t y)

/-- An attached receiver takes its next tile out of the ring: written into its buffer and delivered; whether it was (R222). A tagged write that a
slot tag blocks leaves the tile in the ring, its stall timer running (R169, R170). -/
def takeTile (s : State) (cluster : Nat) (x : Group) (qi : Nat) (r : Receiver) : State × Bool :=
  let q := queueAt s r.core qi
  if q.wait ≠ .group ∨ q.state ≠ .running ∨ q.tagWait.isSome then (s, false)
  else
    let t := issuedFront q
    let word := bufferOf (streamImage s q) qi t
    let lost := ((x.lost.find? (fun e => e.1 == r.taken)).map (·.2)).getD []
    match tagBlock s r.core t (bufferWords (descOf t.raw) word) with
    | some g => (blockOn s r.core qi g true, false)
    | none =>
      let got := { t with transfers := t.transfers.map (fun (y : Transfer) =>
          if lost.contains y.row then { y with done := true, lost := true, marks := none } else { y with done := true, sent := true }) }
      let s := match t.op with
        | .emit _ w => (got.transfers.filter (fun (y : Transfer) => !y.lost)).foldl (takeTransfer cluster r.core qi x r got t w) s
        | _ => s
      let q := queueAt s r.core qi
      (goOn (setQueue s r.core qi (pastTile s r.core qi { q with issued := q.issued ++ [got], wait := .none } true)) r.core qi, true)

/-- Receiver `i` of a group takes its next tile if one is in the ring and no attached receiver's lag would reach 9 (R223). -/
def tryTake (cluster group qi low : Nat) (s : State) (i : Nat) : State :=
  match tget none s.str.groups (4 * cluster + group) with
  | none => s
  | some x =>
    match x.receivers[i]? with
    | none => s
    | some r =>
      if r.attached ∧ r.taken < x.fetched ∧ r.taken < low + 8 then
        match takeTile s cluster x qi r with
        | (s, false) => s
        | (s, true) => (tget none s.str.groups (4 * cluster + group)).elim s (fun x =>
            setGroup s cluster group { x with receivers := x.receivers.set i { r with taken := r.taken + 1 } })
      else s

/-- A broadcast of a loaded plan's group: the source fetches its next tile, and every attached receiver takes one of those in the ring (R222,
R223). The leader waits where its next tile is in the ring or the ring is full. While the source waits on a fault the group stalls and no
timer runs (R221, R223). -/
def planBroadcast (s : State) (cluster group qi : Nat) (x : Group) : State :=
  let s := if mayFetch x ∧ !sourceFaulted s x.key cluster qi then groupFetch s cluster group x qi else s
  match tget none s.str.groups (4 * cluster + group) with
  | none => s
  | some x =>
    if sourceFaulted s x.key cluster qi then
      setGroup s cluster group { x with receivers := x.receivers.map (fun r => { r with holdSince := none, budget := 0 }) }
    else
      let low := leastTaken x
      let waits := x.receivers.any (fun r => r.attached && r.taken == leaderTaken x && decide (r.taken ≥ low + 8) &&
        (decide (r.taken < x.fetched) || decide (x.fetched ≥ low + x.slots)) && (queueAt s r.core qi).wait == .group)
      let s := (List.range x.receivers.length).foldl (tryTake cluster group qi low) s
      match tget none s.str.groups (4 * cluster + group) with
      | none => s
      | some x => settleHolds s cluster group waits x

/-- MULTICAST_BROADCAST of a group of a cluster (R222). -/
def multicastBroadcast (s : State) (cluster group : Nat) : State :=
  match tget none s.str.groups (4 * cluster + group) with
  | none => s
  | some x => match x.queue with
    | none => standardBroadcast s cluster group x
    | some qi => planBroadcast s cluster group qi x

/-! ### Detach (R224) -/

/-- The 40 bytes of a MULTICAST_DETACH record (R381). -/
def detachBytes (s : State) (k cluster group : Nat) (r : Receiver) : List Byte :=
  natBytes 1 (portCode (portOf k)) ++ natBytes 1 (slotNumber k) ++ natBytes 1 (slotSeq s k) ++ natBytes 1 cluster ++ natBytes 1 group ++
    natBytes 1 0 ++ natBytes 2 r.split ++ natBytes 8 r.taken

/-- A detached receiver's queue goes on by unicast from its own next tile (R224). -/
def goUnicast (s : State) (x : Group) (r : Receiver) : State :=
  match x.queue with
  | none => s
  | some qi =>
    let q := queueAt s r.core qi
    if q.wait = .group then runAhead (setQueue s r.core qi { q with wait := .none }) r.core qi else s

/-- MULTICAST_DETACH: a receiver whose hold timer has reached STR_DETACH_BUDGET leaves the group (R224). -/
def multicastDetach (s : State) (cluster group receiver : Nat) : State :=
  match tget none s.str.groups (4 * cluster + group) with
  | none => s
  | some x =>
    match x.receivers[receiver]? with
    | none => s
    | some r =>
      let due := r.attached && r.holdSince.any (fun t => decide (s.now ≥ t + r.budget))
      if !due then s
      else
        let rs := x.receivers.set receiver { r with attached := false, holdSince := none, budget := 0 }
        let x' := holdTimers s false { x with receivers := rs }
        let s := logAdd s 0x0002 (0xC040 + cluster) 0 (detachBytes s x.key cluster group r)
        let s := { s with
          str := { s.str with groups := tset none s.str.groups (4 * cluster + group) (some x') }
          pwr := { s.pwr with detachTimes := tset [] s.pwr.detachTimes cluster ((s.now :: tget [] s.pwr.detachTimes cluster).take 5) } }
        goUnicast (countHolds (bumpStr s cluster 0x60 1) cluster (holdsEnded x x')) x' r

end Sys2Proof.Machine
end

