-- ==== Sys2Proof/Machine/Placement.lean ====
section
/-! DEFINITION. Placement and preemption, and the life of a plan step: its start, its commit, the drain, the combine tree, waits of its walk
and array errors (spec/13_scheduling.md R338 to R344, spec/14_firmware.md R366 to R368, spec/08_streams.md R208, spec/05_kv_pages.md R119,
R125, spec/03_score_array.md R65, spec/04_attention_dataflow.md R87). -/
namespace Sys2Proof.Machine

/-! ### Keys (R338, R341) -/

/-- The opcodes that the scheduler places (R338). -/
def needsPlace (op : Nat) : Bool := isCompute op || op == 0x0401 || op == 0x0402 || op == 0x0502

/-- Whether a command waits for the scheduler: not yet placed, or preempted somewhere. -/
def waitsPlace (c : Cmd) : Bool :=
  needsPlace c.opcode && (c.stage == .queued || c.stage == .preempted || c.holds.any (fun h => h.paused))

/-- Whether the key of a batch command is raised: it waits, or was raised while it waited, and the batch share is below its floor (R341). -/
def keyRaised (s : State) (c : Cmd) : Bool := batchShort s && (c.raised || waitsPlace c)

/-- The raised keys as they stand now: a key stays raised until the share is restored (R341). -/
def noteRaised (s : State) : State := { s with cmds := s.cmds.map (fun c => { c with raised := schedClass s c == 2 && keyRaised s c }) }

/-- A command's key with its admission order; a raised batch command's is that of class 1 (R338, R341). -/
def cmdRank (s : State) (c : Cmd) : Nat × Nat × Nat :=
  match schedClass s c with
  | 0 => (0, (deadlineTicks (slotAt s c.key)).getD 0, c.order)
  | 1 => (1, 0, c.order)
  | _ => (if keyRaised s c then 1 else 2, 0, c.order)

/-- The order of keys. -/
def rankLt (a b : Nat × Nat × Nat) : Bool :=
  decide (a.1 < b.1) || (a.1 == b.1 && (decide (a.2.1 < b.2.1) || (a.2.1 == b.2.1 && decide (a.2.2 < b.2.2))))

/-- A command put into a list ordered by key. -/
def insertRank (s : State) (c : Cmd) : List Cmd → List Cmd
  | [] => [c]
  | d :: r => if rankLt (cmdRank s c) (cmdRank s d) then c :: d :: r else d :: insertRank s c r

/-- The commands that wait for the scheduler, lowest key first. -/
def placeQueue (s : State) : List Cmd := (s.cmds.filter waitsPlace).foldl (fun l c => insertRank s c l) []

/-! ### Clusters (R188, R208, R390) -/

/-- Whether a hold's plan step is between its start and its DRAINED record. -/
def midStep (h : Hold) : Bool := h.unit.isSome || h.recState == 1 || h.recState == 3

/-- Whether a hold has yielded: preempted, its plan step committed, a replay's too (R339, R375). -/
def yielded (h : Hold) : Bool := h.paused && !midStep h && !h.replaying

/-- Whether a cluster takes work: powered, not fenced, its clock not stopped, its control core running. -/
def clusterUsable (s : State) (g : Nat) : Bool :=
  (clusterPower s g).powered && !clusterFenced s g && !(clusterPower s g).stopped && procRunning s (3 + g)

/-- Whether a command runs on a cluster, or a preempted one has not yet reached its commit there (R339). -/
def clusterBusy (s : State) (g : Nat) : Bool := s.cmds.any (fun c => c.holds.any (fun h => h.cluster == g && !yielded h))

/-- Whether a footprint meets nothing held on the cores of a cluster (R188). -/
def footFree (s : State) (g : Nat) (f : Footprint) : Bool :=
  (List.range 8).all (fun i => !(heldFoots s (8 * g + i)).any (fun e => footsMeet e.2 f))

/-- The lane a command would take on a cluster; 0 for a loaded plan whose footprint is free; none when it cannot be placed there (R188,
R208). -/
def laneFor (s : State) (c : Cmd) (g : Nat) : Option Nat :=
  let id := cmdPlan s c
  if (holders s g).length ≥ 4 then none
  else if id = 0 then (List.range 4).find? (fun n => footFree s g (laneFoot n))
  else if footFree s g (imageFoot (planBytesOf s id)) then some 0 else none

/-- Whether a cluster could take a command beside what is placed there. -/
def couldTake (s : State) (c : Cmd) (g : Nat) : Bool := clusterUsable s g && (laneFor s c g).isSome

/-! ### Step records (R366, R367) -/

/-- A directory entry (R367). -/
def dirEntry (t : Staged) (off : Nat) : List Byte :=
  natBytes 8 (t.dest % 2 ^ 52) ++ natBytes 4 t.stride ++ natBytes 2 (t.rows.headD []).length ++ natBytes 2 t.rows.length ++
    natBytes 4 off ++ natBytes 1 (t.kind % 4) ++ natBytes 1 t.asid ++ natBytes 1 t.ctr ++ natBytes 9 0

/-- The directory of a step's staged tiles, laid one after another in step staging. -/
def directory : Nat → List Staged → List Byte
  | _, [] => []
  | off, t :: r => dirEntry t off ++ directory (off + stagedSize t) r

/-- Plan steps committed on a cluster as a record in a state says: a STAGED record counts the step that it commits (R367). -/
def recordSteps (h : Hold) (st : Nat) : Nat := h.steps + h.extra + bit (st == 1)

/-- The bytes of a step record (R367). -/
def stepRecord (s : State) (c : Cmd) (h : Hold) (staged : List Staged) (seq st : Nat) : List Byte :=
  let k := c.key
  let head := natBytes 8 seq ++ natBytes 2 c.opcode ++ natBytes 1 (portCode (portOf k)) ++ natBytes 1 (slotNumber k) ++
    natBytes 1 (slotSeq s k) ++ natBytes 1 (c.cfgEpoch.getD 0).toNat ++ natBytes 1 c.startEpoch.toNat ++ natBytes 1 h.cluster ++
    natBytes 4 (recordSteps h st) ++ natBytes 1 st ++ natBytes 1 1 ++ natBytes 2 (cmdPlan s c) ++ natBytes 4 h.pins.length ++
    natBytes 2 staged.length ++ natBytes 2 0 ++ natBytes 4 (staged.map stagedSize).sum ++ natBytes 4 0 ++
    natBytes 8 c.admittedAt ++ natBytes 16 0
  let tags := (List.range 8).flatMap (fun i => natBytes 256 (tagsOf s (8 * h.cluster + i)).toNat)
  let sems := (List.range 8).flatMap (fun i =>
    (List.range 16).flatMap (fun n => natBytes 8 (semWord (semAt s (8 * h.cluster + i) n)).toNat))
  let dir := directory 0 staged
  head ++ tags ++ sems ++ dir ++ List.replicate (32768 - dir.length) 0 ++ natBytes 8 seq

/-- The next copy of a hold's step record written, into the copy that its ckpt_seq selects (R366). -/
def writeRecord (s : State) (k g st : Nat) : State :=
  match cmdOf s k, holdOf s k g with
  | some c, some h =>
    let seq := h.ckptSeq + 1
    let bs := stepRecord s c h h.staged seq st
    let s := physWrite { die := g / 4, key := some k, cluster := g } (recordAddr g h.rslot (seq % 2)) bs false s
    updHold s k g (fun h => { h with ckptSeq := seq, recState := st })
  | _, _ => s

/-! ### Placing (R338, R345) -/

/-- The lowest record slot that no command on a cluster uses (R366). -/
def freeRecord (s : State) (g : Nat) : Nat :=
  let used := (holders s g).flatMap (fun c => (c.holds.filter (fun h => h.cluster == g)).map (fun h => h.rslot))
  ((List.range 4).find? (fun r => !used.contains r)).getD 0

/-- A command's new hold on a cluster; its record slot's numbering goes on. -/
def newHold (s : State) (c : Cmd) (g : Nat) : Hold where
  cluster := g
  paused := false
  rslot := freeRecord s g
  lane := (laneFor s c g).getD 0
  unit := none
  staged := []
  recState := 0
  ckptSeq := max (copySeq s g (freeRecord s g) 0) (copySeq s g (freeRecord s g) 1)
  steps := 0
  pins := []
  walk := []
  locked := none
  faulted := false
  noMap := []
  noMapRec := []
  parityErrors := 0
  nodes := []
  conflict := false
  slots := []
  streamed := []
  saved := []
  cores := []
  emptied := []
  ran := []
  running := []
  extra := 0
  replaying := false

/-- A command placed for the first time: it takes the newest configuration epoch (R345). -/
def firstPlaced (s : State) (k : Nat) : State :=
  updCmd s k (fun c => { c with
    stage := .running, placedAt := some s.now, cfgEpoch := some s.cfg.epoch, preempting := c.preempting && c.stop.isSome })

/-- A loaded plan's tags and semaphore pairs set on the cores of a cluster when its command starts there (R173, R205). -/
def startMarks (s : State) (c : Cmd) (g : Nat) : State :=
  let id := cmdPlan s c
  if id = 0 then s
  else
    let img := planBytesOf s id
    (List.range 8).foldl (fun s i => startSems (startTags s (8 * g + i) img) (8 * g + i) img) s

/-- A compute command placed on clusters: its plan steps are counted, and each cluster's record slot holds an IDLE record with the tags
and pairs it starts from (log 32). -/
def placeOn (s : State) (c : Cmd) (gs : List Nat) : State :=
  let holds := gs.map (newHold s c)
  let s := firstPlaced s c.key
  let s := updCmd s c.key (fun c => { c with holds := holds, stepsPlanned := plannedSteps s { c with holds := holds } })
  gs.foldl (fun s g => writeRecord (startMarks (ungate s g) c g) c.key g 0) s

/-- The command of a list with the highest key. -/
def highestKey (s : State) (l : List Cmd) : Option Cmd :=
  l.foldl (fun (b : Option Cmd) v => match b with
    | none => some v
    | some w => if rankLt (cmdRank s w) (cmdRank s v) then some v else some w) none

/-- The running command to preempt for a waiting one: that with the highest key above its own which has a cluster that could take it
(R339), with those clusters. -/
def victimOf (held : List Nat) (s : State) (c : Cmd) : Option (Cmd × List Nat) :=
  let own (v : Cmd) : List Nat :=
    (v.holds.filter (fun h => !h.paused && !held.contains h.cluster && couldTake s c h.cluster)).map (fun h => h.cluster)
  let cands := s.cmds.filter (fun v => v.key ≠ c.key && isCompute v.opcode && rankLt (cmdRank s c) (cmdRank s v) && !(own v).isEmpty)
  (highestKey s cands).map (fun v => (v, own v))

/-- A command preempted on clusters: it runs its plan steps there to their commits and starts none (R339). -/
def pauseOn (s : State) (k : Nat) (gs : List Nat) : State :=
  updCmd s k (fun c =>
    let holds := c.holds.map (fun h => if gs.contains h.cluster then { h with paused := true } else h)
    { c with holds := holds, stage := if holds.all yielded then .preempted else c.stage })

/-- A running command all of whose clusters have yielded, each after the commit of its plan step, is preempted (R339). -/
def noteYield (s : State) (k : Nat) : State :=
  updCmd s k (fun c =>
    if c.stage = .running ∧ !c.holds.isEmpty ∧ c.holds.all yielded then { c with stage := .preempted } else c)

/-- A wake asked for the clusters of a list that sleep (R394); none when it has been asked already. -/
def askWake (s : State) (gs : List Nat) : Option State :=
  let want : BitVec 32 := gs.foldl (fun m g => m ||| (1#32 <<< g)) 0
  if s.pwr.waking &&& want = want then none else some (beginWake s want false)

/-- The clusters that could take a compute command for the first time and that no command before it waits for. -/
def openClusters (held : List Nat) (s : State) (c : Cmd) : List Nat :=
  (List.range 32).filter (fun g => !held.contains g && couldTake s c g)

/-- The clusters of a list on which nothing runs. -/
def freeClusters (s : State) (gs : List Nat) : List Nat := gs.filter (fun g => !clusterBusy s g)

/-- Whether a preempted command runs its plan step to its commit on a cluster (R339). -/
def leaving (s : State) (g : Nat) : Bool := s.cmds.any (fun v => v.holds.any (fun h => h.cluster == g && h.paused && !yielded h))

/-- A compute command's first placement: on the lowest free clusters that could take it, one at most for each octet of its plan; where none
is free, preemption (R338, R339). -/
def placeNew (held : List Nat) (s : State) (c : Cmd) : Option State :=
  let take := openClusters held s c
  let free := freeClusters s take
  let n := max 1 (octets s c).length
  let gs := free.take n
  let asleep := gs.filter (clusterAsleep s)
  if take.any (leaving s) ∧ free.length < n then none
  else if gs.isEmpty then (victimOf held s c).map (fun v =>
    updCmd (pauseOn s v.1.key (v.2.take n)) c.key (fun c => { c with preempting := true }))
  else if !asleep.isEmpty then askWake s asleep
  else some (placeOn s c gs)

/-- The clusters that a command keeps from those after it while it waits for a wake or for a preempted command to leave: what it will take
(R338). -/
def waitsFor (held : List Nat) (s : State) (c : Cmd) : List Nat :=
  if !isCompute c.opcode ∨ c.placedAt.isSome then []
  else
    let take := openClusters held s c
    let n := max 1 (octets s c).length
    (take.filter (fun g => !clusterBusy s g || leaving s g)).take n

/-- A preempted command resumes on those of its clusters that run nothing; else the command with the highest key above its own on them is
preempted (R339). -/
def placeAgain (held : List Nat) (s : State) (c : Cmd) : Option State :=
  let mine := (c.holds.filter (fun h => yielded h && !held.contains h.cluster && clusterUsable s h.cluster)).map (fun h => h.cluster)
  let free := freeClusters s mine
  if !free.isEmpty then
    some (updCmd s c.key (fun c => { c with
      stage := .running, holds := c.holds.map (fun h => if free.contains h.cluster then { h with paused := false } else h) }))
  else
    let above := s.cmds.filter (fun v => rankLt (cmdRank s c) (cmdRank s v) && v.holds.any (fun h => !h.paused && mine.contains h.cluster))
    (highestKey s above).map (fun v => pauseOn s v.key mine)

/-- UPD_STEP occupies the update units (R338): it starts when none runs, or preempts one with a higher key at the row boundary (R278). -/
def placeUpdate (s : State) (c : Cmd) : Option State :=
  let go (s : State) : State :=
    startUpdate (if c.placedAt.isNone then firstPlaced s c.key else updCmd s c.key (fun c => { c with stage := .running })) c.key
  if !dieCommonOn s then (if s.pwr.wakeDevice then none else some (beginWake s 0 false))
  else match s.cmds.find? (fun v => v.opcode == 0x0502 && v.stage == .running) with
    | none => some (go s)
    | some v =>
      if rankLt (cmdRank s c) (cmdRank s v) then some (go (updCmd (preemptUpdate s v.key) v.key (fun c => { c with stage := .preempted })))
      else none

/-- A standalone stream starts where its footprint meets nothing (R188, R214, R215). -/
def placeStream (held : List Nat) (s : State) (c : Cmd) : Option State :=
  let p := slotAt s c.key
  let core := (if c.opcode = 0x0401 then armTarget p else handleTarget (param p 0 64)).1
  let g := clusterOf core
  if held.contains g ∨ !clusterUsable s g ∨ (c.opcode = 0x0401 ∧ !armFits s c.key) then none
  else if clusterAsleep s g then askWake s [g]
  else
    let s := ungate (firstPlaced s c.key) g
    some (if c.opcode = 0x0401 then armStream s c.key else rearmStream s c.key)

/-- What the scheduler can do now for one waiting command, on clusters that none before it waits for. A drain holds new placements back (R348),
the lease and the session hold every one (R335, R351); a stopped command is placed only to stop at its first boundary (R355). -/
def placeOne (held : List Nat) (s : State) (c : Cmd) : Option State :=
  if stepsHeld s c.key ∨ (c.stop.isSome ∧ !c.preempting) then none
  else if c.placedAt.isNone ∧ s.dev ≠ .ready then none
  else match c.opcode with
    | 0x0401 => if c.placedAt.isNone then placeStream held s c else none
    | 0x0402 => if c.placedAt.isNone then placeStream held s c else none
    | 0x0502 => placeUpdate s c
    | _ => if c.placedAt.isNone then placeNew held s c else placeAgain held s c

/-- The first command of a list for which the scheduler can act; those before it keep the clusters they wait for (R338). -/
def placeFirst (s : State) : List Nat → List Cmd → Option State
  | _, [] => none
  | held, c :: rest =>
    match placeOne held s c with
    | some t => some t
    | none => placeFirst s (held ++ waitsFor held s c) rest

/-- COMMAND_PLACE: the scheduler core acts for the first waiting command, in the order of keys, for which it can (R338, R339). -/
def commandPlace (s : State) : State :=
  if !procRunning s 2 ∨ (s.dev ≠ .ready ∧ s.dev ≠ .draining) then s
  else (placeFirst s [] (placeQueue s)).getD s

/-! ### Faults and aborts of a plan step -/

/-- A plan step's access faults: the transfer, or the control core's own access, waits for the answer (R218, R249, R250). -/
def holdFault (s : State) (k g : Nat) (f : XFault) : State :=
  let w : Waiter := ⟨f.origin, k, g, f.core, f.queue, 0, 0, f.va, f.access⟩
  waitFault (updHold s k g (fun h => { h with faulted := true })) f w

/-- An action of a plan step: an abort ends the command; a fault, and a write to host memory that is held (R351), wait with nothing done; any
other wait keeps what was done. The outputs that an aborted command had not committed are undefined (R44): the model leaves memory there as
it stood (DESIGN CHOICE, log 56). -/
def stepAct (s : State) (k g : Nat) (a : Act Unit) : State :=
  match a.run s with
  | .ok _ s' => s'
  | .error (.abort code) s' => abortCmd (clearArrays s' g) k code
  | .error (.fault f) _ => holdFault s k g f
  | .error (.park .waitHost) _ => s
  | .error _ s' => s'

/-! ### Combine slots (R87) -/

/-- The partials that a plan step sends to combine units, by task, each with the cluster of the unit: a split's partial goes to the unit that
forms the node of its pair, in the cluster that holds the partial of the pair's lower split (R87). The dQ sums of ATTN_BWD grow where their
split computes and take no slot (R96; DESIGN CHOICE, log 57). -/
def partialsSent (s : State) (c : Cmd) (x : StepAt) : List (Nat × Nat) :=
  let p := slotAt s c.key
  let s' := splitsOf c.opcode p
  let vs := stepVisits s c x.octet x.visit
  if c.opcode = 0x0302 ∨ s' = 1 ∨ isFinish s c x then []
  else (x.wave.filter (fun t => decide (taskVisits s c c.opcode p t > 0) && vs.contains (taskVisits s c c.opcode p t - 1))).filterMap
    (fun t => (partialCluster s c (t - t % s' % 2)).map (fun g => (t, g)))

/-- The slots that a plan step reserves, counted by cluster (R87). -/
def slotNeeds (s : State) (c : Cmd) (x : StepAt) : Table Nat :=
  (partialsSent s c x).foldl (fun m e => tset 0 m e.2 (tget 0 m e.2 + 1)) []

/-- Partial slots of a cluster's combine unit that are not free: those that the plan steps under way have reserved, and those in which a partial
stands until the node of its pair is formed. The rule does not say when a slot becomes free (DESIGN CHOICE, log 57). -/
def slotsTaken (s : State) (g : Nat) : Nat :=
  (s.cmds.map (fun c => (c.holds.map (fun h => tget 0 h.slots g)).sum + (c.slotted.filter (fun e => e.2 == g)).length)).sum

/-- Whether the reservations of a plan step can be met: a combine unit has eight partial slots (R87). -/
def slotsFree (s : State) (c : Cmd) (x : StepAt) : Bool :=
  (slotNeeds s c x).all (fun e => decide (e.2 + slotsTaken s e.1 ≤ 8))

/-! ### PLAN_STEP_START (R115, R338, R339, R366) -/

/-- The command that runs on a cluster, with its hold; a preempted one whose replay has not committed runs on (R375). -/
def runningOn (s : State) (g : Nat) : Option (Cmd × Hold) :=
  s.cmds.findSome? (fun c => if isCompute c.opcode then (c.holds.find? (fun h => h.cluster == g && !yielded h)).map (fun h => (c, h)) else none)

/-- Whether the walk of a hold waits for an allocation or a restoration. -/
def walkWaits (s : State) (k g : Nat) : Bool :=
  stillWaits s k g || s.pgk.restores.any (fun r => r.key == k && r.cluster == g)

/-- Whether a command told to stop has a first plan step to run before it does (R355). -/
def firstStepDue (c : Cmd) : Bool := c.preempting && c.steps == 0

/-- Whether a hold may start a plan step now: its cluster takes work, nothing holds the command's steps, and the step before has drained. -/
def mayStart (s : State) (c : Cmd) (h : Hold) : Bool :=
  clusterUsable s h.cluster && !clusterAsleep s h.cluster && procRunning s 2 && (s.dev == .ready || s.dev == .draining) &&
    !stepsHeld s c.key && (c.stop.isNone || firstStepDue c) && !(h.paused && !h.replaying) && !midStep h && !h.faulted &&
    !walkWaits s c.key h.cluster

/-- The walk of a plan step and its pins; the step is then under way (R111, R115, R118). -/
def beginStep (c : Cmd) (h : Hold) (x : StepAt) : Act Unit := do
  let s ← get
  let w : Who := { die := h.cluster / 4, key := some c.key, cluster := h.cluster }
  let need := stepPages s c x
  let walk ← walkAll w c.key (layerOf c.opcode (slotAt s c.key)) need.1 need.2
  modify (fun s => dropWaits s (fun a => a.key == c.key && a.cluster == h.cluster && a.restore.isNone))
  modify (fun s => updHold s c.key h.cluster (fun h => { h with
    unit := some h.steps, walk := walk, slots := slotNeeds s c x, streamed := [], cores := (taskCores s h.cluster x).map (·.1) }))
  modify (fun s => beginQueues (formGroups s c h.cluster x) c h x)

/-- PLAN_STEP_START on a cluster: its running command's next plan step, once what it needs has committed (R86, R300, R301). -/
def planStepStart (s : State) (g : Nat) : State :=
  match runningOn s g with
  | none => s
  | some (c, h) =>
    if !mayStart s c h then s
    else match nextStep s c h with
      | none => s
      | some x =>
        if (finishesTiles s c x && !finishReady s c x) || !treesReady s c x || !ringReady s c x || !slotsFree s c x || !queuesFree s c g x then s
        else stepAct (ungate s g) c.key g (beginStep c h x)

/-! ### PLAN_STEP_COMMIT (R366) -/

/-- The command whose plan step is under way on a cluster, with its hold. -/
def steppingOn (s : State) (g : Nat) : Option (Cmd × Hold) :=
  s.cmds.findSome? (fun c => (c.holds.find? (fun h => h.cluster == g && h.unit.isSome)).map (fun h => (c, h)))

/-- A committed plan step counted when it ran over the limit of R340, which those of the standard plans never do; whether one of a loaded
plan did is a free value (R349; log 60). -/
def noteExcess (s : State) (c : Cmd) : State :=
  if cmdPlan s c = 0 then s
  else
    let (v, s) := freshWord s
    { s with cfg := { s.cfg with overLimit := min (s.cfg.overLimit + v.toNat % 2) 0xFFFF } }

/-- The rows of a staged tile one after another in step staging, from an address on. -/
def stageRows (w : Who) (s : State) : Nat → List (List (Byte × Bool)) → State
  | _, [] => s
  | a, r :: rest => stageRows w ((poisonRuns 0 r).foldl (fun s e => physWrite w (a + e.1) e.2.1 e.2.2 s) s) (a + r.length) rest

/-- Staged tiles one after another in the cluster's step staging (R359, R366). -/
def stageTiles (w : Who) (s : State) : Nat → List Staged → State
  | _, [] => s
  | a, t :: rest => stageTiles w (stageRows w s a t.rows) (a + stagedSize t) rest

/-- Rows as step staging gives them back: a fenced stack has discarded what it was given, and gives poison (R414). -/
def rowsBack (s : State) : Nat → List (List (Byte × Bool)) → List (List (Byte × Bool))
  | _, [] => []
  | a, r :: rest => r.mapIdx (fun i b => (b.1, b.2 || !(fencedStacks s (a + i) 1).isEmpty)) :: rowsBack s (a + r.length) rest

/-- Staged tiles as their step staging gives them back (R414). -/
def stagedBack (s : State) : Nat → List Staged → List Staged
  | _, [] => []
  | a, t :: rest => { t with rows := rowsBack s a t.rows } :: stagedBack s (a + stagedSize t) rest

/-- The step staging of a cluster (R359). -/
def stagingAddr (g : Nat) : Nat := fwBase (g / 4) + g % 4 * 0x400000

/-- What a plan step leaves in the words of its cores: the rows of the KV store descriptors it stages, and under a standard plan the running
state of its tasks, which it writes back (R60, R196, R208). -/
def layResults (s : State) (c : Cmd) (g : Nat) (x : StepAt) (staged : List Staged) (parts : Table (List RowAcc)) : State :=
  let cores := taskCores s g x
  let home := (cores.map (·.1)).headD (8 * g)
  let s := (staged.filter (fun t => t.kind == 1)).foldl (fun s t =>
    layBytes s c.key home (placeWord s c.key home [3, t.dest]) t.rows.flatten []) s
  if cmdPlan s c ≠ 0 then s
  else cores.foldl (fun s e =>
    let rows := (tget [] parts e.2).flatMap (fun r => bytesF32 ((r.m, r.bad) :: (r.l, r.bad) :: r.o))
    layBytes s c.key e.1 (placeWord s c.key e.1 [2, e.2]) rows []) s

/-- What the plan step computes, staged; more than 4 MiB or 1,024 tiles end the command (R366). -/
def stageStep (c : Cmd) (h : Hold) (x : StepAt) : Act Unit := do
  let s ← get
  let g := h.cluster
  let e : Env := ⟨jobOf s c h, c, h.walk, x.octet.round⟩
  let stores := ringMode s c ≠ 2 || groupPos s c == 0
  let visits := if isFinish s c x then [] else stepVisits s c x.octet x.visit
  let out ← runStep e x visits (finishesTiles s c x) stores (allNodes c)
  let staged := out.staged ++ h.streamed
  let staged := if s.ras.fenced.isEmpty then staged else stagedBack s (stagingAddr g) staged
  let bytes := (staged.map stagedSize).sum
  if bytes > 4 * 2 ^ 20 ∨ staged.length > 1024 then
    reportAct { cause := 0x21, source := 0x8003 + g, key := some c.key, cluster := g, info0 := bytes, info1 := staged.length }
    abortWith 0x20
  if staged.any stagedPoison then
    modify (fun s => markPoison s c.key)
  let done := if finishesTiles s c x then x.octet.finish else []
  let s' := splitsOf c.opcode (slotAt s c.key)
  let sent := partialsSent s c x
  modify (fun s => layResults (stageTiles ⟨g / 4, some c.key, g, 3, 0, 0xFF, 0, 0, 0xC020⟩ s (stagingAddr g) staged) c g x staged out.parts)
  modify (fun s => updCmd s c.key (fun c => { c with
    parts := out.parts, backs := out.backs, maskedRows := c.maskedRows + out.masked, holds := c.holds.map (dropNodes done)
    slotted := (c.slotted ++ sent).filter (fun e => !done.contains (e.1 / s')) }))
  modify (fun s => updHold s c.key g (fun h => { h with
    unit := none, staged := staged, walk := [], slots := [], parityErrors := 0, replaying := false
    running := if isFinish s c x ∨ x.last then [] else x.wave }))
  modify (fun s => writeRecord (endQueues (endGroups (noteExcess s c) g) c g x) c.key g 1)

/-- PLAN_STEP_COMMIT on a cluster: the step record STAGED, and the drain issued (R366). -/
def planStepCommit (s : State) (g : Nat) : State :=
  match steppingOn s g with
  | none => s
  | some (c, h) =>
    if h.faulted ∨ !clusterUsable s g ∨ clusterAsleep s g then s
    else match nextStep s c h with
      | none => s
      | some x => if queuesReady s c g x then stepAct s c.key g (stageStep c h x) else s

/-! ### DRAIN_DONE (R366, R342) -/

/-- Every staged tile moved to its destination. -/
def drainAll (j : Job) : List Staged → Act Unit
  | [] => pure ()
  | t :: r => do
    drainTile j t
    drainAll j r

/-- PROJ with KV_APPEND raises the sequence's length (R118). -/
def raiseLength (s : State) (c : Cmd) : State :=
  let p := slotAt s c.key
  if c.opcode ≠ 0x0303 ∨ !paramBit p 0x56 0 then s
  else
    let seq := param p 0x44 16
    let q := seqNow s seq
    runQuiet (writeSeq { die := q.homeDie, key := some c.key } seq { q with length := max q.length (param p 0x3C 26 + param p 0x38 32) }) s

/-- A command whose plan steps have all committed and whose links are done completes; ATTN_FWD reports its fully masked rows (R98). -/
def settleCompute (s : State) (k : Nat) : State :=
  match cmdOf s k with
  | none => s
  | some c =>
    if !isCompute c.opcode ∨ c.holds.isEmpty ∨ c.holds.any (fun h => midStep h || (nextStep s c h).isSome) ∨ !ringDone s c then s
    else
      let s := raiseLength s c
      finishCmd s k { result := if c.opcode = 0x0301 then BitVec.ofNat 64 c.maskedRows else 0 }

/-- A command told to stop ends once every cluster has reached its boundary, one that is late by its own preemption after its first plan step
(R344, R355). -/
def stopAtBoundary (s : State) (k : Nat) : State :=
  match cmdOf s k with
  | none => s
  | some c => match c.stop with
    | some code => if c.holds.any midStep ∨ (firstStepDue c ∧ c.placedAt.isSome) ∨ c.placedAt.isNone then s else abortCmd s k code
    | none => s

/-- Whether the scheduler core is down: crashed, restarting, frozen or fenced (R370). -/
def schedulerDown (s : State) : Bool := (procOf s 2).state ≠ .running && (procOf s 2).state ≠ .reset

/-- The scheduler's part of a commit: it sees the steps committed, checks the deadline, keeps the interim status, and ends a command that stops
or has done its work (R311, R342, R344). While the scheduler core is down it waits (R370, R375). -/
def boundaryCheck (s : State) (k : Nat) : State :=
  match cmdOf s k with
  | none => s
  | some c =>
    if schedulerDown s then s
    else
      let s := if c.reported = c.steps then s
        else refreshInterim (slackCheck (updCmd s k (fun c => { c with reported := c.steps })) k) k
      settleCompute (stopAtBoundary s k) k

/-- A committed step counted on its cluster: as a step of its octet once every task of the visit has run, as one more otherwise (R340). -/
def countStep (h : Hold) : Hold :=
  if h.running.isEmpty then { h with steps := h.steps + 1, ran := [] }
  else { h with ran := h.ran ++ h.running, running := [], extra := h.extra + 1 }

/-- The control core finds drain-done set: it counts the step and writes DRAINED, and the scheduler checks the command (R311, R342, R366). -/
def finishDrain (s : State) (k g : Nat) : State :=
  let more := (holdOf s k g).any (fun h => !h.running.isEmpty)
  let s := updHold s k g countStep
  let s := writeRecord s k g 2
  let s := updCmd s k (fun c => { c with steps := c.steps + 1, stepsPlanned := c.stepsPlanned + bit more })
  boundaryCheck (noteYield s k) k

/-- A control core that runs again finds the drains that ended while it was down (R369, R375). -/
def finishDrains (s : State) : State :=
  s.cmds.foldl (fun s c => c.holds.foldl (fun s h =>
    if (holdOf s c.key h.cluster).any (fun h => h.recState == 3) ∧ procRunning s (3 + h.cluster) then finishDrain s c.key h.cluster else s) s) s

/-- Every placed compute command and update step checked by the scheduler (R342). -/
def boundaryChecks (s : State) : State :=
  (s.cmds.filter (fun c => (isCompute c.opcode || c.opcode == 0x0502) && c.placedAt.isSome)).foldl (fun s c => boundaryCheck s c.key) s

/-- The plan of a command with a deadline that is not yet placed, for the slack monitor: its plan steps or rows, and the clusters that it will
be placed on (R342). -/
def planAhead (s : State) : State :=
  { s with cmds := s.cmds.map (fun c =>
      if c.stage = .checking ∨ c.span > 0 ∨ (deadlineTicks (slotAt s c.key)).isNone then c
      else if isCompute c.opcode then { c with stepsPlanned := plannedSteps s c, span := max 1 (min 32 (octets s c).length) }
      else if c.opcode = 0x0502 then { c with stepsPlanned := updateRows s c.key, span := 1 }
      else c) }

/-- DRAIN_DONE of a record slot: the staged tiles reach their destinations whatever has become of the control core, which writes DRAINED
when it runs (R366, R369). -/
def drainDone (s : State) (g r : Nat) : State :=
  let drains (h : Hold) : Bool := h.cluster == g && h.rslot == r && midStep h && h.unit.isNone
  match s.cmds.findSome? (fun c => (c.holds.find? drains).map (fun h => (c, h))) with
  | none => s
  | some (c, h) =>
    if h.faulted then s
    else
      let s := if h.recState = 1 then stepAct s c.key g (do
          drainAll (jobOf s c h) h.staged
          modify (fun s => updHold s c.key g (fun h => { h with recState := 3, staged := [] }))) else s
      if (holdOf s c.key g).any (fun h => h.recState == 3) && procRunning s (3 + g) then finishDrain s c.key g else s

/-! ### COMBINE_NODE (R43, R87) -/

/-- The words of a partial on the die ring: its rows in FP32, for attention with their maxima and sums (R87). -/
def partialWords (c : Cmd) (p : SlotWord) (x : List RowAcc) : List MarkedWord :=
  if c.opcode = 0x0301 then
    let d := (shapeAt p 0x60).d
    wordsOf ((partialBytes d x).take (512 * d + 1024))
  else wordsOf (x.flatMap (fun r => bytesF32 r.o))

/-- A right child moved between die slices: WRITE flits on virtual channel 2, thirteen data words each. Granule 0, whose layout is not stated,
is free (R16, R87; DESIGN CHOICE, log 55). -/
def moveChild (s : State) (src dst : Nat) (words : List MarkedWord) : State :=
  (chunksOf 13 words.length words).foldl (fun s ws =>
    let (a, s) := freshWord s
    let (b, s) := freshWord s
    let h : BitVec 32 := BitVec.ofNat 32 (3 * 2 ^ 28 + dst * 2 ^ 25 + src * 2 ^ 22 + 2 * 2 ^ 20)
    let gs := encodeGranule (a ++ b) false :: ws.map (fun w => encodeGranule w.1 w.2)
    routeFlit s src h (gs ++ noGranules.take (14 - gs.length))) s

/-- One node of an output tile's tree formed in the combine unit of the cluster that holds the partial of its lowest split, once both its
children are present, whatever their order of arrival (R43, R87). -/
def combineTile (s : State) (c : Cmd) (g level first tile : Nat) : State :=
  let p := slotAt s c.key
  let half := 2 ^ (level - 1)
  if partialCluster s c (splitTask s c tile first) = some g ∧ (formedOf c.parts (allNodes c) tile level first).isNone ∧
      childReady s c tile (level - 1) first ∧ childReady s c tile (level - 1) (first + half) then
    match nodeOf c.opcode p c.parts (allNodes c) tile level first with
    | some v =>
      let right := nodeOf c.opcode p c.parts (allNodes c) tile (level - 1) (first + half)
      let s := match right, partialCluster s c (splitTask s c tile (first + half)) with
        | some x, some g' => if g' / 4 = g / 4 then s else moveChild s (g' / 4) (g / 4) (partialWords c p x)
        | _, _ => s
      let pair := (List.range (2 ^ level)).map (fun i => splitTask s c tile (first + i))
      let s := updCmd s c.key (fun c => { c with slotted := c.slotted.filter (fun e => !pair.contains e.1) })
      updHold s c.key g (fun h => { h with nodes := tset [] h.nodes (nodeKey tile level first) v })
    | none => s
  else s

/-- COMBINE_NODE: the nodes covering splits [first, first + 2^level) that a cluster's combine unit can form now (R43, R87). -/
def combineNode (s : State) (g level first : Nat) : State :=
  (s.cmds.filter (fun c => isCompute c.opcode && c.holds.any (fun h => h.cluster == g))).foldl (fun s c =>
    let p := slotAt s c.key
    if level = 0 ∨ first % 2 ^ level ≠ 0 ∨ first + 2 ^ level > splitsOf c.opcode p then s
    else (List.range (tileCount c c.opcode p)).foldl (fun s t => (cmdOf s c.key).elim s (fun c => combineTile s c g level first t)) s) s

/-! ### Waits of a walk (R119, R125) -/

/-- ALLOC_WAIT_SATISFIED: the oldest waiting allocation for which a die keeps a page ends its wait, and its step walks again (R119). -/
def allocSatisfied (s : State) : State :=
  match s.pgk.allocWaits.find? (fun a => a.held.isSome && !a.done) with
  | none => s
  | some a => { s with pgk := { s.pgk with allocWaits := s.pgk.allocWaits.map (fun x => if x = a then { x with done := true } else x) } }

/-- ALLOC_TIMEOUT: the oldest allocation that nothing is kept for and that has waited longer than PGK_ALLOC_WAIT fails: its command ends, or its
restoration fails (R119, R125). -/
def allocTimeout (s : State) : State :=
  match s.pgk.allocWaits.find? (fun a => a.held.isNone && decide (s.now > a.since + allocBudget s a)) with
  | none => s
  | some a =>
    let d := a.cluster / 4
    let last := (dropOrder a).getLastD d
    let s := report s {
      cause := 0x14, source := pgkSource d, key := some a.key, cluster := a.cluster, addr := last }
    let s := bumpPgk s d 0x70 1
    match a.restore.bind (fun p => s.pgk.restores.find? (fun r => r.page == p)) with
    | some r => failRestore s r
    | none => abortCmd s a.key 0x20

/-- A page that a failing restoration wrote back, DROPPED again with its header as it stood: its frame is given back and its drop charged (R125). -/
def dropAgain (before : State) (k : Nat) (s : State) (page : Nat) : State :=
  let w : Who := { die := numDie page, key := some k }
  match peekHdr before page, peekHdr s page with
  | some old, some h => runQuiet (do
      writeHdr w page old
      modify (fun s => returnFrame s (numDie page) 0 h.frame)
      modify (fun s => updCmd s k (fun c => { c with revived := c.revived.filter (· ≠ page) }))
      chargeSeq w old.writerSeq true) s
  | _, _ => s

/-- A restoration that stops with an error: its records and fences stand, and the pages that it had written back are DROPPED again. -/
def undoRestore (before s : State) (k : Nat) : State :=
  let had := (cmdOf before k).elim [] (fun c => c.revived)
  (((cmdOf s k).elim [] (fun c => c.revived)).filter (fun p => !had.contains p)).foldl (dropAgain before k) s

/-- RESTORE_COMPLETE: the restoration of a page runs for the command that asked first (R125, R126). -/
def restoreComplete (s : State) (page : Nat) : State :=
  match s.pgk.restores.find? (fun r => r.page == page) with
  | none => s
  | some r =>
    if (holdOf s r.key r.cluster).all (fun h => h.faulted) ∨ stepsHeld s r.key ∨
        stillWaits s r.key r.cluster then s
    else match (runRestore r.key r.cluster page r.seq).run s with
      | .ok _ s' => endRestore s' page
      | .error (.fault f) _ => holdFault s r.key r.cluster f
      | .error (.park _) s' => s'
      | .error _ s' =>
        let s' := undoRestore s s' r.key
        match s'.pgk.restores.find? (fun x => x.page == page) with
        | some r => failRestore s' r
        | none => s'

/-! ### ARRAY_PARITY (R65) -/

/-- A correctable error of the accumulator file; where it stood is a free value (log 5). -/
def accumulatorCe (s : State) (core : Nat) : State :=
  let (v, s) := freshWord s
  report s { cause := 0x01, source := core, cluster := clusterOf core, addr := gaddrOf core 0, info0 := v.toNat % 4096 + 2 * 65536 }

/-- ARRAY_PARITY: the plan step in progress on the core's cluster is discarded and replays from the last commit; the third time the command
ends (R65). -/
def arrayParity (s : State) (core : Nat) (correctable : Bool) : State :=
  if isFenced s core then s
  else if correctable then accumulatorCe s core
  else
    let g := clusterOf core
    let s := bumpArr s g 0x68 1
    match steppingOn s g with
    | none => report s { cause := 0x03, source := core, cluster := g }
    | some (c, h) =>
      if h.parityErrors ≥ 2 then
        abortCmd (report s { cause := 0x04, source := core, key := some c.key, cluster := g, info0 := recordSteps h 0 }) c.key 0x20
      else
        let s := report s { cause := 0x03, source := core, key := some c.key, cluster := g, info0 := recordSteps h 0 }
        replayStep (updHold s c.key g (fun h => { h with parityErrors := h.parityErrors + 1 })) c.key g

/-! ### Fenced clusters (R18, R373) -/

/-- Commands that hold a fenced cluster end, once a drain in progress there has finished (R18, R366). -/
def abortFenced (s : State) : State :=
  s.cmds.foldl (fun s c =>
    if c.holds.any (fun h => clusterFenced s h.cluster && h.recState ≠ 1) then abortCmd s c.key 0x20 else s) s

/-- Plan steps that use a core which has been fenced are discarded; their replay deals the splits over the cores that are left (R65, R226). -/
def replayFenced (s : State) : State :=
  s.cmds.foldl (fun s c => c.holds.foldl (fun s h =>
    if h.unit.isSome ∧ h.cores.any (isFenced s) then replayStep s c.key h.cluster else s) s) s

end Sys2Proof.Machine
end

