-- ==== Sys2Proof/Machine/Opcodes.lean ====
section
/-! DEFINITION. The opcodes of R317, what Kerur does of itself at the end of a step, and one meaning for each row that hands a slot over
(spec/12_host_interface.md). -/
namespace Sys2Proof.Machine

/-- An opcode that is not in the table: the header check has refused it (R317). -/
def noOp : OpDef where
  check _ := pure []
  body _ := pure {}

/-- The checks and the body of an opcode (R317). -/
def opDef (op : Nat) : OpDef :=
  match op with
  | 0x0101 => cfgReadDef
  | 0x0102 => cfgWriteDef
  | 0x0103 => cfgCommitDef
  | 0x0104 => cfgStatusDef
  | 0x0201 => seqCreateDef
  | 0x0202 => seqForkDef
  | 0x0203 => seqFreeDef
  | 0x0204 => seqTruncateDef
  | 0x0206 => prefixLookupDef
  | 0x0207 => prefixPublishDef
  | 0x0208 => kvDemoteDef
  | 0x0209 => kvPromoteDef
  | 0x020A => kvRecomputeListDef
  | 0x0301 => attnFwdDef
  | 0x0302 => attnBwdDef
  | 0x0303 => projDef
  | 0x0304 => matmulDef
  | 0x0305 => planLoadDef
  | 0x0401 => streamArmDef
  | 0x0402 => streamRearmDef
  | 0x0403 => streamHaltDef
  | 0x0501 => updProgramLoadDef
  | 0x0502 => updStepDef
  | 0x0601 => linkStatusDef
  | 0x0602 => linkAttachDef
  | 0x0603 => linkDetachDef
  | 0x0701 => fwLoadDef
  | 0x0702 => fwStartDef
  | 0x0703 => fwHandoverDef
  | 0x0704 => logReadDef
  | 0x0705 => traceCtlDef
  | 0x0801 => pwrModeDef
  | 0x0802 => pwrHintDef
  | 0x0901 => faultFetchDef
  | 0x0902 => faultResolveDef
  | 0x0903 => errFetchDef
  | 0x0904 => errClearDef
  | 0x0A01 => sessionOpenDef
  | 0x0A02 => sessionCloseDef
  | 0x0A03 => leaseRenewDef
  | 0x0A04 => attachDef
  | 0x0A05 => nopDef
  | _ => noOp

/-! ### What Kerur does of itself (log 33) -/

/-- Commands whose answer or wake has come are carried on, in the order of their admission, each once what it needs is awake (R394). -/
def runReady (s : State) : State :=
  s.cmds.foldl (fun s c =>
    if !(cmdOf s c.key).any (fun d => d.ready) then s
    else if mustWake s c.key c.opcode then beginWake s (wakeClusters s c.key c.opcode) false
    else carryOn (opDef c.opcode) c.key s) s

/-- Commands that end when work other than their own has ended, and what the scheduler and the control cores find: drains, update steps, ring
commands, plan steps on a fenced core, commands on a fenced cluster, commits, plans of waiting commands, raised keys. -/
def settleCmds (s : State) : State :=
  let s := finishDrains s
  let s := (s.cmds.filter (fun c => c.opcode == 0x0502 && c.stage == .running)).foldl (fun s c => settleUpdate (reloadLanes s c.key) c.key) s
  let s := (s.cmds.filter (fun c => isRing c && c.placedAt.isSome)).foldl (fun s c => ringSettle s c.key) s
  noteRaised (planAhead (boundaryChecks (abortFenced (replayFenced s))))

/-- What the RAS unit's records lead to: fenced links out of service, processors restarted for errors of their handlers (R413, R414). -/
def settleRas (s : State) : State :=
  let s := if s.ras.fenced.isEmpty then s else downFenced s
  if s.ras.restarts.isEmpty then s else restartHandlers s

/-- Everything that follows at once from a step: what fences and handlers' errors lead to, commands carried on, moves and resolves that have
ended, error matches of the page keepers, reclamation, epochs, and what the page keepers take up (log 33). -/
def settle (s : State) : State :=
  keeperWork (settleEpochs (reclaimAll (markAllBad (freeFenced (settleResolves (settleMoves (settleCmds (runReady (settleRas s)))))))))

/-! ### Handovers (R310, R317) -/

/-- A slot handed over with an opcode, in a form of it. -/
def handOpcode (op : Nat) (form : SlotWord → SlotWord) (port : Port) (slot : BitVec 6) (hdr : BitVec 64) (s : State) : State :=
  settle (handover (opDef op) (fun p => form (forceOpcode op p)) port slot.toNat hdr s)

/-- CFG_READ (R329). -/
def execCfgRead (port : Port) (slot : BitVec 6) (hdr : BitVec 64) (s : State) : Host.Outcome State Fault Refusal :=
  .next (handOpcode 0x0101 id port slot hdr s)

/-- CFG_WRITE (R326). -/
def execCfgWrite (port : Port) (slot : BitVec 6) (hdr : BitVec 64) (s : State) : Host.Outcome State Fault Refusal :=
  .next (handOpcode 0x0102 id port slot hdr s)

/-- CFG_COMMIT (R347). -/
def execCfgCommit (port : Port) (slot : BitVec 6) (hdr : BitVec 64) (s : State) : Host.Outcome State Fault Refusal :=
  .next (handOpcode 0x0103 (forceParam 0 2 1 0) port slot hdr s)

/-- CFG_DISCARD (R347). -/
def execCfgDiscard (port : Port) (slot : BitVec 6) (hdr : BitVec 64) (s : State) : Host.Outcome State Fault Refusal :=
  .next (handOpcode 0x0103 (forceParam 0 2 1 1) port slot hdr s)

/-- CFG_STATUS (R349). -/
def execCfgStatus (port : Port) (slot : BitVec 6) (hdr : BitVec 64) (s : State) : Host.Outcome State Fault Refusal :=
  .next (handOpcode 0x0104 id port slot hdr s)

/-- SEQ_CREATE (R130). -/
def execSeqCreate (port : Port) (slot : BitVec 6) (hdr : BitVec 64) (s : State) : Host.Outcome State Fault Refusal :=
  .next (handOpcode 0x0201 id port slot hdr s)

/-- SEQ_FORK (R148). -/
def execSeqFork (port : Port) (slot : BitVec 6) (hdr : BitVec 64) (s : State) : Host.Outcome State Fault Refusal :=
  .next (handOpcode 0x0202 id port slot hdr s)

/-- SEQ_FREE (R131). -/
def execSeqFree (port : Port) (slot : BitVec 6) (hdr : BitVec 64) (s : State) : Host.Outcome State Fault Refusal :=
  .next (handOpcode 0x0203 id port slot hdr s)

/-- SEQ_TRUNCATE (R132). -/
def execSeqTruncate (port : Port) (slot : BitVec 6) (hdr : BitVec 64) (s : State) : Host.Outcome State Fault Refusal :=
  .next (handOpcode 0x0204 id port slot hdr s)

/-- PREFIX_LOOKUP (R144). -/
def execPrefixLookup (port : Port) (slot : BitVec 6) (hdr : BitVec 64) (s : State) : Host.Outcome State Fault Refusal :=
  .next (handOpcode 0x0206 id port slot hdr s)

/-- PREFIX_PUBLISH (R145). -/
def execPrefixPublish (port : Port) (slot : BitVec 6) (hdr : BitVec 64) (s : State) : Host.Outcome State Fault Refusal :=
  .next (handOpcode 0x0207 (forceParam 0x22 2 1 0) port slot hdr s)

/-- PREFIX_WITHDRAW (R156). -/
def execPrefixWithdraw (port : Port) (slot : BitVec 6) (hdr : BitVec 64) (s : State) : Host.Outcome State Fault Refusal :=
  .next (handOpcode 0x0207 (forceParam 0x22 2 1 1) port slot hdr s)

/-- KV_DEMOTE (R133). -/
def execKvDemote (port : Port) (slot : BitVec 6) (hdr : BitVec 64) (s : State) : Host.Outcome State Fault Refusal :=
  .next (handOpcode 0x0208 id port slot hdr s)

/-- KV_PROMOTE (R133). -/
def execKvPromote (port : Port) (slot : BitVec 6) (hdr : BitVec 64) (s : State) : Host.Outcome State Fault Refusal :=
  .next (handOpcode 0x0209 id port slot hdr s)

/-- KV_RECOMPUTE_LIST (R134). -/
def execKvRecomputeList (port : Port) (slot : BitVec 6) (hdr : BitVec 64) (s : State) : Host.Outcome State Fault Refusal :=
  .next (handOpcode 0x020A id port slot hdr s)

/-- ATTN_FWD (R98). -/
def execAttnFwd (port : Port) (slot : BitVec 6) (hdr : BitVec 64) (s : State) : Host.Outcome State Fault Refusal :=
  .next (handOpcode 0x0301 id port slot hdr s)

/-- ATTN_BWD (R99). -/
def execAttnBwd (port : Port) (slot : BitVec 6) (hdr : BitVec 64) (s : State) : Host.Outcome State Fault Refusal :=
  .next (handOpcode 0x0302 id port slot hdr s)

/-- PROJ (R100). -/
def execProj (port : Port) (slot : BitVec 6) (hdr : BitVec 64) (s : State) : Host.Outcome State Fault Refusal :=
  .next (handOpcode 0x0303 id port slot hdr s)

/-- MATMUL (R330). -/
def execMatmul (port : Port) (slot : BitVec 6) (hdr : BitVec 64) (s : State) : Host.Outcome State Fault Refusal :=
  .next (handOpcode 0x0304 id port slot hdr s)

/-- PLAN_LOAD (R212). -/
def execPlanLoad (port : Port) (slot : BitVec 6) (hdr : BitVec 64) (s : State) : Host.Outcome State Fault Refusal :=
  .next (handOpcode 0x0305 (forceParam 0xE 0 1 0) port slot hdr s)

/-- PLAN_UNLOAD (R212). -/
def execPlanUnload (port : Port) (slot : BitVec 6) (hdr : BitVec 64) (s : State) : Host.Outcome State Fault Refusal :=
  .next (handOpcode 0x0305 (forceParam 0xE 0 1 1) port slot hdr s)

/-- STREAM_ARM (R214). -/
def execStreamArm (port : Port) (slot : BitVec 6) (hdr : BitVec 64) (s : State) : Host.Outcome State Fault Refusal :=
  .next (handOpcode 0x0401 id port slot hdr s)

/-- STREAM_REARM (R215). -/
def execStreamRearm (port : Port) (slot : BitVec 6) (hdr : BitVec 64) (s : State) : Host.Outcome State Fault Refusal :=
  .next (handOpcode 0x0402 id port slot hdr s)

/-- STREAM_HALT (R216). -/
def execStreamHalt (port : Port) (slot : BitVec 6) (hdr : BitVec 64) (s : State) : Host.Outcome State Fault Refusal :=
  .next (handOpcode 0x0403 id port slot hdr s)

/-- UPD_PROGRAM_LOAD (R264). -/
def execUpdProgramLoad (port : Port) (slot : BitVec 6) (hdr : BitVec 64) (s : State) : Host.Outcome State Fault Refusal :=
  .next (handOpcode 0x0501 id port slot hdr s)

/-- UPD_STEP (R270). -/
def execUpdStep (port : Port) (slot : BitVec 6) (hdr : BitVec 64) (s : State) : Host.Outcome State Fault Refusal :=
  .next (handOpcode 0x0502 id port slot hdr s)

/-- LINK_STATUS (R295). -/
def execLinkStatus (port : Port) (slot : BitVec 6) (hdr : BitVec 64) (s : State) : Host.Outcome State Fault Refusal :=
  .next (handOpcode 0x0601 id port slot hdr s)

/-- LINK_ATTACH (R293). -/
def execLinkAttach (port : Port) (slot : BitVec 6) (hdr : BitVec 64) (s : State) : Host.Outcome State Fault Refusal :=
  .next (handOpcode 0x0602 id port slot hdr s)

/-- LINK_DETACH (R294). -/
def execLinkDetach (port : Port) (slot : BitVec 6) (hdr : BitVec 64) (s : State) : Host.Outcome State Fault Refusal :=
  .next (handOpcode 0x0603 id port slot hdr s)

/-- FW_LOAD (R363). -/
def execFwLoad (port : Port) (slot : BitVec 6) (hdr : BitVec 64) (s : State) : Host.Outcome State Fault Refusal :=
  .next (handOpcode 0x0701 id port slot hdr s)

/-- FW_START (R364). -/
def execFwStart (port : Port) (slot : BitVec 6) (hdr : BitVec 64) (s : State) : Host.Outcome State Fault Refusal :=
  .next (handOpcode 0x0702 id port slot hdr s)

/-- FW_HANDOVER (R376). -/
def execFwHandover (port : Port) (slot : BitVec 6) (hdr : BitVec 64) (s : State) : Host.Outcome State Fault Refusal :=
  .next (handOpcode 0x0703 id port slot hdr s)

/-- LOG_READ (R382). -/
def execLogRead (port : Port) (slot : BitVec 6) (hdr : BitVec 64) (s : State) : Host.Outcome State Fault Refusal :=
  .next (handOpcode 0x0704 (forceParam 0xC 0 1 0) port slot hdr s)

/-- LOG_STATUS (R383). -/
def execLogStatus (port : Port) (slot : BitVec 6) (hdr : BitVec 64) (s : State) : Host.Outcome State Fault Refusal :=
  .next (handOpcode 0x0704 (forceParam 0xC 0 1 1) port slot hdr s)

/-- TRACE_CTL_ENABLE (R385). -/
def execTraceCtlEnable (port : Port) (slot : BitVec 6) (hdr : BitVec 64) (s : State) : Host.Outcome State Fault Refusal :=
  .next (handOpcode 0x0705 (forceParam 0 0 8 0) port slot hdr s)

/-- TRACE_CTL_DISABLE (R385). -/
def execTraceCtlDisable (port : Port) (slot : BitVec 6) (hdr : BitVec 64) (s : State) : Host.Outcome State Fault Refusal :=
  .next (handOpcode 0x0705 (forceParam 0 0 8 1) port slot hdr s)

/-- TRACE_CTL_DISABLE_ALL (R385). -/
def execTraceCtlDisableAll (port : Port) (slot : BitVec 6) (hdr : BitVec 64) (s : State) : Host.Outcome State Fault Refusal :=
  .next (handOpcode 0x0705 (forceParam 0 0 8 2) port slot hdr s)

/-- TRACE_CTL_COUNT (R385). -/
def execTraceCtlCount (port : Port) (slot : BitVec 6) (hdr : BitVec 64) (s : State) : Host.Outcome State Fault Refusal :=
  .next (handOpcode 0x0705 (forceParam 0 0 8 3) port slot hdr s)

/-- PWR_MODE_QUERY (R397). -/
def execPwrModeQuery (port : Port) (slot : BitVec 6) (hdr : BitVec 64) (s : State) : Host.Outcome State Fault Refusal :=
  .next (handOpcode 0x0801 (forceParam 0 0 8 0) port slot hdr s)

/-- PWR_MODE_SET (R397). -/
def execPwrModeSet (port : Port) (slot : BitVec 6) (hdr : BitVec 64) (s : State) : Host.Outcome State Fault Refusal :=
  .next (handOpcode 0x0801 (forceParam 0 0 8 1) port slot hdr s)

/-- PWR_HINT_SET (R396). -/
def execPwrHintSet (port : Port) (slot : BitVec 6) (hdr : BitVec 64) (s : State) : Host.Outcome State Fault Refusal :=
  .next (handOpcode 0x0802 (forceParam 9 0 8 0) port slot hdr s)

/-- PWR_HINT_CLEAR (R396). -/
def execPwrHintClear (port : Port) (slot : BitVec 6) (hdr : BitVec 64) (s : State) : Host.Outcome State Fault Refusal :=
  .next (handOpcode 0x0802 (forceParam 9 0 8 1) port slot hdr s)

/-- PWR_HINT_CLEAR_ALL (R396). -/
def execPwrHintClearAll (port : Port) (slot : BitVec 6) (hdr : BitVec 64) (s : State) : Host.Outcome State Fault Refusal :=
  .next (handOpcode 0x0802 (forceParam 9 0 8 2) port slot hdr s)

/-- FAULT_FETCH (R253). -/
def execFaultFetch (port : Port) (slot : BitVec 6) (hdr : BitVec 64) (s : State) : Host.Outcome State Fault Refusal :=
  .next (handOpcode 0x0901 id port slot hdr s)

/-- FAULT_RESOLVE (R254). -/
def execFaultResolve (port : Port) (slot : BitVec 6) (hdr : BitVec 64) (s : State) : Host.Outcome State Fault Refusal :=
  .next (handOpcode 0x0902 id port slot hdr s)

/-- ERR_FETCH (R420). -/
def execErrFetch (port : Port) (slot : BitVec 6) (hdr : BitVec 64) (s : State) : Host.Outcome State Fault Refusal :=
  .next (handOpcode 0x0903 (forceParam 2 0 1 0) port slot hdr s)

/-- ERR_FETCH_COUNTERS (R421). -/
def execErrFetchCounters (port : Port) (slot : BitVec 6) (hdr : BitVec 64) (s : State) : Host.Outcome State Fault Refusal :=
  .next (handOpcode 0x0903 (forceParam 2 0 1 1) port slot hdr s)

/-- ERR_CLEAR (R422). -/
def execErrClear (port : Port) (slot : BitVec 6) (hdr : BitVec 64) (s : State) : Host.Outcome State Fault Refusal :=
  .next (handOpcode 0x0904 id port slot hdr s)

/-- SESSION_OPEN (R336). -/
def execSessionOpen (port : Port) (slot : BitVec 6) (hdr : BitVec 64) (s : State) : Host.Outcome State Fault Refusal :=
  .next (handOpcode 0x0A01 (forceParam 0x12 2 1 0) port slot hdr s)

/-- SESSION_ADOPT (R353). -/
def execSessionAdopt (port : Port) (slot : BitVec 6) (hdr : BitVec 64) (s : State) : Host.Outcome State Fault Refusal :=
  .next (handOpcode 0x0A01 (forceParam 0x12 2 1 1) port slot hdr s)

/-- SESSION_CLOSE (R337). -/
def execSessionClose (port : Port) (slot : BitVec 6) (hdr : BitVec 64) (s : State) : Host.Outcome State Fault Refusal :=
  .next (handOpcode 0x0A02 id port slot hdr s)

/-- LEASE_RENEW (R350). -/
def execLeaseRenew (port : Port) (slot : BitVec 6) (hdr : BitVec 64) (s : State) : Host.Outcome State Fault Refusal :=
  .next (handOpcode 0x0A03 id port slot hdr s)

/-- ATTACH (R352). -/
def execAttach (port : Port) (slot : BitVec 6) (hdr : BitVec 64) (s : State) : Host.Outcome State Fault Refusal :=
  .next (handOpcode 0x0A04 id port slot hdr s)

/-- NOP (R331). -/
def execNop (port : Port) (slot : BitVec 6) (hdr : BitVec 64) (s : State) : Host.Outcome State Fault Refusal :=
  .next (handOpcode 0x0A05 id port slot hdr s)

/-- INVALID_OPCODE: a handover that names no opcode of the table (R317). -/
def execInvalidOpcode (port : Port) (slot : BitVec 6) (hdr : BitVec 64) (s : State) : Host.Outcome State Fault Refusal :=
  let op := hdr.toNat % 65536
  .next (handOpcode (if opcodeTable.any (fun e => e.1 == op) then 0 else op) id port slot hdr s)

/-! ### Waiting slots and interim status (R311, R322) -/

/-- The first handover of the queue that the device state no longer makes wait. -/
def firstReady (s : State) : Option Nat :=
  s.host.handovers.find? (fun k => gate s.dev (slotBits (slotAt s k) 0 16) ≠ .wait)

/-- A slot leaves the handover queue and is taken, or refused (R319, R322). -/
def admitWaiting (s : State) : State :=
  match if nothingAnswers s then none else firstReady s with
  | none => s
  | some k =>
    let s := { s with host := { s.host with handovers := s.host.handovers.filter (fun x => x ≠ k) } }
    let op := slotBits (slotAt s k) 0 16
    match earlyCheck s k with
    | some r => rejectCmd s k r
    | none => match gate s.dev op with
      | .accept => takeSlot (opDef op) k s
      | _ => rejectCmd s k busyReject

/-- WAITING_COMMAND_ADMIT (R322). -/
def execWaitingCommandAdmit (s : State) : Host.Outcome State Fault Refusal := .next (settle (admitWaiting s))

/-- Whether a slot's interim status is due: its 10 µs have passed, and its status word has changed or a plan step has been committed since
it was written (R311). -/
def interimDue (s : State) (k : Nat) : Bool :=
  (cmdOf s k).any (fun c => c.lastInterim.any (fun t =>
    decide (s.now ≥ t + ticksCeil 10000) &&
      (decide (BitVec.ofNat 32 (statusWord s (interimCode c) (slotSeq s k)) ≠ c.lastStatus) ||
        decide (slotBits (slotAt s k) (8 * 0x30) 32 ≠ c.steps % 2 ^ 32))))

/-- INTERIM_STATUS_REFRESH (R311). -/
def execInterimStatusRefresh (port : Port) (slot : BitVec 6) (s : State) : Host.Outcome State Fault Refusal :=
  .next (match slotKey port slot.toNat with
    | some k => if interimDue s k ∧ !schedulerDown s then interim s k else s
    | none => s)

/-- CCC_RESTART (R369, R375): the restart, and the drains that ended meanwhile. -/
def execCccRestart (cluster : BitVec 5) (s : State) : Host.Outcome State Fault Refusal :=
  .next (if cccMayRestart s cluster.toNat then settle (cccRestart s cluster.toNat) else s)

/-- SCH_RESTART (R370): the restart, and the commits that the control cores kept for the scheduler. -/
def execSchRestart (s : State) : Host.Outcome State Fault Refusal :=
  .next (if mayRestart s 2 then settle (schRestart s) else s)

/-- DRAIN_QUIESCENT (R348). -/
def execDrainQuiescent (s : State) : Host.Outcome State Fault Refusal := .next (settle (drainQuiescent s))

end Sys2Proof.Machine
end

