-- ==== Sys2Proof/Machine/Window.lean ====
section
/-! DEFINITION. The emulated-register window: what its mirror reads and what a write does, and the transports of the management and
debug ports (spec/12_host_interface.md R304 to R310, R323, R324, R332). -/
namespace Sys2Proof.Machine

/-! ### Gauges and status registers of the counter blocks -/

/-- SCH_ARR_STATUS: cores of a cluster that are not fenced (R71). -/
def arrStatus (s : State) (g : Nat) : Nat := ((List.range 8).filter (fun i => !isFenced s (8 * g + i))).length

/-- The queues of a cluster FAULTED now: standalone streams, and queues of plan steps with a request in the pending table (R217, R227). -/
def faultedQueues (s : State) (g : Nat) : List Nat :=
  let streams := (s.str.queues.filter (fun e => decide (e.1 / 64 = g) && e.2.state == .faulted)).map (·.1)
  let waiting := (allPendings s).flatMap (fun e =>
    (e.2.2.waiters.filter (fun w => decide (w.origin ≤ 1) && decide (w.core / 8 = g) && isStepWaiter s w)).map
      (fun w => w.core * 8 + w.queue))
  (streams ++ waiting).eraseDups

/-- STR_STATUS (R227). -/
def strStatus (s : State) (g : Nat) : Nat :=
  let here (e : Nat × Queue) : Bool :=
    decide (e.1 / 64 = g) && ((e.2.state == .running && standalone s e.2) || e.2.state == .parked)
  let runs := (s.str.queues.filter here).length
  (faultedQueues s g).length % 256 + 256 * (runs % 256)

/-- UPD_STATUS (R280). -/
def updStatus (s : State) (u : Nat) : Nat :=
  let x := unitAt s u
  bit (isFenced s (0xC080 + u)) + 2 * bit x.key.isSome + 4 * bit x.faulted + 256 * (x.slot % 32)

/-- Free far frames: neither used nor gone with a module (R128, R136). -/
def farFree (s : State) (d : Nat) : Nat :=
  let p := poolsOf s d
  scopeVal s 0x1019 d - (p.far.filter (fun f => !p.farGone.contains (f / 1024))).length - 1024 * p.farGone.length

/-- Pages of a die in a state of R109. -/
def pagesIn (s : State) (d st : Nat) : Nat :=
  ((poolsOf s d).headers.filter (fun i => (peekHdr s (mkNum d i)).any (fun h => h.state == st))).length

/-- PGK_STATUS (R136). -/
def pgkStatus (s : State) (d : Nat) : Nat :=
  bit (isFenced s (pgkSource d)) + 2 * bit (s.pgk.allocWaits.any (fun a => !a.done && decide (a.cluster / 4 = d)))

/-- A spine node of a die as its memory holds it. -/
def peekSpine (s : State) (d i : Nat) : Option SpineNode :=
  (peekPool s d (spineVa s (mkNum d i))).map (fun pa => spineOf ((s.pmem.reads pa 64).map (·.1)))

/-- Spine nodes of a die that a test admits. -/
def spineCount (s : State) (d : Nat) (f : SpineNode → Bool) : Nat :=
  ((poolsOf s d).spineNodes.filter (fun i => (peekSpine s d i).any f)).length

/-- The oldest start epoch among unfinished commands, those admitted and not completed (R152), none when there is none. -/
def oldestStart (s : State) : Option (BitVec 8) :=
  (s.cmds.filter (fun c => c.stage != .checking)).foldl (fun o c => match o with
    | none => some c.startEpoch
    | some e => some (if (s.pgk.epoch - c.startEpoch).toNat ≥ (s.pgk.epoch - e).toNat then c.startEpoch else e)) none

/-- SPN_EPOCH (R159). The scheduler keeps the epoch (R152): until the scheduler core has left RESET, the register reads its reset value 0
(DEDUCED, log 58). -/
def spnEpoch (s : State) : Nat :=
  if (procOf s 2).state = .reset then 0
  else match oldestStart s with
    | none => s.pgk.epoch.toNat + 65536
    | some e => s.pgk.epoch.toNat + 256 * e.toNat

/-- SPN_STATUS (R159). -/
def spnStatus (s : State) (d : Nat) : Nat := bit (isFenced s (0xC068 + d)) + 2 * bit (s.pgk.poolEmpty.contains d)

/-- XLT_STATUS (R257). -/
def xltStatus (s : State) (d : Nat) : Nat :=
  bit (isFenced s (xltSource d)) + 256 * min 16 (misses s d).length + 2 ^ 16 * (pendings s d).length +
    2 ^ 32 * s.xlt.queue.length + 2 ^ 43 * bit s.xlt.overflow + 2 ^ 44 * s.xlt.heldOrder.length

/-! ### Reads (R304 to R307, R235) -/

/-- The member identification block (R306). -/
def idRead (off : Nat) : Nat :=
  [0x0000000001040000, 0x0000142001002008, 0x0000020000080000, 0x0000002300010000, 0x0000004000000180, 0x0258032003E804E2,
    0x00000000C0010440].getD (off / 8) 0

/-- OWN of a run of slots as bits (R307). -/
def ownBits (s : State) (first n : Nat) : Nat := (List.range n).foldl (fun a i => a + bit (slotOwned s (first + i)) * 2 ^ i) 0

/-- The device status block (R307). -/
def devRead (s : State) (off : Nat) : Nat :=
  match off / 8 with
  | 0 => devCode s.dev + 256 * s.cfg.epoch.toNat + 65536 * (oldestEpoch s).toNat
  | 1 => s.now % 2 ^ 64
  | 2 => ownBits s 0 64
  | 3 => ownBits s 64 4 + 256 * bit (slotOwned s 68)
  | 4 => s.host.discards.toNat
  | 5 => s.host.admitted.toNat
  | 6 => s.host.rejected.toNat
  | _ => 0

/-- XLT_FARM_STAT of a module slot (R235). -/
def farmStat (f : FarModule) : Nat :=
  f.state + 128 * bit f.evacDone + 65536 * (f.width % 16) + 2 ^ 32 * (f.capGib % 2048) + 2 ^ 56 * f.gen.toNat

/-- A register of a counter block that is not a stored event counter: a gauge or a status (R71, R136, R159, R190, R227, R257, R280,
R303). -/
def gaugeRead (s : State) (base reg : Nat) : Option Nat :=
  let i := base % 0x1000 / 0x80
  match base / 0x1000, reg with
  | 2, 0x70 => some (arrStatus s i)
  | 3, 0x70 => some (spdStatus s i)
  | 4, 0x70 => some (strStatus s i)
  | 5, 0x58 => some ((unitAt s i).cursor % 2 ^ 28)
  | 5, 0x60 => some (updStatus s i)
  | 1, 0x68 => some (ctrReg s 0x1068).toNat
  | 1, 0x70 => some (xltStatus s i)
  | 0, _ =>
    if base < 0x0800 then (if reg = 0x08 then some (portStat (tget KtlPort.reset s.ktl.ports ((base - 0x0400) / 0x80))) else none)
    else if base < 0x0C00 then
      let d := (base - 0x0800) / 0x80
      match reg with
      | 0x08 => some (nearFree s d)
      | 0x10 => some (farFree s d)
      | 0x18 => some (cfgVal s 0x1011 d - (poolsOf s d).headers.length)
      | 0x20 => some (cfgVal s 0x1013 d - (poolsOf s d).nodes.length)
      | 0x28 => some (pagesIn s d 2)
      | 0x30 => some (pagesIn s d 4)
      | 0x38 => some (pagesIn s d 5)
      | 0x78 => some (pgkStatus s d)
      | _ => none
    else
      let d := (base - 0x0C00) / 0x80
      match reg with
      | 0x08 => some (cfgVal s 0x2011 d - (poolsOf s d).spineNodes.length)
      | 0x10 => some (cfgVal s 0x2015 d - (poolsOf s d).keySlots.length)
      | 0x18 => some (spineCount s d (fun n => n.state == 1))
      | 0x20 => some (spineCount s d (fun n => n.state == 1 && n.stale))
      | 0x28 => some (s.pgk.quarantine.filter (fun q => decide (numDie q.number = d))).length
      | 0x68 => some (spnEpoch s)
      | 0x70 => some (spnStatus s d)
      | _ => none
  | _, _ => none

/-- Whether an offset lies in a counter block of R304. -/
def inCounters (off : Nat) : Bool :=
  decide (0x0400 ≤ off ∧ off < 0x0600) || decide (0x0800 ≤ off ∧ off < 0x1400) || decide (0x2000 ≤ off ∧ off < 0x6000)

/-- The slot an offset of the slot area lies in, in a port's view (R304, R323). -/
def viewSlot (port : Port) (off : Nat) : Option Nat :=
  if off < 0x8000 ∨ off ≥ 0xC000 then none
  else match port with
    | .host => some ((off - 0x8000) / 256)
    | .mgmt => if off < 0x8400 then some (64 + (off - 0x8000) / 256) else none
    | .debug => none

/-- The mirror's eight bytes at an offset that is a multiple of 8 (R304, R305, R323). -/
def windowRead (s : State) (port : Port) (off : Nat) : BitVec 64 :=
  if off < 0x100 then BitVec.ofNat 64 (idRead off)
  else if off < 0x200 then BitVec.ofNat 64 (devRead s (off - 0x100))
  else if off < 0x300 then
    (if off % 16 < 8 then BitVec.ofNat 64 (farmStat (farModule s ((off - 0x200) / 16))) else 0)
  else if inCounters off then
    match gaugeRead s (off / 0x80 * 0x80) (off % 0x80 / 8 * 8) with
    | some v => BitVec.ofNat 64 v
    | none => ctrReg s (off / 8 * 8)
  else match viewSlot port off with
    | some k => (slotAt s k).extractLsb' (off % 256 / 8 * 64) 64
    | none => 0

/-! ### Writes (R305, R310, R332) -/

/-- A slot whose contents stand at its handover is taken (R310, R319). -/
def handSlot (s : State) (k : Nat) (p : SlotWord) : State := arrive (opDef (slotBits p 0 16)) k (setSlot s k p)

/-- A write of 4 or 8 bytes at an offset of a slot (R310, R332). -/
def slotWrite (s : State) (k o n v : Nat) : State :=
  let p := setBits (slotAt s k) (8 * o) (8 * n) v
  if slotOwned s k then discardWrite s
  else if o = 0 ∧ n = 8 ∧ v.testBit 63 then handSlot s k p
  else if o = 4 ∧ n = 4 ∧ v.testBit 31 then discardWrite s
  else setSlot s k p

/-- CLEAR of a counter block (R71, R190, R257). -/
def clearBlock (s : State) (base : Nat) : State :=
  let cs := dropKeys (base + 8) (base + 0x80) s.counters
  let cs := if base / 0x1000 = 1 then dropKeys 0x1068 0x1070 cs else cs
  let runs := if base / 0x1000 = 3 then tset false s.spad.overrun (base % 0x1000 / 0x80) false else s.spad.overrun
  { s with counters := cs, spad := { s.spad with overrun := runs } }

/-- A write of the CTL register of a counter block: FREEZE is bit 1, CLEAR bit 0 (R71). -/
def ctlWrite (s : State) (base : Nat) (hold clear : Bool) : State :=
  let s := if clear then clearBlock s base else s
  { s with counters := tset 0 s.counters base (if hold then 2 else 0) }

/-- A host write of the window (R305): 4 or 8 bytes, naturally aligned, or discarded and counted; it acts on a slot, the CTL register of
a counter block and XLT_FARM_CTL alone. -/
def windowWrite (s : State) (off n v : Nat) : State :=
  if (n ≠ 4 ∧ n ≠ 8) ∨ off % n ≠ 0 then discardWrite s
  else match viewSlot .host off with
    | some k => slotWrite s k (off % 256) n (v % 2 ^ (8 * n))
    | none =>
      if inCounters off ∧ off % 0x80 = 0 then ctlWrite s off (v.testBit 1) (v.testBit 0)
      else if 0x200 ≤ off ∧ off < 0x300 ∧ off % 16 = 8 then (if v.testBit 0 then evacuate s ((off - 0x200) / 16) else s)
      else s

/-! ### The management port (R323) -/

/-- The 4-byte units of a private write from an offset on. The two units of a slot's hdr that come together are one write of hdr; with
OWN 1 it hands the slot over when it is the last of the private write, and is discarded and counted otherwise. -/
def mgmtUnits (off : Nat) : List Nat → State → State
  | [], s => s
  | [u], s => match viewSlot .mgmt off with
    | some k => slotWrite s k (off % 256) 4 u
    | none => s
  | u :: v :: rest, s =>
    match viewSlot .mgmt off with
    | none => mgmtUnits (off + 4) (v :: rest) s
    | some k =>
      if off % 256 = 0 then
        let h := u + v * 2 ^ 32
        let s := if h.testBit 63 ∧ !rest.isEmpty then discardWrite s else slotWrite s k 0 8 h
        mgmtUnits (off + 8) rest s
      else mgmtUnits (off + 4) (v :: rest) (slotWrite s k (off % 256) 4 u)

/-- The little-endian 4-byte units of a list of bytes. -/
def unitsOf : List Byte → List Nat
  | a :: b :: c :: d :: r => bytesNat [a, b, c, d] :: unitsOf r
  | _ => []

/-- A private write's data at an offset (R323). -/
def mgmtWrite (s : State) (off : Nat) (data : List Byte) : State :=
  if off % 4 ≠ 0 ∨ data.length % 4 ≠ 0 then discardWrite s
  else if data.isEmpty then { s with host := { s.host with mgmtOffset := off } }
  else mgmtUnits off (unitsOf data) s

/-- A private write: a 2-byte window offset and data (R323). -/
def privateWrite (s : State) (bs : List Byte) : State :=
  match bs with
  | a :: b :: data => mgmtWrite s (bytesNat [a, b]) data
  | _ => discardWrite s

/-- What a private read returns (R323): the mirror in the management port's view, from the offset that the last private write of only an offset
set, for as many bytes as the controller reads. -/
def privateRead (s : State) (n : Nat) : List Byte :=
  (List.range n).map (fun i =>
    let o := s.host.mgmtOffset + i
    (windowRead s .mgmt o).extractLsb' (o % 8 * 8) 8)

/-- What the target answers on the bus (R323), once it has a dynamic address. -/
def i3cAnswer (s : State) (bs : List Byte) : State :=
  if s.host.i3cAddress.isSome then { s with host := { s.host with i3cOut := bs } } else s

/-- The provisional ID: part-ID bits [31:16] carry CMD_ID_MEMBER bits [23:8]; the rest is not stated (R323, log 7). -/
def i3cPid : BitVec 48 := Config.i3cProvisionalRest.extractLsb' 32 16 ++ 0x0400#16 ++ Config.i3cProvisionalRest.extractLsb' 0 16

/-- BCR: no controller role, no HDR, no in-band interrupt; bits 4, 3 and 0 are not stated (R323, log 7). -/
def i3cBcr : BitVec 8 := Config.i3cBcrRest &&& 0x19#8

/-- The bytes of a value, most significant first, as the bus sends them. -/
def busBytes (n v : Nat) : List Byte := (natBytes n v).reverse

/-- WINDOW_WRITE (R305): a write of the host port; one of the management port in its own view (R323); the debug port does not reach the
window (R324). -/
def execWindowWrite (port : Port) (offset : BitVec 16) (size : Nat) (value : BitVec 64) (s : State) :
    Host.Outcome State Fault Refusal :=
  .next (settle (match port with
    | .host => windowWrite s offset.toNat size value.toNat
    | .mgmt => if size ≠ 4 ∧ size ≠ 8 then discardWrite s else mgmtWrite s offset.toNat (natBytes size value.toNat)
    | .debug => s))

/-- COUNTER_FREEZE (R71). -/
def execCounterFreeze (blk : CounterBlock) (hold : Bool) (s : State) : Host.Outcome State Fault Refusal :=
  .next (ctlWrite s (blockBase blk) hold false)

/-- COUNTER_CLEAR (R71). FREEZE stays as it is. -/
def execCounterClear (blk : CounterBlock) (s : State) : Host.Outcome State Fault Refusal :=
  .next (ctlWrite s (blockBase blk) (ctrFrozen s (blockBase blk)) true)

/-- EVACUATE (R236). -/
def execEvacuate (module : BitVec 4) (s : State) : Host.Outcome State Fault Refusal := .next (settle (evacuate s module.toNat))

/-- ENTDAA (R323): a target without a dynamic address takes one, answering its provisional ID, BCR and DCR. -/
def execEntdaa (address : BitVec 7) (s : State) : Host.Outcome State Fault Refusal :=
  .next (if s.host.i3cAddress.isSome then s
    else { s with host := { s.host with
      i3cAddress := some address
      i3cOut := busBytes 6 i3cPid.toNat ++ [i3cBcr] ++ [Config.i3cDcr] } })

/-- RSTDAA (R323). -/
def execRstdaa (s : State) : Host.Outcome State Fault Refusal := .next { s with host := { s.host with i3cAddress := none } }

/-- GETPID (R323). -/
def execGetpid (s : State) : Host.Outcome State Fault Refusal := .next (i3cAnswer s (busBytes 6 i3cPid.toNat))

/-- GETBCR (R323). -/
def execGetbcr (s : State) : Host.Outcome State Fault Refusal := .next (i3cAnswer s [i3cBcr])

/-- GETDCR (R323). -/
def execGetdcr (s : State) : Host.Outcome State Fault Refusal := .next (i3cAnswer s [Config.i3cDcr])

/-- GETSTATUS (R323): the status is not stated (log 7). -/
def execGetstatus (s : State) : Host.Outcome State Fault Refusal :=
  .next (i3cAnswer { s with freeCtr := s.freeCtr + 1 } (busBytes 2 (Config.i3cStatus s.freeCtr).toNat))

/-- GETMXDS (R323). -/
def execGetmxds (s : State) : Host.Outcome State Fault Refusal := .next (i3cAnswer s (busBytes 2 Config.i3cMaxDataSpeed.toNat))

/-- I3C_PRIVATE_WRITE (R323): a target without a dynamic address is not addressed. -/
def execI3cPrivateWrite (bytes : List Byte) (s : State) : Host.Outcome State Fault Refusal :=
  .next (if s.host.i3cAddress.isSome then settle (privateWrite s bytes) else s)

/-! ### The debug port (R324) -/

/-- The TAP instruction and data register: 0 BYPASS, 1 IDCODE, 2 DBG_SLOT. -/
def setTap (s : State) (ir : BitVec 2) (dr : SlotWord) : State := { s with host := { s.host with tapIr := ir, tapDr := dr } }

/-- IDCODE: MEMBER in the part-number field, bit 0 set (IEEE 1149.1); the rest is not stated (log 7). -/
def idcodeWord : BitVec 32 :=
  Config.idcodeRest.extractLsb' 20 12 ++ 0x04#8 ++ Config.idcodeRest.extractLsb' 1 11 ++ 1#1

/-- BYPASS (R324): the one-bit register takes TDI. -/
def execBypass (tdi : Bool) (s : State) : Host.Outcome State Fault Refusal :=
  .next (setTap s 0 (BitVec.ofNat 2048 (bit tdi)))

/-- IDCODE (R324). -/
def execIdcode (s : State) : Host.Outcome State Fault Refusal := .next (setTap s 1 (idcodeWord.setWidth 2048))

/-- DBG_SLOT_CAPTURE (R324): the data register takes the debug slot; a locked port selects BYPASS. -/
def execDbgSlotCapture (s : State) : Host.Outcome State Fault Refusal :=
  .next (if s.host.debugUnlocked then setTap s 2 (slotAt s 68) else { s with host := { s.host with tapIr := 0 } })

/-- DBG_SLOT_UPDATE (R324): the register written into the slot, hdr last, as a handover when its OWN is 1. -/
def execDbgSlotUpdate (scanned : SlotWord) (s : State) : Host.Outcome State Fault Refusal :=
  .next (if !s.host.debugUnlocked then { s with host := { s.host with tapIr := 0 } }
    else
      let s := setTap s 2 scanned
      settle (if slotOwned s 68 then discardWrite s
        else if scanned.getLsbD 63 then handSlot s 68 scanned else setSlot s 68 scanned))

end Sys2Proof.Machine
end

