-- ==== Sys2Proof/Machine/Rows.lean ====
section
/-! DEFINITION. One meaning for each remaining row: the events of placement, plan steps, pages, translation, streams, remote writes and
update units, and the instructions of stream code and of update programs. -/
namespace Sys2Proof.Machine

/-! ### Scheduling and plan steps -/

/-- COMMAND_PLACE (R338). -/
def execCommandPlace (s : State) : Host.Outcome State Fault Refusal :=
  .next (settle (commandPlace s))

/-- PLAN_STEP_START (R60, R366). -/
def execPlanStepStart (cluster : BitVec 5) (s : State) : Host.Outcome State Fault Refusal :=
  .next (settle (planStepStart s cluster.toNat))

/-- PLAN_STEP_COMMIT (R366). -/
def execPlanStepCommit (cluster : BitVec 5) (s : State) : Host.Outcome State Fault Refusal :=
  .next (settle (planStepCommit s cluster.toNat))

/-- DRAIN_DONE (R366). -/
def execDrainDone (cluster : BitVec 5) (record : BitVec 2) (s : State) : Host.Outcome State Fault Refusal :=
  .next (settle (drainDone s cluster.toNat record.toNat))

/-- COMBINE_NODE (R43, R87). -/
def execCombineNode (cluster : BitVec 5) (level : BitVec 4) (first : BitVec 10) (s : State) : Host.Outcome State Fault Refusal :=
  .next (settle (combineNode s cluster.toNat level.toNat first.toNat))

/-- ARRAY_PARITY (R65). -/
def execArrayParity (core : BitVec 8) (correctable : Bool) (s : State) : Host.Outcome State Fault Refusal :=
  .next (settle (arrayParity s core.toNat correctable))

/-! ### Pages and far modules -/

/-- ALLOC_WAIT_SATISFIED (R119). -/
def execAllocWaitSatisfied (s : State) : Host.Outcome State Fault Refusal :=
  .next (settle (allocSatisfied s))

/-- ALLOC_TIMEOUT (R119). -/
def execAllocTimeout (s : State) : Host.Outcome State Fault Refusal :=
  .next (settle (allocTimeout s))

/-- MOVE_COMMIT (R123). -/
def execMoveCommit (page : BitVec 32) (s : State) : Host.Outcome State Fault Refusal :=
  .next (settle (commitMove s page.toNat))

/-- RESTORE_COMPLETE (R125). -/
def execRestoreComplete (page : BitVec 32) (s : State) : Host.Outcome State Fault Refusal :=
  .next (settle (restoreComplete s page.toNat))

/-- FAR_REMOVAL_REPORT (R128). -/
def execFarRemovalReport (module : BitVec 4) (s : State) : Host.Outcome State Fault Refusal :=
  .next (settle (farRemoval s module.toNat))

/-- A far-module event word with its event code set (R237). -/
def withEvent (code : BitVec 8) (e : BitVec 64) : BitVec 64 := code ++ e.extractLsb' 0 56

/-- Whether R237 handles an event as reserved. -/
def eventReserved (e : Nat) : Bool :=
  match e / 2 ^ 56 % 256 with
  | 1 => !enumeratedOk e
  | 2 => false
  | 3 => false
  | _ => true

/-- ENUMERATED (R236, R237). -/
def execEnumerated (event : BitVec 64) (s : State) : Host.Outcome State Fault Refusal :=
  .next (settle (acceptFarEvent s (withEvent 1 event)))

/-- LINK_DOWN (R236, R237). -/
def execLinkDown (event : BitVec 64) (s : State) : Host.Outcome State Fault Refusal :=
  .next (settle (acceptFarEvent s (withEvent 2 event)))

/-- REMOVED (R236, R237). -/
def execRemoved (event : BitVec 64) (s : State) : Host.Outcome State Fault Refusal :=
  .next (settle (acceptFarEvent s (withEvent 3 event)))

/-- FAR_EVENT_RESERVED (R237): an event that is not reserved is another row's. -/
def execFarEventReserved (event : BitVec 64) (s : State) : Host.Outcome State Fault Refusal :=
  .next (settle (if eventReserved event.toNat then acceptFarEvent s event else s))

/-- EVACUATION_END (R236, R239). -/
def execEvacuationEnd (module : BitVec 4) (s : State) : Host.Outcome State Fault Refusal :=
  .next (settle (evacuationEnd s module.toNat))

/-- EVAC_TIMEOUT (R236). -/
def execEvacTimeout (module : BitVec 4) (s : State) : Host.Outcome State Fault Refusal :=
  .next (settle (evacTimeout s module.toNat))

/-- WALK_END (R246). -/
def execWalkEnd (die : BitVec 3) (entry : BitVec 6) (s : State) : Host.Outcome State Fault Refusal :=
  .next (settle (walkEnd s die.toNat entry.toNat))

/-! ### Streams -/

/-- TRANSFER_COMPLETE (R192). -/
def execTransferComplete (core : BitVec 8) (queue : BitVec 3) (index : BitVec 6) (flip : List Granule) (s : State) :
    Host.Outcome State Fault Refusal :=
  .next (settle (transferComplete s core.toNat queue.toNat index.toNat flip))

/-- BASKET_ARRIVAL (R203). -/
def execBasketArrival (core : BitVec 8) (queue : BitVec 3) (s : State) : Host.Outcome State Fault Refusal :=
  .next (settle (basketArrival s core.toNat queue.toNat))

/-- TAGGED_ACCESS_ADMIT (R169). -/
def execTaggedAccessAdmit (core : BitVec 8) (queue : BitVec 3) (s : State) : Host.Outcome State Fault Refusal :=
  .next (settle (taggedAdmit s core.toNat queue.toNat))

/-- HANG (R172). -/
def execHang (core : BitVec 8) (queue : BitVec 3) (s : State) : Host.Outcome State Fault Refusal :=
  .next (settle (hang s core.toNat queue.toNat))

/-- HANDOFF_DATA_NOTICE (R187). -/
def execHandoffDataNotice (core : BitVec 8) (queue : BitVec 3) (s : State) : Host.Outcome State Fault Refusal :=
  .next (settle (handoffNotice s core.toNat queue.toNat))

/-- MULTICAST_BROADCAST (R222). -/
def execMulticastBroadcast (cluster : BitVec 5) (group : BitVec 2) (s : State) : Host.Outcome State Fault Refusal :=
  .next (settle (multicastBroadcast s cluster.toNat group.toNat))

/-- MULTICAST_DETACH (R224). -/
def execMulticastDetach (cluster : BitVec 5) (group : BitVec 2) (receiver : BitVec 3) (s : State) : Host.Outcome State Fault Refusal :=
  .next (settle (multicastDetach s cluster.toNat group.toNat receiver.toNat))

/-! ### Remote writes -/

/-- ORDINARY_REMOTE_WRITE (R175, R177): a request whose physical source is an ordinary writer. -/
def execOrdinaryRemoteWrite (src : BitVec 16) (req : Word128) (data : List (Word128 × Bool)) (s : State) :
    Host.Outcome State Fault Refusal :=
  .next (settle (if src.toNat < 0x8000 then remotePort s src req data else s))

/-- PRIVILEGED_REMOTE_WRITE (R175, R183): a request whose physical source is a privileged writer. -/
def execPrivilegedRemoteWrite (src : BitVec 16) (req : Word128) (data : List (Word128 × Bool)) (s : State) :
    Host.Outcome State Fault Refusal :=
  .next (settle (if src.toNat < 0x8000 then s else remotePort s src req data))

/-- The oldest acknowledgement or refusal that a test admits reaches its sender (R176). -/
def deliverAck (s : State) (p : AckMsg → Bool) : State :=
  match s.spad.acks.find? p with
  | none => s
  | some a => { s with spad := { s.spad with acks := removeFirst p s.spad.acks, returned := s.spad.returned ++ [a] } }

/-- The code of an acknowledgement: 0 for an ACK (R176). -/
def ackCode (a : AckMsg) : Nat := (a.word.extractLsb' 120 8).toNat

/-- WRITE_ACK (R176): writes admitted before have completed by then (R189; log 39). -/
def execWriteAck (s : State) : Host.Outcome State Fault Refusal :=
  .next (deliverAck (completeWrites s (fun _ => true)) (fun a => ackCode a == 0))

/-- WRITE_NAK (R176). -/
def execWriteNak (s : State) : Host.Outcome State Fault Refusal :=
  .next (deliverAck s (fun a => ackCode a ≠ 0))

/-- WINDOW_CLOSE_COMPLETE (R182, R183). -/
def execWindowCloseComplete (core : BitVec 8) (win : BitVec 3) (s : State) : Host.Outcome State Fault Refusal :=
  .next (windowClose s core.toNat win.toNat)

/-- WINDOW_REOPEN (R182, R185). -/
def execWindowReopen (core : BitVec 8) (win : BitVec 3) (s : State) : Host.Outcome State Fault Refusal :=
  .next (settle (windowReopen s core.toNat win.toNat))

/-! ### Stream code (R201) -/

/-- ADD (R201). -/
def execAdd (core : BitVec 8) (queue : BitVec 3) (rd : BitVec 4) (sa sb : BitVec 5) (s : State) : Host.Outcome State Fault Refusal :=
  .next (streamAlu s core.toNat queue.toNat 0x1 rd.toNat sa.toNat sb.toNat (fun x y => x + y))

/-- SUB (R201). -/
def execSub (core : BitVec 8) (queue : BitVec 3) (rd : BitVec 4) (sa sb : BitVec 5) (s : State) : Host.Outcome State Fault Refusal :=
  .next (streamAlu s core.toNat queue.toNat 0x2 rd.toNat sa.toNat sb.toNat (fun x y => x - y))

/-- MUL (R201). -/
def execMul (core : BitVec 8) (queue : BitVec 3) (rd : BitVec 4) (sa sb : BitVec 5) (s : State) : Host.Outcome State Fault Refusal :=
  .next (streamAlu s core.toNat queue.toNat 0x3 rd.toNat sa.toNat sb.toNat (fun x y => x * y))

/-- AND (R201). -/
def execAnd (core : BitVec 8) (queue : BitVec 3) (rd : BitVec 4) (sa sb : BitVec 5) (s : State) : Host.Outcome State Fault Refusal :=
  .next (streamAlu s core.toNat queue.toNat 0x4 rd.toNat sa.toNat sb.toNat (fun x y => x &&& y))

/-- OR (R201). -/
def execOr (core : BitVec 8) (queue : BitVec 3) (rd : BitVec 4) (sa sb : BitVec 5) (s : State) : Host.Outcome State Fault Refusal :=
  .next (streamAlu s core.toNat queue.toNat 0x5 rd.toNat sa.toNat sb.toNat (fun x y => x ||| y))

/-- XOR (R201). -/
def execXor (core : BitVec 8) (queue : BitVec 3) (rd : BitVec 4) (sa sb : BitVec 5) (s : State) : Host.Outcome State Fault Refusal :=
  .next (streamAlu s core.toNat queue.toNat 0x6 rd.toNat sa.toNat sb.toNat (fun x y => x ^^^ y))

/-- MIN (R201). -/
def execMin (core : BitVec 8) (queue : BitVec 3) (rd : BitVec 4) (sa sb : BitVec 5) (s : State) : Host.Outcome State Fault Refusal :=
  .next (streamAlu s core.toNat queue.toNat 0x7 rd.toNat sa.toNat sb.toNat (fun x y => if x.toNat ≤ y.toNat then x else y))

/-- MAX (R201). -/
def execMax (core : BitVec 8) (queue : BitVec 3) (rd : BitVec 4) (sa sb : BitVec 5) (s : State) : Host.Outcome State Fault Refusal :=
  .next (streamAlu s core.toNat queue.toNat 0x8 rd.toNat sa.toNat sb.toNat (fun x y => if x.toNat ≤ y.toNat then y else x))

/-- ADDI (R201). -/
def execAddi (core : BitVec 8) (queue : BitVec 3) (rd : BitVec 4) (sa : BitVec 5) (imm : BitVec 17) (s : State) :
    Host.Outcome State Fault Refusal :=
  .next (streamAluImm s core.toNat queue.toNat 0x10 rd.toNat sa.toNat imm (fun x => x + immS imm))

/-- MULI (R201). -/
def execMuli (core : BitVec 8) (queue : BitVec 3) (rd : BitVec 4) (sa : BitVec 5) (imm : BitVec 17) (s : State) :
    Host.Outcome State Fault Refusal :=
  .next (streamAluImm s core.toNat queue.toNat 0x11 rd.toNat sa.toNat imm (fun x => x * immS imm))

/-- SHLI (R201). -/
def execShli (core : BitVec 8) (queue : BitVec 3) (rd : BitVec 4) (sa : BitVec 5) (imm : BitVec 17) (s : State) :
    Host.Outcome State Fault Refusal :=
  .next (streamAluImm s core.toNat queue.toNat 0x12 rd.toNat sa.toNat imm (fun x => x <<< (imm.toNat % 64)))

/-- SHRI (R201). -/
def execShri (core : BitVec 8) (queue : BitVec 3) (rd : BitVec 4) (sa : BitVec 5) (imm : BitVec 17) (s : State) :
    Host.Outcome State Fault Refusal :=
  .next (streamAluImm s core.toNat queue.toNat 0x13 rd.toNat sa.toNat imm (fun x => x >>> (imm.toNat % 64)))

/-- ANDI (R201). -/
def execAndi (core : BitVec 8) (queue : BitVec 3) (rd : BitVec 4) (sa : BitVec 5) (imm : BitVec 17) (s : State) :
    Host.Outcome State Fault Refusal :=
  .next (streamAluImm s core.toNat queue.toNat 0x14 rd.toNat sa.toNat imm (fun x => x &&& imm.zeroExtend 64))

/-- LDS (R201). -/
def execLds (core : BitVec 8) (queue : BitVec 3) (rd : BitVec 4) (sa : BitVec 5) (imm : BitVec 17) (s : State) :
    Host.Outcome State Fault Refusal :=
  .next (streamLds s core.toNat queue.toNat rd.toNat sa.toNat imm)

/-- BZ (R201). -/
def execBz (core : BitVec 8) (queue : BitVec 3) (rd : BitVec 4) (sa : BitVec 5) (imm : BitVec 17) (s : State) :
    Host.Outcome State Fault Refusal :=
  .next (streamBranch s core.toNat queue.toNat 0x18 rd.toNat sa.toNat imm (fun x => x == 0))

/-- BNZ (R201). -/
def execBnz (core : BitVec 8) (queue : BitVec 3) (rd : BitVec 4) (sa : BitVec 5) (imm : BitVec 17) (s : State) :
    Host.Outcome State Fault Refusal :=
  .next (streamBranch s core.toNat queue.toNat 0x19 rd.toNat sa.toNat imm (fun x => x != 0))

/-- EMIT (R201). -/
def execEmit (core : BitVec 8) (queue : BitVec 3) (rd : BitVec 4) (sa sb : BitVec 5) (s : State) : Host.Outcome State Fault Refusal :=
  .next (settle (streamEmit s core.toNat queue.toNat rd.toNat sa.toNat sb.toNat))

/-- EMPTY (R201). -/
def execEmpty (core : BitVec 8) (queue : BitVec 3) (rd : BitVec 4) (sa : BitVec 5) (imm : BitVec 17) (s : State) :
    Host.Outcome State Fault Refusal :=
  .next (settle (streamEmpty s core.toNat queue.toNat rd.toNat sa.toNat imm))

/-- SKIP (R201). -/
def execSkip (core : BitVec 8) (queue : BitVec 3) (rd : BitVec 4) (sa : BitVec 5) (imm : BitVec 17) (s : State) :
    Host.Outcome State Fault Refusal :=
  .next (settle (streamSkip s core.toNat queue.toNat rd.toNat sa.toNat imm))

/-- CWAIT (R201). -/
def execCwait (core : BitVec 8) (queue : BitVec 3) (rd : BitVec 4) (sa : BitVec 5) (imm : BitVec 17) (s : State) :
    Host.Outcome State Fault Refusal :=
  .next (streamCwait s core.toNat queue.toNat rd.toNat sa.toNat imm)

/-- CSET (R201). -/
def execCset (core : BitVec 8) (queue : BitVec 3) (rd : BitVec 4) (sa : BitVec 5) (imm : BitVec 17) (s : State) :
    Host.Outcome State Fault Refusal :=
  .next (settle (streamCset s core.toNat queue.toNat rd.toNat sa.toNat imm))

/-- CSUB (R201). -/
def execCsub (core : BitVec 8) (queue : BitVec 3) (rd : BitVec 4) (sa : BitVec 5) (imm : BitVec 17) (s : State) :
    Host.Outcome State Fault Refusal :=
  .next (streamCsub s core.toNat queue.toNat rd.toNat sa.toNat imm)

/-- CARM (R201). -/
def execCarm (core : BitVec 8) (queue : BitVec 3) (rd : BitVec 4) (sa : BitVec 5) (imm : BitVec 17) (s : State) :
    Host.Outcome State Fault Refusal :=
  .next (settle (streamCarm s core.toNat queue.toNat rd.toNat sa.toNat imm))

/-- WOPEN (R201). -/
def execWopen (core : BitVec 8) (queue : BitVec 3) (rd : BitVec 4) (sa : BitVec 5) (imm : BitVec 17) (s : State) :
    Host.Outcome State Fault Refusal :=
  .next (settle (streamWopen s core.toNat queue.toNat rd.toNat sa.toNat imm))

/-- WCLOSE (R201). -/
def execWclose (core : BitVec 8) (queue : BitVec 3) (rd : BitVec 4) (sa : BitVec 5) (imm : BitVec 17) (s : State) :
    Host.Outcome State Fault Refusal :=
  .next (streamWclose s core.toNat queue.toNat rd.toNat sa.toNat imm)

/-- WWAIT (R201). -/
def execWwait (core : BitVec 8) (queue : BitVec 3) (rd : BitVec 4) (sa : BitVec 5) (imm : BitVec 17) (s : State) :
    Host.Outcome State Fault Refusal :=
  .next (streamWwait s core.toNat queue.toNat rd.toNat sa.toNat imm)

/-- SWAIT (R201). -/
def execSwait (core : BitVec 8) (queue : BitVec 3) (rd : BitVec 4) (sa : BitVec 5) (imm : BitVec 17) (s : State) :
    Host.Outcome State Fault Refusal :=
  .next (streamSwait s core.toNat queue.toNat rd.toNat sa.toNat imm)

/-- SPOST (R201). -/
def execSpost (core : BitVec 8) (queue : BitVec 3) (rd : BitVec 4) (sa : BitVec 5) (imm : BitVec 17) (s : State) :
    Host.Outcome State Fault Refusal :=
  .next (settle (streamSpost s core.toNat queue.toNat rd.toNat sa.toNat imm))

/-- VCRED (R187, R201). -/
def execVcred (core : BitVec 8) (queue : BitVec 3) (rd : BitVec 4) (sa sb : BitVec 5) (s : State) : Host.Outcome State Fault Refusal :=
  .next (settle (streamVcred s core.toNat queue.toNat rd.toNat sa.toNat sb.toNat))

/-- CWAIT_RELEASE (R179). -/
def execCwaitRelease (core : BitVec 8) (queue : BitVec 3) (s : State) : Host.Outcome State Fault Refusal :=
  .next (cwaitRelease s core.toNat queue.toNat)

/-- WWAIT_RELEASE (R202). -/
def execWwaitRelease (core : BitVec 8) (queue : BitVec 3) (s : State) : Host.Outcome State Fault Refusal :=
  .next (wwaitRelease s core.toNat queue.toNat)

/-- SWAIT_RELEASE (R205). -/
def execSwaitRelease (core : BitVec 8) (queue : BitVec 3) (s : State) : Host.Outcome State Fault Refusal :=
  .next (settle (swaitRelease s core.toNat queue.toNat))

/-! ### Update units -/

/-- UPD_ROW_COMMIT (R273). -/
def execUpdRowCommit (stack : BitVec 5) (s : State) : Host.Outcome State Fault Refusal :=
  .next (settle (rowCommit s stack.toNat))

/-- UPD_MUL (R262). -/
def execUpdMul (stack : BitVec 5) (rd ra rb rc : BitVec 5) (s : State) : Host.Outcome State Fault Refusal :=
  .next (unitOp s stack.toNat 1 rd.toNat ra.toNat rb.toNat rc.toNat)

/-- UPD_ADD (R262). -/
def execUpdAdd (stack : BitVec 5) (rd ra rb rc : BitVec 5) (s : State) : Host.Outcome State Fault Refusal :=
  .next (unitOp s stack.toNat 2 rd.toNat ra.toNat rb.toNat rc.toNat)

/-- UPD_FMA (R262). -/
def execUpdFma (stack : BitVec 5) (rd ra rb rc : BitVec 5) (s : State) : Host.Outcome State Fault Refusal :=
  .next (unitOp s stack.toNat 3 rd.toNat ra.toNat rb.toNat rc.toNat)

/-- UPD_SQRT (R262). -/
def execUpdSqrt (stack : BitVec 5) (rd ra rb rc : BitVec 5) (s : State) : Host.Outcome State Fault Refusal :=
  .next (unitOp s stack.toNat 4 rd.toNat ra.toNat rb.toNat rc.toNat)

/-- UPD_RSQRT (R262). -/
def execUpdRsqrt (stack : BitVec 5) (rd ra rb rc : BitVec 5) (s : State) : Host.Outcome State Fault Refusal :=
  .next (unitOp s stack.toNat 5 rd.toNat ra.toNat rb.toNat rc.toNat)

/-- UPD_DIV (R262). -/
def execUpdDiv (stack : BitVec 5) (rd ra rb rc : BitVec 5) (s : State) : Host.Outcome State Fault Refusal :=
  .next (unitOp s stack.toNat 6 rd.toNat ra.toNat rb.toNat rc.toNat)

/-- UPD_MAX (R262). -/
def execUpdMax (stack : BitVec 5) (rd ra rb rc : BitVec 5) (s : State) : Host.Outcome State Fault Refusal :=
  .next (unitOp s stack.toNat 7 rd.toNat ra.toNat rb.toNat rc.toNat)

/-- UPD_SEL (R262). -/
def execUpdSel (stack : BitVec 5) (rd ra rb rc : BitVec 5) (s : State) : Host.Outcome State Fault Refusal :=
  .next (unitOp s stack.toNat 8 rd.toNat ra.toNat rb.toNat rc.toNat)

/-- UPD_RNDR (R262). -/
def execUpdRndr (stack : BitVec 5) (rd ra rb rc : BitVec 5) (s : State) : Host.Outcome State Fault Refusal :=
  .next (unitOp s stack.toNat 9 rd.toNat ra.toNat rb.toNat rc.toNat)

end Sys2Proof.Machine
end

