-- ==== Sys2Proof/Machine/Scrub.lean ====
section
/-! DEFINITION. The scrub of a stack (spec/16_errors.md R409, R418, spec/05_kv_pages.md R127). -/
namespace Sys2Proof.Machine

/-- SCRUB (R409): the memory-side unit of a stack reads a granule, which `flip` has changed since it was written, and writes a corrected
granule back, or an uncorrectable one as poison. Scrubbing pauses in K5. -/
def execScrub (stack : BitVec 5) (granule : BitVec 48) (flip : Granule) (s : State) : Host.Outcome State Fault Refusal :=
  let pa := granule.toNat
  if pa ≥ 2 ^ 42 ∨ pa % 16 ≠ 0 ∨ pa % 2 ^ 39 ≥ 0x6000000000 ∨ stackOf pa ≠ stack.toNat then .fault .noSuchGranule
  else if !dieCommonOn s || isFenced s (0xC080 + stack.toNat) then .next s
  else
    let x := s.pmem.granule pa ^^^ flip
    let o := decodeOutcome x
    let s := codeRecord s { die := pa / 2 ^ 39 } (0xC080 + stack.toNat) 5 pa o true
    .next (match o with
      | .corrected i e => { s with pmem := s.pmem.setGranule pa (correctSymbol x i e) }
      | .uncorrectable => markBad { s with pmem := s.pmem.setWord pa (granuleData x) true } pa
      | _ => { s with pmem := s.pmem.setGranule pa x })

end Sys2Proof.Machine
end

