-- ==== Sys2Proof/Machine/Dispatch.lean ====
section
/-! DEFINITION. What each command does: one arm per constructor of Instr. -/
namespace Sys2Proof.Machine

/-- The effect of a command on everything but the queue (R305, R317 and the chapters of the rows). -/
def exec (i : Instr) (s : State) : Host.Outcome State Fault Refusal :=
  match i with
  | .windowWrite port offset size value => Sys2Proof.Machine.execWindowWrite port offset size value s
  | .counterFreeze blk hold => Sys2Proof.Machine.execCounterFreeze blk hold s
  | .counterClear blk => Sys2Proof.Machine.execCounterClear blk s
  | .evacuate module => Sys2Proof.Machine.execEvacuate module s
  | .invalidOpcode port slot hdr => Sys2Proof.Machine.execInvalidOpcode port slot hdr s
  | .waitingCommandAdmit => Sys2Proof.Machine.execWaitingCommandAdmit s
  | .interimStatusRefresh port slot => Sys2Proof.Machine.execInterimStatusRefresh port slot s
  | .cfgRead port slot hdr => Sys2Proof.Machine.execCfgRead port slot hdr s
  | .cfgWrite port slot hdr => Sys2Proof.Machine.execCfgWrite port slot hdr s
  | .cfgCommit port slot hdr => Sys2Proof.Machine.execCfgCommit port slot hdr s
  | .cfgDiscard port slot hdr => Sys2Proof.Machine.execCfgDiscard port slot hdr s
  | .drainQuiescent => Sys2Proof.Machine.execDrainQuiescent s
  | .cfgStatus port slot hdr => Sys2Proof.Machine.execCfgStatus port slot hdr s
  | .seqCreate port slot hdr => Sys2Proof.Machine.execSeqCreate port slot hdr s
  | .seqFork port slot hdr => Sys2Proof.Machine.execSeqFork port slot hdr s
  | .seqFree port slot hdr => Sys2Proof.Machine.execSeqFree port slot hdr s
  | .seqTruncate port slot hdr => Sys2Proof.Machine.execSeqTruncate port slot hdr s
  | .prefixLookup port slot hdr => Sys2Proof.Machine.execPrefixLookup port slot hdr s
  | .prefixPublish port slot hdr => Sys2Proof.Machine.execPrefixPublish port slot hdr s
  | .prefixWithdraw port slot hdr => Sys2Proof.Machine.execPrefixWithdraw port slot hdr s
  | .kvDemote port slot hdr => Sys2Proof.Machine.execKvDemote port slot hdr s
  | .kvPromote port slot hdr => Sys2Proof.Machine.execKvPromote port slot hdr s
  | .kvRecomputeList port slot hdr => Sys2Proof.Machine.execKvRecomputeList port slot hdr s
  | .attnFwd port slot hdr => Sys2Proof.Machine.execAttnFwd port slot hdr s
  | .attnBwd port slot hdr => Sys2Proof.Machine.execAttnBwd port slot hdr s
  | .proj port slot hdr => Sys2Proof.Machine.execProj port slot hdr s
  | .matmul port slot hdr => Sys2Proof.Machine.execMatmul port slot hdr s
  | .planLoad port slot hdr => Sys2Proof.Machine.execPlanLoad port slot hdr s
  | .planUnload port slot hdr => Sys2Proof.Machine.execPlanUnload port slot hdr s
  | .streamArm port slot hdr => Sys2Proof.Machine.execStreamArm port slot hdr s
  | .streamRearm port slot hdr => Sys2Proof.Machine.execStreamRearm port slot hdr s
  | .streamHalt port slot hdr => Sys2Proof.Machine.execStreamHalt port slot hdr s
  | .updProgramLoad port slot hdr => Sys2Proof.Machine.execUpdProgramLoad port slot hdr s
  | .updStep port slot hdr => Sys2Proof.Machine.execUpdStep port slot hdr s
  | .updRowCommit stack => Sys2Proof.Machine.execUpdRowCommit stack s
  | .updMul stack rd ra rb rc => Sys2Proof.Machine.execUpdMul stack rd ra rb rc s
  | .updAdd stack rd ra rb rc => Sys2Proof.Machine.execUpdAdd stack rd ra rb rc s
  | .updFma stack rd ra rb rc => Sys2Proof.Machine.execUpdFma stack rd ra rb rc s
  | .updSqrt stack rd ra rb rc => Sys2Proof.Machine.execUpdSqrt stack rd ra rb rc s
  | .updRsqrt stack rd ra rb rc => Sys2Proof.Machine.execUpdRsqrt stack rd ra rb rc s
  | .updDiv stack rd ra rb rc => Sys2Proof.Machine.execUpdDiv stack rd ra rb rc s
  | .updMax stack rd ra rb rc => Sys2Proof.Machine.execUpdMax stack rd ra rb rc s
  | .updSel stack rd ra rb rc => Sys2Proof.Machine.execUpdSel stack rd ra rb rc s
  | .updRndr stack rd ra rb rc => Sys2Proof.Machine.execUpdRndr stack rd ra rb rc s
  | .linkStatus port slot hdr => Sys2Proof.Machine.execLinkStatus port slot hdr s
  | .linkAttach port slot hdr => Sys2Proof.Machine.execLinkAttach port slot hdr s
  | .linkDetach port slot hdr => Sys2Proof.Machine.execLinkDetach port slot hdr s
  | .fwLoad port slot hdr => Sys2Proof.Machine.execFwLoad port slot hdr s
  | .fwStart port slot hdr => Sys2Proof.Machine.execFwStart port slot hdr s
  | .fwHandover port slot hdr => Sys2Proof.Machine.execFwHandover port slot hdr s
  | .logRead port slot hdr => Sys2Proof.Machine.execLogRead port slot hdr s
  | .logStatus port slot hdr => Sys2Proof.Machine.execLogStatus port slot hdr s
  | .traceCtlEnable port slot hdr => Sys2Proof.Machine.execTraceCtlEnable port slot hdr s
  | .traceCtlDisable port slot hdr => Sys2Proof.Machine.execTraceCtlDisable port slot hdr s
  | .traceCtlDisableAll port slot hdr => Sys2Proof.Machine.execTraceCtlDisableAll port slot hdr s
  | .traceCtlCount port slot hdr => Sys2Proof.Machine.execTraceCtlCount port slot hdr s
  | .pwrModeQuery port slot hdr => Sys2Proof.Machine.execPwrModeQuery port slot hdr s
  | .pwrModeSet port slot hdr => Sys2Proof.Machine.execPwrModeSet port slot hdr s
  | .pwrHintSet port slot hdr => Sys2Proof.Machine.execPwrHintSet port slot hdr s
  | .pwrHintClear port slot hdr => Sys2Proof.Machine.execPwrHintClear port slot hdr s
  | .pwrHintClearAll port slot hdr => Sys2Proof.Machine.execPwrHintClearAll port slot hdr s
  | .hintExpiry index => Sys2Proof.Machine.execHintExpiry index s
  | .faultFetch port slot hdr => Sys2Proof.Machine.execFaultFetch port slot hdr s
  | .faultResolve port slot hdr => Sys2Proof.Machine.execFaultResolve port slot hdr s
  | .errFetch port slot hdr => Sys2Proof.Machine.execErrFetch port slot hdr s
  | .errFetchCounters port slot hdr => Sys2Proof.Machine.execErrFetchCounters port slot hdr s
  | .errClear port slot hdr => Sys2Proof.Machine.execErrClear port slot hdr s
  | .sessionOpen port slot hdr => Sys2Proof.Machine.execSessionOpen port slot hdr s
  | .sessionAdopt port slot hdr => Sys2Proof.Machine.execSessionAdopt port slot hdr s
  | .sessionClose port slot hdr => Sys2Proof.Machine.execSessionClose port slot hdr s
  | .leaseRenew port slot hdr => Sys2Proof.Machine.execLeaseRenew port slot hdr s
  | .attach port slot hdr => Sys2Proof.Machine.execAttach port slot hdr s
  | .nop port slot hdr => Sys2Proof.Machine.execNop port slot hdr s
  | .debugUnlock => Sys2Proof.Machine.execDebugUnlock s
  | .debugLock => Sys2Proof.Machine.execDebugLock s
  | .entdaa address => Sys2Proof.Machine.execEntdaa address s
  | .rstdaa => Sys2Proof.Machine.execRstdaa s
  | .getpid => Sys2Proof.Machine.execGetpid s
  | .getbcr => Sys2Proof.Machine.execGetbcr s
  | .getdcr => Sys2Proof.Machine.execGetdcr s
  | .getstatus => Sys2Proof.Machine.execGetstatus s
  | .getmxds => Sys2Proof.Machine.execGetmxds s
  | .i3cPrivateWrite bytes => Sys2Proof.Machine.execI3cPrivateWrite bytes s
  | .bypass tdi => Sys2Proof.Machine.execBypass tdi s
  | .idcode => Sys2Proof.Machine.execIdcode s
  | .dbgSlotCapture => Sys2Proof.Machine.execDbgSlotCapture s
  | .dbgSlotUpdate scanned => Sys2Proof.Machine.execDbgSlotUpdate scanned s
  | .commandPlace => Sys2Proof.Machine.execCommandPlace s
  | .planStepStart cluster => Sys2Proof.Machine.execPlanStepStart cluster s
  | .planStepCommit cluster => Sys2Proof.Machine.execPlanStepCommit cluster s
  | .drainDone cluster record => Sys2Proof.Machine.execDrainDone cluster record s
  | .combineNode cluster level first => Sys2Proof.Machine.execCombineNode cluster level first s
  | .allocWaitSatisfied => Sys2Proof.Machine.execAllocWaitSatisfied s
  | .allocTimeout => Sys2Proof.Machine.execAllocTimeout s
  | .moveCommit page => Sys2Proof.Machine.execMoveCommit page s
  | .restoreComplete page => Sys2Proof.Machine.execRestoreComplete page s
  | .farRemovalReport module => Sys2Proof.Machine.execFarRemovalReport module s
  | .enumerated event => Sys2Proof.Machine.execEnumerated event s
  | .linkDown event => Sys2Proof.Machine.execLinkDown event s
  | .removed event => Sys2Proof.Machine.execRemoved event s
  | .farEventReserved event => Sys2Proof.Machine.execFarEventReserved event s
  | .evacuationEnd module => Sys2Proof.Machine.execEvacuationEnd module s
  | .evacTimeout module => Sys2Proof.Machine.execEvacTimeout module s
  | .walkEnd die entry => Sys2Proof.Machine.execWalkEnd die entry s
  | .transferComplete core queue index flip => Sys2Proof.Machine.execTransferComplete core queue index flip s
  | .basketArrival core queue => Sys2Proof.Machine.execBasketArrival core queue s
  | .taggedAccessAdmit core queue => Sys2Proof.Machine.execTaggedAccessAdmit core queue s
  | .hang core queue => Sys2Proof.Machine.execHang core queue s
  | .ordinaryRemoteWrite src req data => Sys2Proof.Machine.execOrdinaryRemoteWrite src req data s
  | .privilegedRemoteWrite src req data => Sys2Proof.Machine.execPrivilegedRemoteWrite src req data s
  | .writeAck => Sys2Proof.Machine.execWriteAck s
  | .writeNak => Sys2Proof.Machine.execWriteNak s
  | .windowCloseComplete core win => Sys2Proof.Machine.execWindowCloseComplete core win s
  | .windowReopen core win => Sys2Proof.Machine.execWindowReopen core win s
  | .handoffDataNotice core queue => Sys2Proof.Machine.execHandoffDataNotice core queue s
  | .multicastBroadcast cluster group => Sys2Proof.Machine.execMulticastBroadcast cluster group s
  | .multicastDetach cluster group receiver => Sys2Proof.Machine.execMulticastDetach cluster group receiver s
  | .add core queue rd sa sb => Sys2Proof.Machine.execAdd core queue rd sa sb s
  | .sub core queue rd sa sb => Sys2Proof.Machine.execSub core queue rd sa sb s
  | .mul core queue rd sa sb => Sys2Proof.Machine.execMul core queue rd sa sb s
  | .and core queue rd sa sb => Sys2Proof.Machine.execAnd core queue rd sa sb s
  | .or core queue rd sa sb => Sys2Proof.Machine.execOr core queue rd sa sb s
  | .xor core queue rd sa sb => Sys2Proof.Machine.execXor core queue rd sa sb s
  | .min core queue rd sa sb => Sys2Proof.Machine.execMin core queue rd sa sb s
  | .max core queue rd sa sb => Sys2Proof.Machine.execMax core queue rd sa sb s
  | .addi core queue rd sa imm => Sys2Proof.Machine.execAddi core queue rd sa imm s
  | .muli core queue rd sa imm => Sys2Proof.Machine.execMuli core queue rd sa imm s
  | .shli core queue rd sa imm => Sys2Proof.Machine.execShli core queue rd sa imm s
  | .shri core queue rd sa imm => Sys2Proof.Machine.execShri core queue rd sa imm s
  | .andi core queue rd sa imm => Sys2Proof.Machine.execAndi core queue rd sa imm s
  | .lds core queue rd sa imm => Sys2Proof.Machine.execLds core queue rd sa imm s
  | .bz core queue rd sa imm => Sys2Proof.Machine.execBz core queue rd sa imm s
  | .bnz core queue rd sa imm => Sys2Proof.Machine.execBnz core queue rd sa imm s
  | .emit core queue rd sa sb => Sys2Proof.Machine.execEmit core queue rd sa sb s
  | .empty core queue rd sa imm => Sys2Proof.Machine.execEmpty core queue rd sa imm s
  | .skip core queue rd sa imm => Sys2Proof.Machine.execSkip core queue rd sa imm s
  | .cwait core queue rd sa imm => Sys2Proof.Machine.execCwait core queue rd sa imm s
  | .cwaitRelease core queue => Sys2Proof.Machine.execCwaitRelease core queue s
  | .cset core queue rd sa imm => Sys2Proof.Machine.execCset core queue rd sa imm s
  | .csub core queue rd sa imm => Sys2Proof.Machine.execCsub core queue rd sa imm s
  | .carm core queue rd sa imm => Sys2Proof.Machine.execCarm core queue rd sa imm s
  | .wopen core queue rd sa imm => Sys2Proof.Machine.execWopen core queue rd sa imm s
  | .wclose core queue rd sa imm => Sys2Proof.Machine.execWclose core queue rd sa imm s
  | .wwait core queue rd sa imm => Sys2Proof.Machine.execWwait core queue rd sa imm s
  | .wwaitRelease core queue => Sys2Proof.Machine.execWwaitRelease core queue s
  | .swait core queue rd sa imm => Sys2Proof.Machine.execSwait core queue rd sa imm s
  | .swaitRelease core queue => Sys2Proof.Machine.execSwaitRelease core queue s
  | .spost core queue rd sa imm => Sys2Proof.Machine.execSpost core queue rd sa imm s
  | .vcred core queue rd sa sb => Sys2Proof.Machine.execVcred core queue rd sa sb s
  | .ringReq die up hdr granules => Sys2Proof.Machine.execRingReq die up hdr granules s
  | .ringData die up hdr granules => Sys2Proof.Machine.execRingData die up hdr granules s
  | .ringWrite die up hdr granules => Sys2Proof.Machine.execRingWrite die up hdr granules s
  | .ringAck die up hdr granules => Sys2Proof.Machine.execRingAck die up hdr granules s
  | .ringNak die up hdr granules => Sys2Proof.Machine.execRingNak die up hdr granules s
  | .ringCredit die up hdr granules => Sys2Proof.Machine.execRingCredit die up hdr granules s
  | .ringIdle die up hdr granules => Sys2Proof.Machine.execRingIdle die up hdr granules s
  | .ringReservedFlit die up hdr granules => Sys2Proof.Machine.execRingReservedFlit die up hdr granules s
  | .ringLinkDown die up => Sys2Proof.Machine.execRingLinkDown die up s
  | .ktlIdle port frame => Sys2Proof.Machine.execKtlIdle port frame s
  | .dataWin port frame => Sys2Proof.Machine.execDataWin port frame s
  | .dataRing port frame => Sys2Proof.Machine.execDataRing port frame s
  | .ktlCredit port frame => Sys2Proof.Machine.execKtlCredit port frame s
  | .done port frame => Sys2Proof.Machine.execDone port frame s
  | .refuse port frame => Sys2Proof.Machine.execRefuse port frame s
  | .echo port frame => Sys2Proof.Machine.execEcho port frame s
  | .echoReply port frame => Sys2Proof.Machine.execEchoReply port frame s
  | .clock port frame => Sys2Proof.Machine.execClock port frame s
  | .ktlNak port frame => Sys2Proof.Machine.execKtlNak port frame s
  | .detach port frame => Sys2Proof.Machine.execDetach port frame s
  | .detachAck port frame => Sys2Proof.Machine.execDetachAck port frame s
  | .ident port frame => Sys2Proof.Machine.execIdent port frame s
  | .topo port frame => Sys2Proof.Machine.execTopo port frame s
  | .ktlReservedFrame port frame => Sys2Proof.Machine.execKtlReservedFrame port frame s
  | .ktlForward port frame => Sys2Proof.Machine.execKtlForward port frame s
  | .signalDetect port lanes => Sys2Proof.Machine.execSignalDetect port lanes s
  | .laneLock port lanes inverted reversed => Sys2Proof.Machine.execLaneLock port lanes inverted reversed s
  | .identResend port => Sys2Proof.Machine.execIdentResend port s
  | .trainTimeout port => Sys2Proof.Machine.execTrainTimeout port s
  | .identTimeout port => Sys2Proof.Machine.execIdentTimeout port s
  | .lockLost port => Sys2Proof.Machine.execLockLost port s
  | .replayLimit port => Sys2Proof.Machine.execReplayLimit port s
  | .retrainTimeout port => Sys2Proof.Machine.execRetrainTimeout port s
  | .drainTimeout port => Sys2Proof.Machine.execDrainTimeout port s
  | .retrainHoldExpiry port => Sys2Proof.Machine.execRetrainHoldExpiry port s
  | .e2eTimeout slot => Sys2Proof.Machine.execE2eTimeout slot s
  | .slackCheck slot => Sys2Proof.Machine.execSlackCheck slot s
  | .deadlineMiss slot => Sys2Proof.Machine.execDeadlineMiss slot s
  | .leaseExpiry => Sys2Proof.Machine.execLeaseExpiry s
  | .graceExpiry => Sys2Proof.Machine.execGraceExpiry s
  | .adoptionWindowExpiry => Sys2Proof.Machine.execAdoptionWindowExpiry s
  | .watchdogKick proc => Sys2Proof.Machine.execWatchdogKick proc s
  | .watchdogExpiry proc pc => Sys2Proof.Machine.execWatchdogExpiry proc pc s
  | .trap proc pc inHandler => Sys2Proof.Machine.execTrap proc pc inHandler s
  | .haltWrite proc pc => Sys2Proof.Machine.execHaltWrite proc pc s
  | .localMemoryUe proc pc => Sys2Proof.Machine.execLocalMemoryUe proc pc s
  | .cccRestart cluster => Sys2Proof.Machine.execCccRestart cluster s
  | .schRestart => Sys2Proof.Machine.execSchRestart s
  | .pwrRestart => Sys2Proof.Machine.execPwrRestart s
  | .secRestart => Sys2Proof.Machine.execSecRestart s
  | .probationEnd kind => Sys2Proof.Machine.execProbationEnd kind s
  | .islandPowerOn => Sys2Proof.Machine.execIslandPowerOn s
  | .clusterIdle cluster => Sys2Proof.Machine.execClusterIdle cluster s
  | .stateChoice => Sys2Proof.Machine.execStateChoice s
  | .wakeStart => Sys2Proof.Machine.execWakeStart s
  | .wakeRequest clusters dieCommonOnly => Sys2Proof.Machine.execWakeRequest clusters dieCommonOnly s
  | .selfRefreshGrant granted => Sys2Proof.Machine.execSelfRefreshGrant granted s
  | .selfRefreshWithdrawn => Sys2Proof.Machine.execSelfRefreshWithdrawn s
  | .powerSample avg100us avg1ms projected busiest => Sys2Proof.Machine.execPowerSample avg100us avg1ms projected busiest s
  | .adaptation busy stall cycles cluster => Sys2Proof.Machine.execAdaptation busy stall cycles cluster s
  | .limiterSample cluster die island power1us => Sys2Proof.Machine.execLimiterSample cluster die island power1us s
  | .scrub stack granule flip => Sys2Proof.Machine.execScrub stack granule flip s
  | .arrayParity core correctable => Sys2Proof.Machine.execArrayParity core correctable s
  | .leaseNearExpiry => Sys2Proof.Machine.execLeaseNearExpiry s
  | .stateEntryComplete cluster => Sys2Proof.Machine.execStateEntryComplete cluster s
  | .wakeComplete => Sys2Proof.Machine.execWakeComplete s

end Sys2Proof.Machine
end

