-- ==== Sys2Proof/Machine/Step.lean ====
section
/-! DEFINITION. One step: the command at the front of the queue, or one tick of the timebase. -/
namespace Sys2Proof.Machine

/-- One step (log 15): the front command runs on the state without it; with nothing waiting, the device timebase advances by one tick,
with what follows of itself (log 33). -/
def step (s : State) : Host.Outcome State Fault Refusal :=
  match s.pending with
  | [] => .next (settle (tick s))
  | c :: rest => exec c { s with pending := rest }

/-- The state with the command that a word spells in front of its queue; no word spells one. -/
def State.withFetchWord (s : State) (nbits w : Nat) : State :=
  match Sys2Proof.decodeTableWord nbits w with
  | some c => { s with pending := c :: s.pending }
  | none => s

end Sys2Proof.Machine
end

