-- ==== Sys2Proof/Safety.lean ====
section
/-! DEFINITION. The terms in which claims about Kerur are stated: rows that hand a slot over, what an offered packet must pass, states
in which nothing waits, and the canonical form of the memories. -/
namespace Sys2Proof.Safety

open Sys2Proof.Machine

/-- A row that hands a slot over: its port, slot and header write, its opcode (spec/12_host_interface.md R317), and the field of the
parameter area that tells it from other rows of that opcode. -/
structure Handed where
  port : Port
  slot : BitVec 6
  hdr : BitVec 64
  op : Nat
  form : SlotWord → SlotWord

/-- The rows of R317's opcodes. -/
def handed : Instr → Option Handed
  | .cfgRead port slot hdr => some ⟨port, slot, hdr, 0x0101, id⟩
  | .cfgWrite port slot hdr => some ⟨port, slot, hdr, 0x0102, id⟩
  | .cfgCommit port slot hdr => some ⟨port, slot, hdr, 0x0103, forceParam 0 2 1 0⟩
  | .cfgDiscard port slot hdr => some ⟨port, slot, hdr, 0x0103, forceParam 0 2 1 1⟩
  | .cfgStatus port slot hdr => some ⟨port, slot, hdr, 0x0104, id⟩
  | .seqCreate port slot hdr => some ⟨port, slot, hdr, 0x0201, id⟩
  | .seqFork port slot hdr => some ⟨port, slot, hdr, 0x0202, id⟩
  | .seqFree port slot hdr => some ⟨port, slot, hdr, 0x0203, id⟩
  | .seqTruncate port slot hdr => some ⟨port, slot, hdr, 0x0204, id⟩
  | .prefixLookup port slot hdr => some ⟨port, slot, hdr, 0x0206, id⟩
  | .prefixPublish port slot hdr => some ⟨port, slot, hdr, 0x0207, forceParam 0x22 2 1 0⟩
  | .prefixWithdraw port slot hdr => some ⟨port, slot, hdr, 0x0207, forceParam 0x22 2 1 1⟩
  | .kvDemote port slot hdr => some ⟨port, slot, hdr, 0x0208, id⟩
  | .kvPromote port slot hdr => some ⟨port, slot, hdr, 0x0209, id⟩
  | .kvRecomputeList port slot hdr => some ⟨port, slot, hdr, 0x020A, id⟩
  | .attnFwd port slot hdr => some ⟨port, slot, hdr, 0x0301, id⟩
  | .attnBwd port slot hdr => some ⟨port, slot, hdr, 0x0302, id⟩
  | .proj port slot hdr => some ⟨port, slot, hdr, 0x0303, id⟩
  | .matmul port slot hdr => some ⟨port, slot, hdr, 0x0304, id⟩
  | .planLoad port slot hdr => some ⟨port, slot, hdr, 0x0305, forceParam 0xE 0 1 0⟩
  | .planUnload port slot hdr => some ⟨port, slot, hdr, 0x0305, forceParam 0xE 0 1 1⟩
  | .streamArm port slot hdr => some ⟨port, slot, hdr, 0x0401, id⟩
  | .streamRearm port slot hdr => some ⟨port, slot, hdr, 0x0402, id⟩
  | .streamHalt port slot hdr => some ⟨port, slot, hdr, 0x0403, id⟩
  | .updProgramLoad port slot hdr => some ⟨port, slot, hdr, 0x0501, id⟩
  | .updStep port slot hdr => some ⟨port, slot, hdr, 0x0502, id⟩
  | .linkStatus port slot hdr => some ⟨port, slot, hdr, 0x0601, id⟩
  | .linkAttach port slot hdr => some ⟨port, slot, hdr, 0x0602, id⟩
  | .linkDetach port slot hdr => some ⟨port, slot, hdr, 0x0603, id⟩
  | .fwLoad port slot hdr => some ⟨port, slot, hdr, 0x0701, id⟩
  | .fwStart port slot hdr => some ⟨port, slot, hdr, 0x0702, id⟩
  | .fwHandover port slot hdr => some ⟨port, slot, hdr, 0x0703, id⟩
  | .logRead port slot hdr => some ⟨port, slot, hdr, 0x0704, forceParam 0xC 0 1 0⟩
  | .logStatus port slot hdr => some ⟨port, slot, hdr, 0x0704, forceParam 0xC 0 1 1⟩
  | .traceCtlEnable port slot hdr => some ⟨port, slot, hdr, 0x0705, forceParam 0 0 8 0⟩
  | .traceCtlDisable port slot hdr => some ⟨port, slot, hdr, 0x0705, forceParam 0 0 8 1⟩
  | .traceCtlDisableAll port slot hdr => some ⟨port, slot, hdr, 0x0705, forceParam 0 0 8 2⟩
  | .traceCtlCount port slot hdr => some ⟨port, slot, hdr, 0x0705, forceParam 0 0 8 3⟩
  | .pwrModeQuery port slot hdr => some ⟨port, slot, hdr, 0x0801, forceParam 0 0 8 0⟩
  | .pwrModeSet port slot hdr => some ⟨port, slot, hdr, 0x0801, forceParam 0 0 8 1⟩
  | .pwrHintSet port slot hdr => some ⟨port, slot, hdr, 0x0802, forceParam 9 0 8 0⟩
  | .pwrHintClear port slot hdr => some ⟨port, slot, hdr, 0x0802, forceParam 9 0 8 1⟩
  | .pwrHintClearAll port slot hdr => some ⟨port, slot, hdr, 0x0802, forceParam 9 0 8 2⟩
  | .faultFetch port slot hdr => some ⟨port, slot, hdr, 0x0901, id⟩
  | .faultResolve port slot hdr => some ⟨port, slot, hdr, 0x0902, id⟩
  | .errFetch port slot hdr => some ⟨port, slot, hdr, 0x0903, forceParam 2 0 1 0⟩
  | .errFetchCounters port slot hdr => some ⟨port, slot, hdr, 0x0903, forceParam 2 0 1 1⟩
  | .errClear port slot hdr => some ⟨port, slot, hdr, 0x0904, id⟩
  | .sessionOpen port slot hdr => some ⟨port, slot, hdr, 0x0A01, forceParam 0x12 2 1 0⟩
  | .sessionAdopt port slot hdr => some ⟨port, slot, hdr, 0x0A01, forceParam 0x12 2 1 1⟩
  | .sessionClose port slot hdr => some ⟨port, slot, hdr, 0x0A02, id⟩
  | .leaseRenew port slot hdr => some ⟨port, slot, hdr, 0x0A03, id⟩
  | .attach port slot hdr => some ⟨port, slot, hdr, 0x0A04, id⟩
  | .nop port slot hdr => some ⟨port, slot, hdr, 0x0A05, id⟩
  | _ => none

/-- The packet that a handover leaves in slot `k` (R309, R310): the written header with OWN 1, the row's opcode and form. -/
def packet (h : Handed) (k : Nat) (s : State) : SlotWord :=
  h.form (forceOpcode h.op (setBits (setBits (slotAt s k) 0 64 h.hdr.toNat) 63 1 1))

/-- The state in which the packet stands in its slot. -/
def offered (h : Handed) (k : Nat) (s : State) : State := setSlot s k (packet h k s)

/-- The slot of a row can be handed over (R308, R310, R324): the port has it, it is host-owned, and the debug port is unlocked. -/
def mayOffer (h : Handed) (k : Nat) (s : State) : Bool :=
  slotKey h.port h.slot.toNat == some k && !slotOwned s k && (h.port ≠ .debug || s.host.debugUnlocked)

/-- An offered packet reaches step 3 of R319: nothing queues before it, and steps 1 and 2 pass. -/
def reachesGate (k : Nat) (s : State) : Bool :=
  !nothingAnswers s && !queueReady s && (earlyCheck s k).isNone

/-- An offered packet passes steps 1 to 5 of R319, and what it needs is awake (R394). -/
def passes (op k : Nat) (s : State) : Bool :=
  reachesGate k s && gate s.dev (slotBits (slotAt s k) 0 16) == .accept && (lateCheck (opDef op) s k).isNone &&
    !mustWake s k (slotBits (slotAt s k) 0 16)

/-- The state in which the command of slot `k` is known, before steps 6 to 9 of R319. -/
def taken (k : Nat) (s : State) : State :=
  { s with admitSeq := s.admitSeq + 1, cmds := s.cmds ++ [newCmd k (slotBits (slotAt s k) 0 16) s.admitSeq] }

/-- The state in which the command of slot `k` is admitted (R307, R311, R328): its record stamped, its interim status written, the
admission counted. -/
def admitted (k : Nat) (clamps : List ClampEntry) (s : State) : State :=
  let s := advanceReclaim s
  let s := updCmd s k (fun c =>
    { c with stage := .queued, clamps := clamps, admittedAt := s.now, startEpoch := s.pgk.epoch })
  interim { s with host := { s.host with admitted := satCount s.host.admitted 1 } } k

/-- The state in which the body of a handed-over command runs, when its checks change nothing. -/
def atWork (h : Handed) (k : Nat) (clamps : List ClampEntry) (s : State) : State :=
  admitted k clamps (taken k (offered h k s))

/-- An admitted command runs now: its deadline has not passed and nothing holds it back from host memory (R344, R351). -/
def runsNow (k : Nat) (s : State) : Bool := (cmdOf s k).any (fun c => !mustWait s c) && !isLate s k

/-- A row's packet is accepted (R319): it can be handed over, passes steps 1 to 5, its checks of steps 6 to 9 pass with some clamps and
leave the state as it is, and the command runs now. -/
def accepted (h : Handed) (k : Nat) (clamps : List ClampEntry) (s : State) : Prop :=
  mayOffer h k s = true ∧ passes h.op k (offered h k s) = true ∧
    ((opDef h.op).check k).run (taken k (offered h k s)) = .ok clamps (taken k (offered h k s)) ∧
    runsNow k (atWork h k clamps s) = true

/-- What a computation answers and the state it leaves, where it ends: none of its accesses faults (R249), meets poison (R410) or finds an illegal
page or node (R110), and nothing of it waits. -/
def ends {α : Type} (a : Act α) (s : State) : Option (α × State) :=
  match a.run s with
  | .ok x t => some (x, t)
  | .error _ _ => none

/-- The clamps that the checks of steps 6 to 9 of R319 note on a handed-over packet, and the state they leave, where they all pass. -/
def checked (h : Handed) (k : Nat) (s : State) : Option (List ClampEntry × State) := ends ((opDef h.op).check k) (taken k (offered h k s))

/-- The state in which the command of a handed-over packet is admitted, when its checks pass. -/
def working (h : Handed) (k : Nat) (s : State) : State := (checked h k s).elim s (fun e => admitted k e.1 e.2)

/-- A row's packet passes every check (R319): it can be handed over, and the checks of steps 1 to 9 pass. -/
def passesAll (h : Handed) (k : Nat) (s : State) : Bool :=
  mayOffer h k s && passes h.op k (offered h k s) && (checked h k s).isSome

/-- A row's command runs at its handover: its packet passes every check, its deadline has not passed, and nothing holds it back from host memory
(R319, R344, R351). -/
def mayRun (h : Handed) (k : Nat) (s : State) : Bool := passesAll h k s && runsNow k (working h k s)

/-- A row's command is queued for the scheduler at its handover: its packet passes every check and its deadline has not passed (R319, R338,
R344). -/
def mayQueue (h : Handed) (k : Nat) (s : State) : Bool :=
  passesAll h k s && (cmdOf (working h k s) k).isSome && !isLate (working h k s) k

/-- Nothing waits and nothing is under way that the end of a step could carry on (log 33): no command, page move, quarantined object,
page to match with an error, pending fault or waiting allocation, no near-tier frames to demote, no module to evacuate, no processor to
restart for its handler, no fenced ring link still in service, no walk of a fenced translation unit. -/
def quiet (s : State) : Bool :=
  s.cmds.isEmpty && s.pgk.moves.isEmpty && s.pgk.quarantine.isEmpty && s.pgk.bad.isEmpty && s.pgk.allocWaits.isEmpty &&
    (allPendings s).isEmpty && (List.range 8).all (fun d => cfgVal s 0x1016 d == 0) &&
    s.xlt.farModules.all (fun e => e.2.state != 2) && s.ras.restarts.isEmpty &&
    (List.range 8).all (fun d => !isFenced s (0xC070 + d) || (ringAt s (ringEnd d true)).down) &&
    (List.range 8).all (fun d => !isFenced s (xltSource d) || ((misses s d).isEmpty && s.xlt.missRegs.all (fun e => e.1 != d)))

/-- Every memory is in its canonical form. -/
def memoriesCanonical (s : State) : Bool :=
  s.pmem.wf && s.hostMem.wf && s.spad.mem.wf && s.spad.multicast.wf

/-- A link end's replay buffer is in order (R16, R17): its flits carry consecutive seqs, the last one before the next seq to be sent, and
a good hcrc. -/
def linkInOrder (l : RingLink) : Bool :=
  l.replayBuf.map (fun f => flitSeq f.1) ==
      (List.range l.replayBuf.length).map (fun i => (l.txSeq + 4095 * l.replayBuf.length + i) % 4096) &&
    l.replayBuf.all (fun f => headerCrc f.1 == f.1.toNat % 256)

/-- Every link end of the die ring is in order. -/
def ringInOrder (s : State) : Bool := s.ring.links.all (fun e => linkInOrder e.2)

end Sys2Proof.Safety
end

