-- ==== Sys2Proof/WellFormed.lean ====
section
/-! DEFINITION. Commands whose operands are within what the manual gives them: a port has the slot it names, a processor or a
level exists, a frame or flit has its length, an unused instruction field is 0. A command outside these has no counterpart on the
hardware; `exec` still answers it. -/
namespace Sys2Proof

/-- The command slots of a port (spec/12_host_interface.md R308). -/
def Port.slots : Port → Nat
  | .host => 64
  | .mgmt => 4
  | .debug => 1

/-- A register that an update operation reads, or 0 for a source it has not (spec/10_update_units.md R260 to R262). -/
def updSource (used : Bool) (r : BitVec 5) : Bool := if used then decide (r.toNat < 24) else r == 0

/-- An update operation's registers (R260 to R262): `b` and `c` say whether it has a second and a third source. -/
def updOperands (b c : Bool) (rd ra rb rc : BitVec 5) : Bool :=
  (decide (1 ≤ rd.toNat ∧ rd.toNat ≤ 3) || decide (16 ≤ rd.toNat ∧ rd.toNat ≤ 23)) && updSource true ra && updSource b rb && updSource c rc

/-- A branch skips 1 to 63 instructions and has no destination (spec/08_streams.md R200, R201). -/
def branchOperands (rd : BitVec 4) (imm : BitVec 17) : Bool := rd == 0 && decide (1 ≤ imm.toNat ∧ imm.toNat ≤ 63)

/-- The number of a counter, window or semaphore in the low `n` bits of an immediate, the others 0 (R200, R201). -/
def unitOperands (n : Nat) (rd : BitVec 4) (imm : BitVec 17) : Bool := rd == 0 && decide (imm.toNat < 2 ^ n)

/-- A shift by less than the width, its other immediate bits 0 (R200, R201). -/
def shiftOperands (imm : BitVec 17) : Bool := decide (imm.toNat < 64)

/-- A remote write carries 1 to 16 words (spec/07_scratchpad.md R174). -/
def remoteOperands (data : List (Word128 × Bool)) : Bool := decide (1 ≤ data.length ∧ data.length ≤ 16)

/-- An address of a granule of a stack of the near tier (spec/09_memory_and_translation.md R228). -/
def stackGranule (stack : BitVec 5) (granule : BitVec 48) : Bool :=
  let g := granule.toNat
  decide (g < 2 ^ 42 ∧ g % 16 = 0 ∧ g % 2 ^ 39 < 0x6000000000 ∧ g / 2 ^ 39 * 4 + g / 4096 % 4 = stack.toNat)

/-- The well-formed commands. -/
def Instr.wf : Instr → Bool
  | .windowWrite port _ _ _ => port != .debug
  | .counterFreeze _ _ => true
  | .counterClear _ => true
  | .evacuate _ => true
  | .invalidOpcode port slot _ => decide (slot.toNat < port.slots)
  | .waitingCommandAdmit => true
  | .interimStatusRefresh port slot => decide (slot.toNat < port.slots)
  | .cfgRead port slot _ => decide (slot.toNat < port.slots)
  | .cfgWrite port slot _ => decide (slot.toNat < port.slots)
  | .cfgCommit port slot _ => decide (slot.toNat < port.slots)
  | .cfgDiscard port slot _ => decide (slot.toNat < port.slots)
  | .drainQuiescent => true
  | .cfgStatus port slot _ => decide (slot.toNat < port.slots)
  | .seqCreate port slot _ => decide (slot.toNat < port.slots)
  | .seqFork port slot _ => decide (slot.toNat < port.slots)
  | .seqFree port slot _ => decide (slot.toNat < port.slots)
  | .seqTruncate port slot _ => decide (slot.toNat < port.slots)
  | .prefixLookup port slot _ => decide (slot.toNat < port.slots)
  | .prefixPublish port slot _ => decide (slot.toNat < port.slots)
  | .prefixWithdraw port slot _ => decide (slot.toNat < port.slots)
  | .kvDemote port slot _ => decide (slot.toNat < port.slots)
  | .kvPromote port slot _ => decide (slot.toNat < port.slots)
  | .kvRecomputeList port slot _ => decide (slot.toNat < port.slots)
  | .attnFwd port slot _ => decide (slot.toNat < port.slots)
  | .attnBwd port slot _ => decide (slot.toNat < port.slots)
  | .proj port slot _ => decide (slot.toNat < port.slots)
  | .matmul port slot _ => decide (slot.toNat < port.slots)
  | .planLoad port slot _ => decide (slot.toNat < port.slots)
  | .planUnload port slot _ => decide (slot.toNat < port.slots)
  | .streamArm port slot _ => decide (slot.toNat < port.slots)
  | .streamRearm port slot _ => decide (slot.toNat < port.slots)
  | .streamHalt port slot _ => decide (slot.toNat < port.slots)
  | .updProgramLoad port slot _ => decide (slot.toNat < port.slots)
  | .updStep port slot _ => decide (slot.toNat < port.slots)
  | .updRowCommit _ => true
  | .updMul _ rd ra rb rc => updOperands true false rd ra rb rc
  | .updAdd _ rd ra rb rc => updOperands true false rd ra rb rc
  | .updFma _ rd ra rb rc => updOperands true true rd ra rb rc
  | .updSqrt _ rd ra rb rc => updOperands false false rd ra rb rc
  | .updRsqrt _ rd ra rb rc => updOperands false false rd ra rb rc
  | .updDiv _ rd ra rb rc => updOperands true false rd ra rb rc
  | .updMax _ rd ra rb rc => updOperands true false rd ra rb rc
  | .updSel _ rd ra rb rc => updOperands true true rd ra rb rc
  | .updRndr _ rd ra rb rc => updOperands false false rd ra rb rc
  | .linkStatus port slot _ => decide (slot.toNat < port.slots)
  | .linkAttach port slot _ => decide (slot.toNat < port.slots)
  | .linkDetach port slot _ => decide (slot.toNat < port.slots)
  | .fwLoad port slot _ => decide (slot.toNat < port.slots)
  | .fwStart port slot _ => decide (slot.toNat < port.slots)
  | .fwHandover port slot _ => decide (slot.toNat < port.slots)
  | .logRead port slot _ => decide (slot.toNat < port.slots)
  | .logStatus port slot _ => decide (slot.toNat < port.slots)
  | .traceCtlEnable port slot _ => decide (slot.toNat < port.slots)
  | .traceCtlDisable port slot _ => decide (slot.toNat < port.slots)
  | .traceCtlDisableAll port slot _ => decide (slot.toNat < port.slots)
  | .traceCtlCount port slot _ => decide (slot.toNat < port.slots)
  | .pwrModeQuery port slot _ => decide (slot.toNat < port.slots)
  | .pwrModeSet port slot _ => decide (slot.toNat < port.slots)
  | .pwrHintSet port slot _ => decide (slot.toNat < port.slots)
  | .pwrHintClear port slot _ => decide (slot.toNat < port.slots)
  | .pwrHintClearAll port slot _ => decide (slot.toNat < port.slots)
  | .hintExpiry _ => true
  | .faultFetch port slot _ => decide (slot.toNat < port.slots)
  | .faultResolve port slot _ => decide (slot.toNat < port.slots)
  | .errFetch port slot _ => decide (slot.toNat < port.slots)
  | .errFetchCounters port slot _ => decide (slot.toNat < port.slots)
  | .errClear port slot _ => decide (slot.toNat < port.slots)
  | .sessionOpen port slot _ => decide (slot.toNat < port.slots)
  | .sessionAdopt port slot _ => decide (slot.toNat < port.slots)
  | .sessionClose port slot _ => decide (slot.toNat < port.slots)
  | .leaseRenew port slot _ => decide (slot.toNat < port.slots)
  | .attach port slot _ => decide (slot.toNat < port.slots)
  | .nop port slot _ => decide (slot.toNat < port.slots)
  | .debugUnlock => true
  | .debugLock => true
  | .entdaa _ => true
  | .rstdaa => true
  | .getpid => true
  | .getbcr => true
  | .getdcr => true
  | .getstatus => true
  | .getmxds => true
  | .i3cPrivateWrite _ => true
  | .bypass _ => true
  | .idcode => true
  | .dbgSlotCapture => true
  | .dbgSlotUpdate _ => true
  | .commandPlace => true
  | .planStepStart _ => true
  | .planStepCommit _ => true
  | .drainDone _ _ => true
  | .combineNode _ level first => decide (1 ≤ level.toNat ∧ level.toNat ≤ 10 ∧ first.toNat % 2 ^ level.toNat = 0)
  | .allocWaitSatisfied => true
  | .allocTimeout => true
  | .moveCommit _ => true
  | .restoreComplete _ => true
  | .farRemovalReport _ => true
  | .enumerated event => event.extractLsb' 56 8 == 1
  | .linkDown event => event.extractLsb' 56 8 == 2
  | .removed event => event.extractLsb' 56 8 == 3
  | .farEventReserved _ => true
  | .evacuationEnd _ => true
  | .evacTimeout _ => true
  | .walkEnd _ _ => true
  | .transferComplete _ _ _ _ => true
  | .basketArrival _ _ => true
  | .taggedAccessAdmit _ _ => true
  | .hang _ _ => true
  | .ordinaryRemoteWrite src _ data => decide (src.toNat < 0x8000) && remoteOperands data
  | .privilegedRemoteWrite src _ data => decide (0x8000 ≤ src.toNat) && remoteOperands data
  | .writeAck => true
  | .writeNak => true
  | .windowCloseComplete _ _ => true
  | .windowReopen _ _ => true
  | .handoffDataNotice _ _ => true
  | .multicastBroadcast _ _ => true
  | .multicastDetach _ _ _ => true
  | .add _ _ _ _ _ => true
  | .sub _ _ _ _ _ => true
  | .mul _ _ _ _ _ => true
  | .and _ _ _ _ _ => true
  | .or _ _ _ _ _ => true
  | .xor _ _ _ _ _ => true
  | .min _ _ _ _ _ => true
  | .max _ _ _ _ _ => true
  | .addi _ _ _ _ _ => true
  | .muli _ _ _ _ _ => true
  | .shli _ _ _ _ imm => shiftOperands imm
  | .shri _ _ _ _ imm => shiftOperands imm
  | .andi _ _ _ _ _ => true
  | .lds _ _ _ _ _ => true
  | .bz _ _ rd _ imm => branchOperands rd imm
  | .bnz _ _ rd _ imm => branchOperands rd imm
  | .emit _ _ rd _ _ => rd == 0
  | .empty _ _ rd sa imm => rd == 0 && sa == 0 && imm == 0
  | .skip _ _ rd sa imm => rd == 0 && sa == 0 && imm == 0
  | .cwait _ _ rd _ imm => unitOperands 6 rd imm
  | .cwaitRelease _ _ => true
  | .cset _ _ rd _ imm => unitOperands 6 rd imm
  | .csub _ _ rd _ imm => unitOperands 6 rd imm
  | .carm _ _ rd _ imm => unitOperands 6 rd imm
  | .wopen _ _ rd _ imm => unitOperands 3 rd imm
  | .wclose _ _ rd sa imm => unitOperands 3 rd imm && sa == 0
  | .wwait _ _ rd sa imm => unitOperands 3 rd imm && sa == 0
  | .wwaitRelease _ _ => true
  | .swait _ _ rd sa imm => unitOperands 5 rd imm && sa == 0
  | .swaitRelease _ _ => true
  | .spost _ _ rd sa imm => unitOperands 5 rd imm && sa == 0
  | .vcred _ _ rd _ _ => rd == 0
  | .ringReq _ _ _ granules => granules.length == 14
  | .ringData _ _ _ granules => granules.length == 14
  | .ringWrite _ _ _ granules => granules.length == 14
  | .ringAck _ _ _ granules => granules.length == 14
  | .ringNak _ _ _ granules => granules.length == 14
  | .ringCredit _ _ _ granules => granules.length == 14
  | .ringIdle _ _ _ granules => granules.length == 14
  | .ringReservedFlit _ _ _ granules => granules.length == 14
  | .ringLinkDown _ _ => true
  | .ktlIdle _ frame => frame.length == 33
  | .dataWin _ frame => frame.length == 33
  | .dataRing _ frame => frame.length == 33
  | .ktlCredit _ frame => frame.length == 33
  | .done _ frame => frame.length == 33
  | .refuse _ frame => frame.length == 33
  | .echo _ frame => frame.length == 33
  | .echoReply _ frame => frame.length == 33
  | .clock _ frame => frame.length == 33
  | .ktlNak _ frame => frame.length == 33
  | .detach _ frame => frame.length == 33
  | .detachAck _ frame => frame.length == 33
  | .ident _ frame => frame.length == 33
  | .topo _ frame => frame.length == 33
  | .ktlReservedFrame _ frame => frame.length == 33
  | .ktlForward _ frame => frame.length == 33
  | .signalDetect _ _ => true
  | .laneLock _ _ _ _ => true
  | .identResend _ => true
  | .trainTimeout _ => true
  | .identTimeout _ => true
  | .lockLost _ => true
  | .replayLimit _ => true
  | .retrainTimeout _ => true
  | .drainTimeout _ => true
  | .retrainHoldExpiry _ => true
  | .e2eTimeout _ => true
  | .slackCheck _ => true
  | .deadlineMiss _ => true
  | .leaseExpiry => true
  | .graceExpiry => true
  | .adoptionWindowExpiry => true
  | .watchdogKick proc => decide (proc.toNat < 35)
  | .watchdogExpiry proc _ => decide (proc.toNat < 35)
  | .trap proc _ _ => decide (proc.toNat < 35)
  | .haltWrite proc _ => decide (proc.toNat < 35)
  | .localMemoryUe proc _ => decide (proc.toNat < 35)
  | .cccRestart _ => true
  | .schRestart => true
  | .pwrRestart => true
  | .secRestart => true
  | .probationEnd _ => true
  | .islandPowerOn => true
  | .clusterIdle _ => true
  | .stateChoice => true
  | .wakeStart => true
  | .wakeRequest _ _ => true
  | .selfRefreshGrant _ => true
  | .selfRefreshWithdrawn => true
  | .powerSample _ _ _ _ => true
  | .adaptation _ _ _ _ => true
  | .limiterSample _ _ _ _ => true
  | .scrub stack granule _ => stackGranule stack granule
  | .arrayParity _ _ => true
  | .leaseNearExpiry => true
  | .stateEntryComplete _ => true
  | .wakeComplete => true

end Sys2Proof
end

