-- ==== Sys2Proof/Certificates/Slice0/Obligations.lean ====
section
/-! DEFINITION. Statements about the model of Kerur, for the provers. Each docstring says which rule of spec/ the statement formalises, or
which choice of the model it describes. -/

open Sys2Proof Sys2Proof.Machine Sys2Proof.Safety

/-! ### The step, the queue and reset -/

/-- A step with a command at the front of the queue is that command's `exec` on the state without it (log 15). A step with nothing waiting
advances the device timebase by one tick: when no start of firmware and no handover is in progress, that tick changes, before what follows
of itself, nothing but the record of cluster-time, the handlings in hand, timers and counts of waiting queues and links, the log records
that its writer writes, and the remote writes that it completes (log 15, log 33). -/
def Obligations.StepRunsFrontCommand : Prop :=
  (∀ (c : Instr) (rest : List Instr) (s : State), s.pending = c :: rest → step s = exec c { s with pending := rest }) ∧
  (∀ s : State, s.pending = [] → s.fw.starting = none →
     ∃ t : State, step s = .next (settle t) ∧
       t = { s with
         now := s.now + 1, shares := (noteShares s).shares, ras := (serveHandlers s).ras, spad := t.spad, str := t.str
         counters := t.counters, log := t.log, pmem := t.pmem, freeCtr := t.freeCtr } ∧
       (s.spad.admitted = [] → t.spad = s.spad) ∧ t.spad.admitted = [])

/-- In a state in which nothing waits, nothing follows of itself: the end of a step leaves it as it is (log 33). -/
def Obligations.QuietStateStands : Prop := ∀ s : State, quiet s = true → settle s = s

/-- After reset Kerur is in LOAD, and the registers have the values that the field maps of R71, R178, R181, R235, R303 and R307 give:
counters and CTL registers 0, arrival counters and windows 0 (CLOSED), far slots EMPTY, kettle ports OFF; firmware processors are in
RESET; no source is fenced; the debug port is locked (R365, R358, R324). At reset nothing waits, every memory is in its canonical form,
the die ring is in order, and every slot is host-owned (the last by the model's choice of log 4 for the slots' contents). -/
def Obligations.ResetState : Prop :=
  (State.reset.dev = .load ∧ State.reset.host.discards = 0 ∧ State.reset.host.admitted = 0 ∧ State.reset.host.rejected = 0 ∧
     (∀ off, ctrReg State.reset off = 0) ∧
     (∀ core c, c < 64 → arrivalOf State.reset core c = ⟨false, false, false, false, 0, 0, 0, 0⟩) ∧
     (∀ core w, w < 8 → (windowOf State.reset core w).state = 0 ∧ (windowOf State.reset core w).gen = 0) ∧
     (∀ m, (farModule State.reset m).state = 0 ∧ (farModule State.reset m).gen = 0) ∧
     (∀ p, (portAt State.reset p).state = 0) ∧ (∀ i, (procOf State.reset i).state = .reset) ∧
     (∀ x, isFenced State.reset x = false) ∧ State.reset.host.debugUnlocked = false) ∧
  (quiet State.reset = true ∧ memoriesCanonical State.reset = true ∧ ringInOrder State.reset = true ∧ State.reset.pending = [] ∧
     ∀ k, slotOwned State.reset k = false)

/-- Every command answers a next state, but SCRUB of an address that is no granule of its stack, which stops with its fault (log 16). -/
def Obligations.OnlyScrubStops : Prop :=
  ∀ (c : Instr) (s : State),
    (∃ t, exec c s = .next t) ∨
      (∃ stack granule flip, c = .scrub stack granule flip ∧ stackGranule stack granule = false ∧ exec c s = .fault .noSuchGranule)

/-! ### Handovers and admission (spec/12_host_interface.md R308 to R322) -/

/-- A handover of a slot that the firmware owns changes nothing but the count of discarded writes (R310). While the debug port is locked a
handover of its slot does not reach Kerur (R324). -/
def Obligations.HandoversThatDoNotReach : Prop :=
  (∀ (i : Instr) (h : Handed) (k : Nat) (s : State), handed i = some h → slotKey h.port h.slot.toNat = some k →
     (h.port = .debug → s.host.debugUnlocked = true) → slotOwned s k = true →
       exec i s = .next (settle { s with host := { s.host with discards := satCount s.host.discards 1 } })) ∧
  (∀ (i : Instr) (h : Handed) (s : State), handed i = some h → h.port = .debug → s.host.debugUnlocked = false →
     exec i s = .next (settle s))

/-- A packet that fails step 1 or 2 of R319 is rejected with that check's report, and nothing else is done before the step's end: the slot
holds the reply, no command is taken and none is admitted. A command whose checks of steps 6 to 9 reject leaves the state as its checks
found it, but its reply (R319). -/
def Obligations.ChecksRejectInOrder : Prop :=
  (∀ (i : Instr) (h : Handed) (k : Nat) (s : State) (r : Reject), handed i = some h → mayOffer h k s = true →
     nothingAnswers s = false → queueReady (offered h k s) = false → earlyCheck (offered h k s) k = some r →
       exec i s = .next (settle (rejectCmd (offered h k s) k r)) ∧
         (rejectCmd (offered h k s) k r).cmds = s.cmds.filter (fun c => c.key ≠ k) ∧
         (rejectCmd (offered h k s) k r).host.admitted = s.host.admitted) ∧
  (∀ (i : Instr) (h : Handed) (k : Nat) (s s₂ : State) (r : Reject),
     handed i = some h → mayOffer h k s = true → passes h.op k (offered h k s) = true →
     ((opDef h.op).check k).run (taken k (offered h k s)) = .error (.reject r) s₂ → r.keep = false →
       exec i s = .next (settle (rejectCmd (taken k (offered h k s)) k r)))

/-- The device state admits opcodes as the table of R322 gives. A packet past steps 1 and 2 of R319 that the state makes wait stays in its
firmware-owned slot, with nothing written, in arrival order, and is taken when the state admits it; every packet waits in RESTARTING, and
in FW_HALT while the scheduler core is down; any other packet outside the admitted set is rejected REJECTED_BUSY. -/
def Obligations.DeviceStatesAdmitOpcodes : Prop :=
  (∀ op : Nat,
    let ready := op ≠ 0x0701 ∧ op ≠ 0x0702
    let drain := [0x0A05, 0x0101, 0x0104, 0x0901, 0x0902, 0x0903, 0x0904, 0x0704, 0x0601, 0x0A03, 0x0A04, 0x0801, 0x0802]
    (gate .load op = .accept ↔ op ∈ [0x0A05, 0x0701, 0x0702, 0x0801]) ∧ gate .load op ≠ .wait ∧
    (gate .starting op = .accept ↔ op = 0x0A05) ∧ (gate .starting op = .wait ↔ ready ∧ op ≠ 0x0A05) ∧
    (gate .ready op = .accept ↔ ready) ∧ gate .ready op ≠ .wait ∧
    (gate .draining op = .accept ↔ op ∈ drain) ∧ (gate .draining op = .wait ↔ ready ∧ op ∉ drain) ∧
    gate .restarting op = .wait ∧
    (gate .orphaned op = .accept ↔ op ∈ [0x0A05, 0x0101, 0x0A04, 0x0801]) ∧ gate .orphaned op ≠ .wait ∧
    (gate .fwHalt op = .accept ↔ op ∈ [0x0A05, 0x0903, 0x0704]) ∧ gate .fwHalt op ≠ .wait) ∧
  (∀ (i : Instr) (h : Handed) (k : Nat) (s : State), handed i = some h → mayOffer h k s = true →
    let t := offered h k s
    let g := gate s.dev (slotBits (slotAt t k) 0 16)
    (reachesGate k t = true → g = .busy → exec i s = .next (settle (rejectCmd t k { code := 0x12 }))) ∧
    (reachesGate k t = true ∧ g = .wait ∨ nothingAnswers s = true → slotOwned t k = true ∧
      exec i s = .next (settle { t with host := { t.host with handovers := s.host.handovers ++ [k] } }))) ∧
  (∀ (s : State) (l r : List Nat) (k : Nat), nothingAnswers s = false → s.host.handovers = l ++ k :: r →
    (∀ b ∈ l, gate s.dev (slotBits (slotAt s b) 0 16) = .wait) → k ∉ l → k ∉ r →
    gate s.dev (slotBits (slotAt s k) 0 16) = .accept → earlyCheck s k = none →
      exec .waitingCommandAdmit s = .next (settle (takeSlot (opDef (slotBits (slotAt s k) 0 16)) k
        { s with host := { s.host with handovers := l ++ r } })))

/-- A packet that passes every check of R319 is admitted, and its command carried out: for every row of an opcode that the scheduler need
not place, exec answers the state in which the command has completed with the reply of its body; where the body leaves it to go on later
(FW_START, FW_HANDOVER, a drain, a wait for an epoch or for page moves), the state in which it waits so; where an access of it faults, the
state in which it waits for the answer (R249). What the commands of the page keepers and of the spine then have done, where no access of
theirs faults, meets poison or finds an illegal page: SEQ_CREATE takes a node as root and writes the descriptor of an ACTIVE sequence, its
recipe and waymarks (R130); SEQ_FORK writes that of a sequence of the source's pages up to a length, and answers how many it mapped (R148);
SEQ_FREE leaves its sequence FREE and answers the entries removed (R131); SEQ_TRUNCATE cuts its length and answers the entries removed
(R132); KV_DEMOTE and KV_PROMOTE hand over the moves of their selection, and answer at once where there is none (R133);
KV_RECOMPUTE_LIST copies records of DROPPED pages up to its limit and keeps a cursor where more are left (R134); PREFIX_LOOKUP,
PREFIX_PUBLISH and PREFIX_WITHDRAW answer the pages matched and mapped or published, with the spine report (R156, R157). -/
def Obligations.AdmittedCommandCompletes : Prop :=
  (∀ (i : Instr) (h : Handed) (k : Nat) (s : State),
    handed i = some h → mayRun h k s = true → (opDef h.op).placed = false →
      let w := working h k s
      exec i s = .next (settle (match ((opDef h.op).body k).run w with
        | .ok r t => completeCmd t k r
        | .error (.park st) t => updCmd t k (fun c => { c with stage := st })
        | .error (.fault f) _ => faultCmd w k .stalled f
        | .error (.reject r) _ => rejectCmd w k r
        | .error (.abort code) t => endCmd t k code {}))) ∧
  (∀ (port : Port) (slot : BitVec 6) (hdr : BitVec 64) (h : Handed) (k : Nat) (s : State),
    let a := working h k s
    let p := slotAt a k
    let done := fun (i : Instr) (t : State) (r : Reply) => exec i s = Host.Outcome.next (settle (completeCmd t k r))
    let auto := (tget Session.reset a.sessions (cmdSession a k % 256)).autoRecompute
    mayRun h k s = true → (ends ((opDef h.op).body k) a).isSome = true →
    (handed (.seqCreate port slot hdr) = some h →
      let w : Who := { die := param p 0x18 8, key := some k }
      let fmt := param p 0x16 16
      let tpp := tppLog2 (fmt % 32) (dimOf (param p 0x15 8))
      ∃ (marks : List Nat) (root : Nat) (s₁ s₂ s₃ t : State),
        ends (readMarks k (param p 0 64) (param p 0x1A 8)) a = some (marks, s₁) ∧
        ends (newRoot w (param p 0x18 8)) s₁ = some (root, s₂) ∧
        ends (writeSeq w (param p 0x10 16) {
          state := 1, homeDie := param p 0x18 8, kvHeads := param p 0x14 8, hd := param p 0x15 8, layers := param p 0x12 16, fmtKv := fmt
          tppLog2 := tpp, depth := if tpp ≤ 7 then 3 else 2, retain := param p 0x19 8, waymarkCount := marks.length
          session := cmdSession a k, flags := bit auto, length := 0, mapped := 0, dirRoot := root, dropped := 0
          recipeBase := param p 8 64, created := a.now }) s₂ = some ((), s₃) ∧
        ends (writeWaymarks w (param p 0x10 16) marks) s₃ = some ((), t) ∧ done (.seqCreate port slot hdr) t {}) ∧
    (handed (.seqFork port slot hdr) = some h →
      let w : Who := { die := param p 0x10 8, key := some k }
      ∃ (n : Nat) (d : SeqDesc) (marks : List Nat) (s₁ s₂ t : State),
        d.state = 1 ∧ d.homeDie = param p 0x10 8 ∧ d.retain = param p 0x11 8 ∧ d.length = param p 0xC 27 ∧ d.mapped = n ∧
        d.session = cmdSession a k ∧ d.recipeBase = param p 0 64 ∧ d.waymarkCount = marks.length ∧ (∀ m ∈ marks, m < param p 0xC 27) ∧
        ends (writeSeq w (param p 0xA 16) d) s₁ = some ((), s₂) ∧ ends (writeWaymarks w (param p 0xA 16) marks) s₂ = some ((), t) ∧
        done (.seqFork port slot hdr) t { result := BitVec.ofNat 64 n }) ∧
    (handed (.seqFree port slot hdr) = some h →
      let n := param p 0 16
      let w := seqWho a k n
      ∃ (q q' : SeqDesc) (leaves : List (Nat × Nat × PageEntry)) (s₁ s₂ s₃ t : State),
        ends (loadSeq k n) a = some (q, s₁) ∧ ends (leafEntries w (seqLevels q) q.dirRoot 0) s₁ = some (leaves, s₂) ∧
        ends (writeSeq w n { q' with state := 0 }) s₃ = some ((), t) ∧
        done (.seqFree port slot hdr) t { result := BitVec.ofNat 64 leaves.length }) ∧
    (handed (.seqTruncate port slot hdr) = some h →
      let n := param p 8 16
      let w := seqWho a k n
      ∃ (q : SeqDesc) (marks : List Nat) (removed : Nat) (s₁ s₂ t : State),
        q.length = param p 0xC 27 ∧
        (paramBit p 0xA 0 = false → ends (writeSeq w n q) s₁ = some ((), t)) ∧
        (paramBit p 0xA 0 = true → ends (writeSeq w n { q with waymarkCount := marks.length }) s₁ = some ((), s₂) ∧
          ends (writeWaymarks w n marks) s₂ = some ((), t)) ∧
        done (.seqTruncate port slot hdr) t { result := BitVec.ofNat 64 removed }) ∧
    (∀ i, i = .kvDemote port slot hdr ∨ i = .kvPromote port slot hdr → handed i = some h →
      ∃ t : State, done i t { result := BitVec.ofNat 64 ((cmdOf t k).elim 0 (fun c => c.skipped)) } ∧
        t.pgk.moves.any (fun m => m.reason == .command k) = false) ∧
    (handed (.kvRecomputeList port slot hdr) = some h →
      ∃ (recs : List (Nat × Nat × Nat × PageHdr)) (bytes : List Byte) (s₁ u : State),
        ends (droppedPages k) a = some (recs, s₁) ∧
        (let from_ := ((a.pgk.cursors.find? (fun c => c.1 == param p 4 32)).map (fun c => c.2.2)).getD 0
         let rest := recs.filter (fun (e : Nat × Nat × Nat × PageHdr) => decide (from_ ≤ e.1))
         let n := min (param p 8 16) rest.length
         let l := longReply u k bytes
         done (.kvRecomputeList port slot hdr) l.2 {
           result := BitVec.ofNat 64 (n + 2 ^ 32 * (if n < rest.length then u.pgk.cursors.length else 0xFFFFFFFF))
           longWritten := l.1.1, trunc := l.1.2 } ∧
         (n < rest.length → ∃ e, rest[n]? = some e ∧ u.pgk.cursors.getLast? = some (u.pgk.cursors.length, listSelection p, e.1)))) ∧
    (∀ i, i = .prefixLookup port slot hdr ∨ i = .prefixPublish port slot hdr → handed i = some h → paramBit p 0x22 2 = false →
      ∃ (matched n handle collisions stop : Nat) (u : State),
        (i = .prefixLookup port slot hdr → pfMap p = false → n = 0) ∧
        (let l := longReply u k (spineReport matched n handle collisions stop)
         done i l.2 { result := BitVec.ofNat 64 (matched + 2 ^ 32 * n), longWritten := l.1.1, trunc := l.1.2 })) ∧
    (handed (.prefixWithdraw port slot hdr) = some h → paramBit p 0x22 2 = true →
      ∃ u : State, ends (markStale (seqWho a k (pfSeq p)) (pfParent p % 2 ^ 32)) a = some ((), u) ∧
        (let l := longReply u k (spineReport 0 0 (pfParent p) 0 0)
         done (.prefixWithdraw port slot hdr) l.2 { longWritten := l.1.1, trunc := l.1.2 }))) ∧
  (∀ (port : Port) (slot : BitVec 6) (hdr : BitVec 64) (h : Handed) (k : Nat) (s t : State) (i : Instr),
    i = .kvDemote port slot hdr ∨ i = .kvPromote port slot hdr → handed i = some h → mayRun h k s = true →
    ((opDef h.op).body k).run (working h k s) = .error (.park .moving) t →
      t.pgk.moves.any (fun m => m.reason == .command k) = true ∧
        exec i s = .next (settle (updCmd t k (fun c => { c with stage := .moving })))) ∧
  (∀ (s : State) (c : Cmd), s.cmds = [c] → c.stage = .moving → c.opcode = 0x0208 ∨ c.opcode = 0x0209 →
    s.pgk.moves.any (fun m => m.reason == .command c.key) = false →
      settleMoves s = completeCmd s c.key { result := BitVec.ofNat 64 (c.moved * 2 ^ 32 + c.skipped % 2 ^ 32) })

/-- A packet of a compute, stream or update command (ATTN_FWD, ATTN_BWD, PROJ, MATMUL, STREAM_ARM, STREAM_REARM, UPD_STEP) that passes every
check of R319 before its deadline is admitted: it is counted, its record is QUEUED with its time of admission and its clamps, its interim
status stands in its firmware-owned slot, and it waits for the scheduler to place it (R307, R311, R319, R338). -/
def Obligations.PlacedCommandWaits : Prop :=
  ∀ (port : Port) (slot : BitVec 6) (hdr : BitVec 64) (i : Instr) (h : Handed) (k : Nat) (s : State),
    i ∈ [Instr.attnFwd port slot hdr, .attnBwd port slot hdr, .proj port slot hdr, .matmul port slot hdr, .streamArm port slot hdr,
      .streamRearm port slot hdr, .updStep port slot hdr] →
    handed i = some h → mayQueue h k s = true →
      exec i s = .next (settle (working h k s)) ∧
      ∃ (cl : List ClampEntry) (u : State) (c : Cmd), checked h k s = some (cl, u) ∧ cmdOf (working h k s) k = some c ∧
        c.stage = .queued ∧ c.admittedAt = u.now ∧ c.clamps = cl ∧ c.lastInterim = some u.now ∧
        (working h k s).host.admitted = satCount u.host.admitted 1

/-! ### What accepted commands do (each by its opcode of R317) -/

/-- The packet that a row hands over carries the row's opcode and OWN 1 (R309, R317), and the field that tells the row from the others of
its opcode. -/
def Obligations.PacketCarriesRow : Prop :=
  (∀ (i : Instr) (h : Handed) (k : Nat) (s : State), handed i = some h →
    slotBits (packet h k s) 0 16 = h.op % 65536 ∧ (packet h k s).getLsbD 63 = true) ∧
  (∀ (port : Port) (slot : BitVec 6) (hdr : BitVec 64) (k : Nat) (s : State) (h : Handed),
    (handed (.cfgDiscard port slot hdr) = some h → paramBit (packet h k s) 0 2 = true) ∧
    (handed (.planUnload port slot hdr) = some h → paramBit (packet h k s) 0xE 0 = true) ∧
    (handed (.sessionAdopt port slot hdr) = some h → paramBit (packet h k s) 0x12 2 = true) ∧
    (handed (.logStatus port slot hdr) = some h → paramBit (packet h k s) 0xC 0 = true) ∧
    (handed (.errFetchCounters port slot hdr) = some h → paramBit (packet h k s) 2 0 = true) ∧
    (handed (.pwrModeQuery port slot hdr) = some h → param (packet h k s) 0 8 = 0) ∧
    (handed (.pwrModeSet port slot hdr) = some h → param (packet h k s) 0 8 = 1) ∧
    (handed (.traceCtlDisable port slot hdr) = some h → param (packet h k s) 0 8 = 1) ∧
    (handed (.traceCtlDisableAll port slot hdr) = some h → param (packet h k s) 0 8 = 2))

/-- NOP answers the device timebase and does nothing else (R331). LEASE_RENEW: the lease is HELD for one period from now, the values that
waited take effect, and the result is the expiry (R350). -/
def Obligations.NopAndLeaseRenewAnswer : Prop :=
  (∀ (port : Port) (slot : BitVec 6) (hdr : BitVec 64) (h : Handed) (k : Nat) (cl : List ClampEntry) (s : State),
     handed (.nop port slot hdr) = some h → accepted h k cl s →
       exec (.nop port slot hdr) s =
         .next (settle (completeCmd (atWork h k cl s) k { result := BitVec.ofNat 64 s.now }))) ∧
  (∀ (port : Port) (slot : BitVec 6) (hdr : BitVec 64) (h : Handed) (k : Nat) (cl : List ClampEntry) (s : State),
     handed (.leaseRenew port slot hdr) = some h → accepted h k cl s →
       let t := releaseHost (rearmWake (renewLease (atWork h k cl s)))
       exec (.leaseRenew port slot hdr) s = .next (settle (completeCmd t k { result := BitVec.ofNat 64 t.lease.expiry })) ∧
         t.lease.state = .held ∧
         t.lease.expiry = s.now + (if s.lease.newPeriod = 0 then s.lease.period else s.lease.newPeriod) ∧
         t.lease.newPeriod = 0 ∧ t.lease.newGrace = 0)

/-- CFG_READ replies with its entries, CFG_STATUS with the epochs of eight clusters or the summary; neither changes a value (R329, R349).
CFG_WRITE puts the values of its entries into the port's staging area and answers how many, and how many clamps they met; a long reply
carries every clamp (R326, R328).
CFG_COMMIT with DISCARD empties the port's staging area and commits nothing; a commit of an empty staging area commits nothing; one
without DRAIN or WAIT commits the staged values in a new epoch (R347). -/
def Obligations.ConfigurationReadsAndCommits : Prop :=
  (∀ (port : Port) (slot : BitVec 6) (hdr : BitVec 64) (h : Handed) (k : Nat) (cl : List ClampEntry) (s : State),
     (handed (.cfgRead port slot hdr) = some h → accepted h k cl s →
       let a := atWork h k cl s
       let n := param (slotAt a k) 0 8
       exec (.cfgRead port slot hdr) s = .next (settle (completeCmd a k
         { kind := 4, count := n, detail := readEntries a (portOf k) (slotAt a k) n }))) ∧
     (handed (.cfgStatus port slot hdr) = some h → accepted h k cl s →
       let a := atWork h k cl s
       let sel := param (slotAt a k) 0 8
       let bs : List Byte := (List.range 8).map (fun i => clusterEpoch a (8 * sel + i))
       let n := if sel < 4 then bytesNat bs else epochSummary a (portOf k)
       exec (.cfgStatus port slot hdr) s = .next (settle (completeCmd a k { result := BitVec.ofNat 64 n })))) ∧
  (∀ (port : Port) (slot : BitVec 6) (hdr : BitVec 64) (h : Handed) (k : Nat) (s : State),
     let a := working h k s
     let p := slotAt a k
     let entries := ends (stageEntries p (param p 0 8) a.cfg.committed (staging a (portOf k))) a
     handed (.cfgWrite port slot hdr) = some h → mayRun h k s = true → entries.isSome = true →
       ∃ (st : Table Nat) (cl : List ClampEntry) (m : Nat), entries = some ((st, cl, m), a) ∧
         (let t := setStaging a (portOf k) st
          let n := BitVec.ofNat 64 (m + 65536 * cl.length)
          (cl = [] ∨ hdrField p 0x10 64 = 0 → exec (.cfgWrite port slot hdr) s = .next (settle (completeCmd t k { result := n }))) ∧
          (cl ≠ [] → hdrField p 0x10 64 ≠ 0 →
            let l := longReply t k (cl.flatMap clampBytes)
            exec (.cfgWrite port slot hdr) s = .next (settle (completeCmd l.2 k
              { result := n, longWritten := l.1.1, trunc := l.1.2 && decide (8 < cl.length), kind := 2, count := min cl.length 8
                detail := (cl.take 8).flatMap clampBytes }))))) ∧
  (∀ (port : Port) (slot : BitVec 6) (hdr : BitVec 64) (h : Handed) (k : Nat) (cl : List ClampEntry) (s : State) (i : Instr),
     i = .cfgCommit port slot hdr ∨ i = .cfgDiscard port slot hdr → handed i = some h → accepted h k cl s →
       let a := atWork h k cl s
       let p := slotAt a k
       (paramBit p 0 2 = true →
         exec i s = .next (settle (completeCmd (setStaging a (portOf k) []) k { result := nothingCommitted a }))) ∧
       (paramBit p 0 2 = false → staging a (portOf k) = [] →
         exec i s = .next (settle (completeCmd a k { result := nothingCommitted a }))) ∧
       (paramBit p 0 2 = false → staging a (portOf k) ≠ [] → paramBit p 0 0 = false → paramBit p 0 1 = false →
         let r := commitStaging a (portOf k)
         exec i s = .next (settle (completeCmd
           (updCmd r.1 k (fun c => { c with result := r.2.1, clamps := c.clamps ++ r.2.2 })) k { result := r.2.1 }))))

/-- A commit advances the epoch by 1, keeps the values of every earlier epoch it still needs (at most four in all), and restarts the ring
sequence of a group whose fields it commits (R345, R347, R297). -/
def Obligations.CommitAdvancesEpoch : Prop :=
  ∀ (s : State) (vals : Table Nat),
    let t := commitValues s vals
    t.cfg.epoch = s.cfg.epoch + 1 ∧ t.cfg.history.head? = some (t.cfg.epoch, t.cfg.committed) ∧ t.cfg.history.length ≤ 4 ∧
      (∀ e ∈ t.cfg.history.tail, e ∈ s.cfg.history) ∧
      (∀ g x, (g, x) ∈ t.ktl.ringSeq ↔
        (g, x) ∈ s.ktl.ringSeq ∧ ∀ e ∈ vals, e.1 / 256 ≠ 0x7001 + g ∧ e.1 / 256 ≠ 0x7005 + g)

/-- PWR_MODE: QUERY changes no envelope and no limit; SET puts the envelope and the junction limit it gives into effect, on the management
port as ceilings too, where a change is shown until a host PWR_MODE completes; in LOAD it stores them for FW_START (R397, R398). PWR_HINT
writes one of the eight entries, none where its time has passed, clears one, or clears all (R396). -/
def Obligations.PowerModesAndHints : Prop :=
  (∀ (port : Port) (slot : BitVec 6) (hdr : BitVec 64) (h : Handed) (k : Nat) (cl : List ClampEntry) (s : State) (i : Instr),
     i = .pwrModeQuery port slot hdr ∨ i = .pwrModeSet port slot hdr → handed i = some h → accepted h k cl s →
       ∃ pw : Pwr,
         let a := atWork h k cl s
         let p := slotAt a k
         let t : State := { a with pwr := pw }
         let env := param p 1 8
         let tj := param p 2 8
         let old := a.pwr.atStart.getD (a.pwr.envEff, a.pwr.envCeil, a.pwr.tjEff, a.pwr.tjCeil)
         exec i s = .next (settle (completeCmd t k { result := modeResult t })) ∧
         (param p 0 8 = 0 → pw = { a.pwr with changed := portOf k == .mgmt && a.pwr.changed }) ∧
         (param p 0 8 ≠ 0 → a.dev ≠ .load →
           pw.envEff = (if env = 0xFF then a.pwr.envEff else env) ∧
           pw.tjEff = (if tj = 0 then a.pwr.tjEff else min (max tj 70) 105) ∧
           (portOf k = .mgmt → env ≠ 0xFF → pw.envCeil = env) ∧
           (portOf k ≠ .mgmt → pw.envCeil = a.pwr.envCeil ∧ pw.tjCeil = a.pwr.tjCeil ∧ pw.changed = false) ∧
           pw.clusters = a.pwr.clusters ∧ pw.device = a.pwr.device) ∧
         (param p 0 8 ≠ 0 → a.dev = .load →
           ∃ v : Nat × Nat × Nat × Nat, pw = { a.pwr with atStart := some v, changed := pw.changed } ∧
             v.1 = (if env = 0xFF then old.1 else env) ∧ v.2.2.1 = (if tj = 0 then old.2.2.1 else min (max tj 70) 105))) ∧
  (∀ (port : Port) (slot : BitVec 6) (hdr : BitVec 64) (h : Handed) (k : Nat) (cl : List ClampEntry) (s : State) (i : Instr),
     i ∈ [Instr.pwrHintSet port slot hdr, .pwrHintClear port slot hdr, .pwrHintClearAll port slot hdr] →
     handed i = some h → accepted h k cl s →
       let a := atWork h k cl s
       let p := slotAt a k
       let e : Hint := ⟨ticksFloor (param p 0 64), param p 0xA 8, cmdSession a k⟩
       let t := if param p 9 8 = 0 then hintWake (setHint a (param p 8 8) (if e.at_ ≤ a.now then none else some e)) e
         else if param p 9 8 = 1 then setHint a (param p 8 8) none
         else { a with pwr := { a.pwr with hints := [] } }
       exec i s = .next (settle (completeCmd t k { result := hintResult t })))

/-- ERR_FETCH copies the oldest unfetched records to the long reply and marks those very records fetched; with COUNTERS it copies the
counter block and marks nothing (R420, R421). ERR_CLEAR removes the fetched records up to a serial number, and clears the counters and
the lost count where its bits say so; records not fetched stay (R422). -/
def Obligations.ErrorRecordsAreFetchedAndCleared : Prop :=
  (∀ (port : Port) (slot : BitVec 6) (hdr : BitVec 64) (h : Handed) (k : Nat) (cl : List ClampEntry) (s : State) (i : Instr),
     i = .errFetch port slot hdr ∨ i = .errFetchCounters port slot hdr → handed i = some h → accepted h k cl s →
       let a := atWork h k cl s
       let p := slotAt a k
       (paramBit p 2 0 = true →
         let l := longReply a k (errBlock a)
         exec i s = .next (settle (completeCmd l.2 k { longWritten := l.1.1, trunc := l.1.2 }))) ∧
       (paramBit p 2 0 = false →
         let rs := fetchRecords a (param p 0 16)
         let l := longReply (markFetched a rs) k (rs.flatMap errBytes)
         let t := l.2
         exec i s = .next (settle (completeCmd t k
           { result := BitVec.ofNat 64 (fetchResult t rs.length), longWritten := l.1.1, trunc := l.1.2 })))) ∧
  (∀ (port : Port) (slot : BitVec 6) (hdr : BitVec 64) (h : Handed) (k : Nat) (cl : List ClampEntry) (s : State),
     handed (.errClear port slot hdr) = some h → accepted h k cl s →
       ∃ t : State,
         let p := slotAt (atWork h k cl s) k
         exec (.errClear port slot hdr) s = .next (settle (completeCmd t k
           { result := BitVec.ofNat 64 (s.ras.store.length - t.ras.store.length) })) ∧
         (∀ r, r ∈ t.ras.store ↔ r ∈ s.ras.store ∧ (r.fetched = true → param p 0 48 < r.serial)) ∧
         t.ras.counts = (if paramBit p 8 0 then [] else s.ras.counts) ∧ t.ras.lost = (if paramBit p 8 1 then 0 else s.ras.lost) ∧
         t.ras.fenced = s.ras.fenced ∧ t.ras.fatals = s.ras.fatals)

/-- LOG_READ copies records of the log ring from a serial number on; LOG_STATUS copies the firmware status block (R382, R383). TRACE_CTL
enables the IDs of its ranges, disables them, disables all IDs, or counts the enabled ones; its result is the number then enabled
(R385). -/
def Obligations.LogAndTraceCommands : Prop :=
  (∀ (port : Port) (slot : BitVec 6) (hdr : BitVec 64) (h : Handed) (k : Nat) (cl : List ClampEntry) (s : State) (i : Instr),
     i = .logRead port slot hdr ∨ i = .logStatus port slot hdr → handed i = some h → accepted h k cl s →
       let a := atWork h k cl s
       let p := slotAt a k
       (paramBit p 0xC 0 = true →
         let l := longReply a k (fwStatusBlock a)
         exec i s = .next (settle (completeCmd l.2 k { longWritten := l.1.1, trunc := l.1.2 }))) ∧
       (paramBit p 0xC 0 = false →
         let rs := (a.log.ring.filter (fun r => decide (param p 0 48 ≤ r.serial))).take (param p 8 32)
         let l := longReply a k (rs.flatMap logBytes)
         let nxt := (rs.getLast?.map (fun r => r.serial + 1)).getD (param p 0 48)
         let lost := a.log.ring.head?.any (fun r => decide (param p 0 48 < r.serial))
         exec i s = .next (settle (completeCmd l.2 k
           { result := BitVec.ofNat 64 (nxt % 2 ^ 48 + (if lost then 2 ^ 63 else 0)), longWritten := l.1.1, trunc := l.1.2 })))) ∧
  (∀ (port : Port) (slot : BitVec 6) (hdr : BitVec 64) (h : Handed) (k : Nat) (cl : List ClampEntry) (s : State) (i : Instr),
     i ∈ [Instr.traceCtlEnable port slot hdr, .traceCtlDisable port slot hdr, .traceCtlDisableAll port slot hdr,
       .traceCtlCount port slot hdr] → handed i = some h → accepted h k cl s →
       let a := atWork h k cl s
       let p := slotAt a k
       let ranges := (List.range (param p 1 8)).map (fun j => (param p (8 + 4 * j) 32 % 65536, param p (8 + 4 * j) 32 / 65536))
       let on := if param p 0 8 = 0 then ranges.foldl (fun t r => t ||| traceMask r.1 r.2) s.log.traceOn
         else if param p 0 8 = 1 then ranges.foldl (fun t r => t &&& ~~~(traceMask r.1 r.2)) s.log.traceOn
         else if param p 0 8 = 2 then 0 else s.log.traceOn
       exec i s = .next (settle (completeCmd { a with log := { a.log with traceOn := on } } k
         { result := BitVec.ofNat 64 (traceCount on) })))

/-- SESSION_OPEN takes the lowest FREE entry, whose generation goes into the ID (R333, R336); SESSION_ADOPT makes the named session OPEN
again (R353); both note the lease values they give for the next renewal (R336). SESSION_CLOSE frees its session and answers the commands
and streams ended with it (R335, R337). ATTACH renews the lease with its values, makes OPEN and ORPHANED sessions ADOPTABLE for its window,
has fetched faults recorded again, and answers with the orphan report (R256, R352, R354). -/
def Obligations.SessionsOpenAndAdopt : Prop :=
  ∀ (port : Port) (slot : BitVec 6) (hdr : BitVec 64) (h : Handed) (k : Nat) (s : State),
    let w := working h k s
    let p := slotAt w k
    let a := notePeriods w p
    mayRun h k s = true →
    (∀ i, i = .sessionOpen port slot hdr ∨ i = .sessionAdopt port slot hdr → handed i = some h →
      (paramBit p 0x12 2 = false → ∀ n, (List.range 256).find? (fun j => (tget Session.reset w.sessions j).state == .free) = some n →
        let e : Session := ⟨.opened, (tget Session.reset w.sessions n).gen, param p 0x10 8, decide (param p 0x11 8 = 1),
          paramBit p 0x12 0, paramBit p 0x12 1, param p 0x14 8, w.now⟩
        exec i s = .next (settle (completeCmd (setSession a n e) k { result := BitVec.ofNat 64 (n + 256 * e.gen) }))) ∧
      (paramBit p 0x12 2 = true →
        let id := param p 0x16 16
        let u := setSession a (id % 256) { tget Session.reset w.sessions (id % 256) with state := .opened }
        exec i s = .next (settle (completeCmd
          (releaseHost ((u.cmds.filter (fun c => cmdSession u c.key == id)).foldl (fun s c => missCheck s c.key) u)) k
          { result := BitVec.ofNat 64 id })))) ∧
    (handed (.sessionClose port slot hdr) = some h →
      let r := freeSession w (cmdSession w k % 256) k
      exec (.sessionClose port slot hdr) s = .next (settle (completeCmd r.2 k
        { result := BitVec.ofNat 64 (r.1.1 % 65536 + 65536 * (r.1.2 % 65536)) }))) ∧
    (handed (.attach port slot hdr) = some h →
      let b := renewLease a
      let c : State := { b with
        dev := if b.dev = .orphaned then .ready else b.dev
        lease := { b.lease with adoptBy := some (b.now + ticksCeil (clampWindow (param p 0x10 64)).1) }
        sessions := b.sessions.map (fun e =>
          (e.1, if e.2.state = .opened ∨ e.2.state = .orphaned then { e.2 with state := .adoptable } else e.2)) }
      let d := requeueFaults c
      let all := orphanEntries d k
      let out := all.take ((hdrField p 0x18 32 - 64) / 32)
      let n := (d.sessions.filter (fun e => e.2.state == .adoptable)).length
      let l := longReply d k (orphanHeader d out.length (bit (w.lease.state == .orphaned)) (allPendings d).length
        ((allPendings c).filter (fun e => e.2.2.record == .fetched)).length ++ out.flatten)
      exec (.attach port slot hdr) s = .next (settle (completeCmd (releaseHost l.2) k
        { result := BitVec.ofNat 64 (out.length % 65536 + 65536 * (n % 65536) + 2 ^ 32 * (reportedCmds d k % 65536))
          longWritten := l.1.1, trunc := decide (out.length < all.length) || l.1.2 })))

/-! ### Stream code and the events of stream queues (spec/08_streams.md R191 to R205, R217, R222; spec/07_scratchpad.md R169 to R187) -/

/-- The arithmetic instructions of two registers: each writes rd with its result modulo 2⁶⁴ and the program goes on; nothing but that queue
changes (R199 to R201). The queue stands at the instruction when its program holds that word at its pc. The arithmetic instructions with
an immediate: ADDI and MULI take it sign-extended, ANDI zero-extended, the shifts by 0 to 63 (R201). -/
def Obligations.StreamArithmetic : Prop :=
  (∀ (core : BitVec 8) (queue : BitVec 3) (rd : BitVec 4) (sa sb : BitVec 5) (q : Queue) (s : State),
     let at_ := fun op => atInstr s core.toNat queue.toNat (icA op rd.toNat sa.toNat sb.toNat) = some q
     let x := selReg q sa.toNat
     let y := selReg q sb.toNat
     let done := fun v => Host.Outcome.next (ρ := Refusal) (φ := Fault)
       (setQueue s core.toNat queue.toNat { q with regs := q.regs.set rd.toNat v, pc := q.pc + 1, wait := .program })
     (at_ 0x1 → exec (.add core queue rd sa sb) s = done (x + y)) ∧ (at_ 0x2 → exec (.sub core queue rd sa sb) s = done (x - y)) ∧
     (at_ 0x3 → exec (.mul core queue rd sa sb) s = done (x * y)) ∧ (at_ 0x4 → exec (.and core queue rd sa sb) s = done (x &&& y)) ∧
     (at_ 0x5 → exec (.or core queue rd sa sb) s = done (x ||| y)) ∧ (at_ 0x6 → exec (.xor core queue rd sa sb) s = done (x ^^^ y)) ∧
     (at_ 0x7 → exec (.min core queue rd sa sb) s = done (if x.ult y then x else y)) ∧
     (at_ 0x8 → exec (.max core queue rd sa sb) s = done (if x.ult y then y else x))) ∧
  (∀ (core : BitVec 8) (queue : BitVec 3) (rd : BitVec 4) (sa : BitVec 5) (imm : BitVec 17) (q : Queue) (s : State),
     let at_ := fun op => atInstr s core.toNat queue.toNat (icB op rd.toNat sa.toNat imm.toNat) = some q
     let x := selReg q sa.toNat
     let done := fun v => Host.Outcome.next (ρ := Refusal) (φ := Fault)
       (setQueue s core.toNat queue.toNat { q with regs := q.regs.set rd.toNat v, pc := q.pc + 1, wait := .program })
     (at_ 0x10 → exec (.addi core queue rd sa imm) s = done (x + imm.signExtend 64)) ∧
     (at_ 0x11 → exec (.muli core queue rd sa imm) s = done (x * imm.signExtend 64)) ∧
     (at_ 0x12 → imm.toNat < 64 → exec (.shli core queue rd sa imm) s = done (x <<< imm.toNat)) ∧
     (at_ 0x13 → imm.toNat < 64 → exec (.shri core queue rd sa imm) s = done (x >>> imm.toNat)) ∧
     (at_ 0x14 → exec (.andi core queue rd sa imm) s = done (x &&& imm.zeroExtend 64)))

/-- BZ and BNZ skip the instructions after them when their register is zero, or is not; LDS loads the low 64 bits of a clean scratchpad
word; of a poisoned one it ends the program, and the tile is delivered as poison, recorded once for the command and queue (R201, R410). -/
def Obligations.StreamBranchesAndLoads : Prop :=
  ∀ (core : BitVec 8) (queue : BitVec 3) (rd : BitVec 4) (sa : BitVec 5) (imm : BitVec 17) (q : Queue) (s : State),
    let at_ := fun op => atInstr s core.toNat queue.toNat (icB op rd.toNat sa.toNat imm.toNat) = some q
    let x := selReg q sa.toNat
    let go := fun n => Host.Outcome.next (ρ := Refusal) (φ := Fault)
      (setQueue s core.toNat queue.toNat { q with pc := q.pc + n + 1, wait := .program })
    (at_ 0x18 → branchOperands rd imm = true → exec (.bz core queue rd sa imm) s = go (if x = 0 then imm.toNat else 0)) ∧
    (at_ 0x19 → branchOperands rd imm = true → exec (.bnz core queue rd sa imm) s = go (if x = 0 then 0 else imm.toNat)) ∧
    (at_ 0x16 → ∀ w t, spadRead s (some q.key) core.toNat ((x + imm.signExtend 64).toNat % 2 ^ 19) = ((w, false), t) →
      exec (.lds core queue rd sa imm) s = .next (setQueue t core.toNat queue.toNat
        { q with regs := q.regs.set rd.toNat (w.extractLsb' 0 64), pc := q.pc + 1, wait := .program })) ∧
    (at_ 0x16 → ∀ w t,
      let a := (x + imm.signExtend 64).toNat % 2 ^ 19
      spadRead s (some q.key) core.toNat a = ((w, true), t) →
        let u := updCmd t q.key (fun c => { c with poison := true })
        let v := if q.poisoned then u
          else report u ⟨0x11, core.toNat, some q.key, clusterOf core.toNat, queue.toNat, gaddrOf core.toNat a, 0, 0⟩
        exec (.lds core queue rd sa imm) s = .next (runAhead (setQueue v core.toNat queue.toNat
          { q with poisoned := true, op := .poison, wait := .none }) core.toNat queue.toNat))

/-- What no instruction of a stream program that only computes changes: everything outside the stream queues, and among the queues every
other one (R199, R201). -/
def Obligations.StreamArithmeticFrame : Prop :=
  ∀ (core : BitVec 8) (queue : BitVec 3) (rd : BitVec 4) (sa sb : BitVec 5) (imm : BitVec 17) (i : Instr) (s t : State),
    i ∈ [Instr.add core queue rd sa sb, .sub core queue rd sa sb, .mul core queue rd sa sb, .and core queue rd sa sb,
      .or core queue rd sa sb, .xor core queue rd sa sb, .min core queue rd sa sb, .max core queue rd sa sb,
      .addi core queue rd sa imm, .muli core queue rd sa imm, .shli core queue rd sa imm, .shri core queue rd sa imm,
      .andi core queue rd sa imm, .bz core queue rd sa imm, .bnz core queue rd sa imm] →
    Table.wf Queue.reset s.str.queues = true → exec i s = .next t →
      t = { s with str := { s.str with queues := t.str.queues } } ∧ Table.wf Queue.reset t.str.queues = true ∧
        (∀ a b, (a, b) ≠ (core.toNat, queue.toNat) → b < 8 → queueAt t a b = queueAt s a b) ∧
        (∀ a, t.pmem.byte a = s.pmem.byte a ∧ t.spad.mem.byte a = s.spad.mem.byte a)

/-- EMIT, EMPTY and SKIP decide the tile: EMIT gives its memory address and its scratchpad word and the tile goes to its issue, EMPTY
delivers it as padding, SKIP counts it delivered and takes up the next (R201); a stream that is told to stop ends at that tile boundary
(R344). The queue then runs ahead: it issues what its bounds allow (R193, R202). -/
def Obligations.StreamTileDecisions : Prop :=
  ∀ (core : BitVec 8) (queue : BitVec 3) (rd : BitVec 4) (sa sb : BitVec 5) (imm : BitVec 17) (q : Queue) (s : State),
    let c := core.toNat
    let n := queue.toNat
    (atInstr s c n (icA 0x20 rd.toNat sa.toNat sb.toNat) = some q →
      exec (.emit core queue rd sa sb) s = .next (settle (runAhead (setQueue s c n
        { q with op := .emit (selReg q sa.toNat) ((selReg q sb.toNat).toNat % 2 ^ 19), wait := .none }) c n))) ∧
    (atInstr s c n (icB 0x21 rd.toNat sa.toNat imm.toNat) = some q →
      exec (.empty core queue rd sa imm) s = .next (settle (runAhead (setQueue s c n { q with op := .empty, wait := .none }) c n))) ∧
    (atInstr s c n (icB 0x22 rd.toNat sa.toNat imm.toNat) = some q →
      let u := bumpStr s (clusterOf c) (if dStore (curDesc q) then 0x10 else 0x08) 1
      (stopsHere s q.key = none → exec (.skip core queue rd sa imm) s =
        .next (settle (runAhead (setQueue u c n (pastTile u c n q false)) c n))) ∧
      (∀ code, stopsHere s q.key = some code → exec (.skip core queue rd sa imm) s = .next (settle (abortCmd s q.key code))))

/-- CWAIT goes on when the arrival counter has reached its register, and else waits; the wait ends when the count has come (R179, R201).
CSET, CSUB and CARM write an arrival counter: CSET sets the count and clears OVF, CSUB subtracts down to 0, CARM arms it with a target,
a fill range and RELOAD; a CARM with target 0 or a range beyond the scratchpad ends the command as COUNTER_INVALID (R178 to R180, R201). -/
def Obligations.StreamCounters : Prop :=
  (∀ (core : BitVec 8) (queue : BitVec 3) (rd : BitVec 4) (sa : BitVec 5) (imm : BitVec 17) (q : Queue) (s : State),
     let c := core.toNat
     let n := queue.toNat
     let go := Host.Outcome.next (ρ := Refusal) (φ := Fault) (setQueue s c n { q with pc := q.pc + 1, wait := .program })
     (atInstr s c n (icB 0x28 rd.toNat sa.toNat imm.toNat) = some q → imm.toNat < 64 →
       ((selReg q sa.toNat).toNat ≤ (arrivalOf s c imm.toNat).count.toNat → exec (.cwait core queue rd sa imm) s = go) ∧
       ((arrivalOf s c imm.toNat).count.toNat < (selReg q sa.toNat).toNat →
         exec (.cwait core queue rd sa imm) s = .next (setQueue s c n (waitFor s q (.counter imm.toNat (selReg q sa.toNat)))))) ∧
     (∀ ctr v, queueAt s c n = q → q.state = .running → q.wait = .counter ctr v → v.toNat ≤ (arrivalOf s c ctr).count.toNat →
       exec (.cwaitRelease core queue) s = go)) ∧
  (∀ (core : BitVec 8) (queue : BitVec 3) (rd : BitVec 4) (sa : BitVec 5) (imm : BitVec 17) (q : Queue) (s : State),
     let c := core.toNat
     let n := queue.toNat
     let k := imm.toNat
     let x := selReg q sa.toNat
     let go := setQueue s c n { q with pc := q.pc + 1, wait := .program }
     k < 64 →
     (atInstr s c n (icB 0x29 rd.toNat sa.toNat k) = some q →
       exec (.cset core queue rd sa imm) s = .next (settle (fireCounter (setArrival go c k
         { arrivalOf s c k with count := x.extractLsb' 0 32, ovf := false }) c k))) ∧
     (atInstr s c n (icB 0x2A rd.toNat sa.toNat k) = some q →
       exec (.csub core queue rd sa imm) s = .next (setArrival go c k
         { arrivalOf s c k with count := BitVec.ofNat 32 ((arrivalOf s c k).count.toNat - x.toNat % 2 ^ 32) })) ∧
     (atInstr s c n (icB 0x2B rd.toNat sa.toNat k) = some q →
       (x.toNat % 2 ^ 32 ≠ 0 → x.toNat / 2 ^ 32 % 2048 + x.toNat / 2 ^ 43 % 4096 ≤ 2048 → x.toNat / 2 ^ 57 = 0 →
         x.getLsbD 55 = false →
         exec (.carm core queue rd sa imm) s = .next (settle (fireCounter (setArrival go c k
           { arrivalOf s c k with
             armed := true, fired := false, reload := x.getLsbD 56, target := BitVec.ofNat 32 (x.toNat % 2 ^ 32)
             fillFirst := x.toNat / 2 ^ 32 % 2048, fillCount := x.toNat / 2 ^ 43 % 4096 }) c k))) ∧
       (x.toNat % 2 ^ 32 = 0 →
         exec (.carm core queue rd sa imm) s = .next (settle (counterInvalid s c k 0 q.key)))))

/-- WOPEN opens a CLOSED window that may open again, waits for one that may not yet, and is illegal on an OPEN one; WINDOW_REOPEN carries
the waiting OPEN out; WCLOSE begins a close; WWAIT waits until the window is CLOSED; an operation on a window in the reserved state 3 is
recorded and goes on (R182, R185, R201). -/
def Obligations.StreamWindows : Prop :=
  ∀ (core : BitVec 8) (queue : BitVec 3) (rd : BitVec 4) (sa : BitVec 5) (imm : BitVec 17) (q : Queue) (s : State),
    let c := core.toNat
    let n := queue.toNat
    let w := imm.toNat
    let go := fun s => setQueue s c n { q with pc := q.pc + 1, wait := .program }
    w < 8 →
    (atInstr s c n (icB 0x2C rd.toNat sa.toNat w) = some q →
      ((windowOf s c w).state = 1 → exec (.wopen core queue rd sa imm) s = .next (settle (windowIllegal s c w (some q.key)))) ∧
      (3 ≤ (windowOf s c w).state → exec (.wopen core queue rd sa imm) s =
        .next (settle (go (windowReserved s c w (some q.key))))) ∧
      ((windowOf s c w).state ≠ 1 → (windowOf s c w).state < 3 → mayOpen s (windowOf s c w) = false →
        exec (.wopen core queue rd sa imm) s = .next (settle (setQueue s c n { q with wait := .reopen w (selReg q sa.toNat) }))) ∧
      (mayOpen s (windowOf s c w) = true →
        let v := opened (windowOf s c w) (selReg q sa.toNat) q.key
        v.base.toNat ≤ v.limit.toNat → queueAt s c n = q →
          exec (.wopen core queue rd sa imm) s = .next (settle (go (setWindow s c w v))))) ∧
    (atInstr s c n (icB 0x2D rd.toNat sa.toNat w) = some q →
      ((windowOf s c w).state < 3 →
        exec (.wclose core queue rd sa imm) s = .next (go (setWindow s c w (closing (windowOf s c w))))) ∧
      (3 ≤ (windowOf s c w).state →
        exec (.wclose core queue rd sa imm) s = .next (go (windowReserved s c w (some q.key))))) ∧
    (atInstr s c n (icB 0x2E rd.toNat sa.toNat w) = some q →
      ((windowOf s c w).state = 0 → exec (.wwait core queue rd sa imm) s = .next (go s)) ∧
      ((windowOf s c w).state ≠ 0 → exec (.wwait core queue rd sa imm) s = .next (setQueue s c n (waitFor s q (.window w))))) ∧
    (queueAt s c n = q → q.state = .running → q.wait = .window w → (windowOf s c w).state = 0 →
      exec (.wwaitRelease core queue) s = .next (go s)) ∧
    (∀ (win : BitVec 3) arg, (∀ m, m < n → ∀ a, (queueAt s c m).wait ≠ .reopen win.toNat a) → queueAt s c n = q →
      q.wait = .reopen win.toNat arg → mayOpen s (windowOf s c win.toNat) = true →
      let v := opened (windowOf s c win.toNat) arg q.key
      v.base.toNat ≤ v.limit.toNat →
        exec (.windowReopen core win) s = .next (settle (go (setWindow s c win.toNat v))))

/-- SWAIT takes one from its semaphore count or waits; the wait ends when the count is not 0, of a program with the take, of a descriptor's
pair with the tile's issue, which takes; SPOST adds one, and a post above capacity is the error SEM_OVERPOST (R201, R204, R205). -/
def Obligations.StreamSemaphores : Prop :=
  ∀ (core : BitVec 8) (queue : BitVec 3) (rd : BitVec 4) (sa : BitVec 5) (imm : BitVec 17) (q : Queue) (s : State),
    let c := core.toNat
    let n := queue.toNat
    let p := imm.toNat % 16
    let full := imm.getLsbD 4
    let x := semAt s c p
    let go := fun s => setQueue s c n { q with pc := q.pc + 1, wait := .program }
    (atInstr s c n (icB 0x30 rd.toNat sa.toNat imm.toNat) = some q →
      (semCount x full ≠ 0 → exec (.swait core queue rd sa imm) s = .next (go (setSem s c p (semTake x full)))) ∧
      (semCount x full = 0 →
        exec (.swait core queue rd sa imm) s = .next (setQueue s c n (waitFor s q (.semaphore p full false))))) ∧
    (atInstr s c n (icB 0x31 rd.toNat sa.toNat imm.toNat) = some q →
      (∀ y, semPost x full = some y → exec (.spost core queue rd sa imm) s = .next (settle (go (setSem s c p y)))) ∧
      (semPost x full = none → exec (.spost core queue rd sa imm) s = .next (settle (overPost s c p q.key)))) ∧
    (queueAt s c n = q → q.state = .running → ∀ p full, q.wait = .semaphore p full false → semCount (semAt s c p) full ≠ 0 →
      exec (.swaitRelease core queue) s = .next (settle (go (setSem s c p (semTake (semAt s c p) full))))) ∧
    (queueAt s c n = q → q.state = .running → ∀ p full, q.wait = .semaphore p full true → semCount (semAt s c p) full ≠ 0 →
      exec (.swaitRelease core queue) s = .next (settle (runAhead (setQueue s c n { q with wait := .none }) c n))) ∧
    (queueAt s c n = q → q.state = .running → ∀ p full d, q.wait = .semaphore p full d → semCount (semAt s c p) full = 0 →
      exec (.swaitRelease core queue) s = .next (settle s))

/-- A handoff's notices: VCRED posts a CREDIT notice to its vector engine, at once where the stream stands alone and with the plan step's
drain in a plan step, once the handoff stores that its queue issued before have gone; the DATA notice of a complete unit is posted, and
the queue goes on (R187, R201, R366). A blocked tagged access is admitted when its granule's tag is FULL for a read or EMPTY for a write
(R169); a queue of which a stall timer has passed its budget is a HANG: recorded with the blocked granule and its tag, counted, and the
command ends ABORTED_FAULT; another queue is left as it is (R172). -/
def Obligations.StreamNoticesTagsAndHangs : Prop :=
  (∀ (core : BitVec 8) (queue : BitVec 3) (rd : BitVec 4) (sa sb : BitVec 5) (q : Queue) (s : State),
     let c := core.toNat
     let n := queue.toNat
     let go := fun s => setQueue s c n { q with pc := q.pc + 1, wait := .program }
     (atInstr s c n (icA 0x32 rd.toNat sa.toNat sb.toNat) = some q →
       let a := (selReg q sa.toNat).toNat
       let b := (selReg q sb.toNat).toNat
       let dest := a / 2 ^ 26 % 2 ^ 14
       let w := noticeWord 1 n false (b % 2 ^ 32) (a / 2 ^ 19 % 64) (b / 2 ^ 32) (gaddrOf c (a % 2 ^ 19))
       (a.testBit 25 = false → a / 2 ^ 40 = 0 → b % 2 ^ 32 ≠ 0 → a % 2 ^ 19 + b % 2 ^ 32 ≤ 2 ^ 19 →
         (handoffOpen q = false → exec (.vcred core queue rd sa sb) s =
           .next (settle (go (if stagedStore s c q then stageNotice s c q dest w else postNotice s c dest w)))) ∧
         (handoffOpen q = true → exec (.vcred core queue rd sa sb) s = .next (settle s))) ∧
       ((a.testBit 25 = true ∨ a / 2 ^ 40 ≠ 0 ∨ b % 2 ^ 32 = 0 ∨ 2 ^ 19 < a % 2 ^ 19 + b % 2 ^ 32) →
         exec (.vcred core queue rd sa sb) s = .next (settle (counterInvalid s c (a / 2 ^ 19 % 64) (b % 2 ^ 32) q.key)))) ∧
     (queueAt s c n = q → queueRuns s c q = true → q.unitDone = true →
       exec (.handoffDataNotice core queue) s = .next (settle (goOn (postUnit s c n) c n)) ∧
         (postUnit s c n).spad.notices = s.spad.notices ++ [unitNotice s c n q])) ∧
  (∀ (core : BitVec 8) (queue : BitVec 3) (q : Queue) (s : State),
     let c := core.toNat
     let n := queue.toNat
     queueAt s c n = q →
     (∀ g write x, q.state = .running → q.tagWait = some (g, write, x) →
       (tagFull s c g ≠ write → exec (.taggedAccessAdmit core queue) s =
         .next (settle (goOn (setQueue s c n { q with tagWait := none }) c n))) ∧
       (tagFull s c g = write → exec (.taggedAccessAdmit core queue) s = .next (settle s))) ∧
     (q.tagWait = none → exec (.taggedAccessAdmit core queue) s = .next (settle s)) ∧
     (∀ g write x, q.tagWait = some (g, write, x) → x.budget < x.ran →
       hangPlace s c q = some (gaddrOf c (g * 256), if tagFull s c g then 1 else 0)) ∧
     (∀ a t, q.state = .running ∨ q.state = .faulted → hangPlace s c q = some (a, t) →
       exec (.hang core queue) s = .next (settle (abortCmd
         (bumpSpd (report s ⟨0x0A, c, some q.key, clusterOf c, n, a, t, 0⟩) (clusterOf c) 0x38 1) q.key 0x20))) ∧
     (q.state = .free ∨ q.state = .parked ∨ hangPlace s c q = none → exec (.hang core queue) s = .next (settle s)))

/-- TRANSFER_COMPLETE completes the named transfer in flight of the tiles that a queue has issued, and delivers those that are then whole; a
tile without transfers is delivered (R191, R192, log 24). On a die whose translation unit is fenced the command ends ABORTED_FAULT (R18); a
queue that does not run, or has issued nothing, is left as it is. -/
def Obligations.TransfersComplete : Prop :=
  ∀ (core : BitVec 8) (queue : BitVec 3) (index : BitVec 6) (flip : List Granule) (s : State),
    let c := core.toNat
    let n := queue.toNat
    let q := queueAt s c n
    (queueRuns s c q = true → q.issued ≠ [] →
      (streamFenced s c = false → inFlight q = [] → exec (.transferComplete core queue index flip) s = .next (settle (goOn s c n))) ∧
      (streamFenced s c = false → inFlight q ≠ [] → exec (.transferComplete core queue index flip) s =
        .next (settle (goOn (doTransfer s c n ((inFlight q).getD (index.toNat % (inFlight q).length) (0, 0)) flip) c n))) ∧
      (streamFenced s c = true → exec (.transferComplete core queue index flip) s = .next (settle (abortCmd s q.key 0x20)))) ∧
    (queueRuns s c q = false ∨ q.issued = [] → exec (.transferComplete core queue index flip) s = .next (settle s))

/-- BASKET_ARRIVAL takes up the next descriptors of the stream, up to a multiple of 16 and none beyond its count, once they have been read
and found valid; it is counted with its bytes, and a stream that waited for them begins its tile (R203). PLAN_LOAD, its image read and the
store written without a fault, has its plan at the lowest offset of the store that holds it; PLAN_UNLOAD removes its plan (R207, R212).
STREAM_HALT stops its stream at its tile boundary, with a resume record where it asks for one (R216). -/
def Obligations.BasketsArrive : Prop :=
  (∀ (core : BitVec 8) (queue : BitVec 3) (s : State),
    let c := core.toNat
    let n := queue.toNat
    let q := queueAt s c n
    let img := streamImage s q
    let next_ := q.desc + q.basket.length
    let k := min (16 - next_ % 16) ((streamEntry img n).count - next_)
    let va := cfgVal s 0x4000 0 + (planOf s q.plan).elim 0 (fun p => p.offset) + (planHeader img).descOff +
      64 * ((streamEntry img n).first + next_)
    let fetched := ends (readBasket { whoStream q c n 0 with origin := 1 } va k) s
    let descs := fun (bs : List Byte) => (chunksOf 64 k bs).map (fun c => BitVec.ofNat 512 (bytesNat c))
    queueRuns s c q = true → q.basket.length ≤ 8 → next_ < (streamEntry img n).count →
    fetched.any (fun e => (basketInvalid img (descs e.1)).isNone) = true →
      ∃ (bs : List Byte) (u : State), fetched = some (bs, u) ∧
        (let v := setQueue (bumpStr (bumpStr u (clusterOf c) 0x28 1) (clusterOf c) 0x18 (64 * k)) c n
           { q with basket := q.basket ++ descs bs }
         exec (.basketArrival core queue) s = .next (settle (if q.wait = .basket then
           runAhead (setQueue v c n { queueAt v c n with wait := .none }) c n else v)))) ∧
  (∀ (port : Port) (slot : BitVec 6) (hdr : BitVec 64) (h : Handed) (k : Nat) (s : State),
    let a := working h k s
    let p := slotAt a k
    let id := param p 0xC 16
    let put := fun (t : State) (x : Option Plan) => ({ t with str := { t.str with plans := tset none t.str.plans id x } } : State)
    mayRun h k s = true →
    (handed (.planLoad port slot hdr) = some h → paramBit p 0xE 0 = false → (ends ((opDef h.op).body k) a).isSome = true →
      ∃ (bs : List Byte) (off : Nat) (u v : State), ends (readImage k (cmdAsid a k) (param p 0 64) (param p 8 32)) a = some (bs, u) ∧
        storeRoom u id (param p 8 32) = some off ∧ ends (storeWrite k off bs) u = some ((), v) ∧
        exec (.planLoad port slot hdr) s = .next (settle (completeCmd (put v (some ⟨off, param p 8 32⟩)) k {}))) ∧
    (handed (.planUnload port slot hdr) = some h → paramBit p 0xE 0 = true →
      exec (.planUnload port slot hdr) s = .next (settle (completeCmd (put a none) k {}))) ∧
    (handed (.streamHalt port slot hdr) = some h →
      let t := handleTarget (param p 0 64)
      let r := haltStream a t.1 t.2
      (hdrField p 0x10 64 = 0 → exec (.streamHalt port slot hdr) s = .next (settle (completeCmd r.2 k {}))) ∧
      (hdrField p 0x10 64 ≠ 0 →
        let l := longReply r.2 k r.1
        exec (.streamHalt port slot hdr) s = .next (settle (completeCmd l.2 k { longWritten := l.1.1, trunc := l.1.2 })))))

/-- A multicast group of a standard plan fetches a tile at most once and hands it to every attached receiver that is not stalled, while no
attached receiver would lag by more than 8; one of a loaded plan moves nothing while no receiver stands at its next tile; a receiver that
has held the group for its budget is detached, recorded and counted, and goes on by unicast (R222 to R224). -/
def Obligations.MulticastGroups : Prop :=
  ∀ (cluster : BitVec 5) (group : BitVec 2) (s : State) (x : Group),
    let g := cluster.toNat
    let put := fun (s : State) (x' : Group) =>
      ({ s with str := { s.str with groups := tset none s.str.groups (4 * g + group.toNat) (some x') } } : State)
    tget none s.str.groups (4 * g + group.toNat) = some x →
    (x.queue = none → ∃ (x' : Group) (waits : Bool),
      (let fetch := decide (x.fetched < x.tiles) && mayFetch x
       let u := if fetch then putRows s (multicastAddr g (groupSlot x x.fetched)) (ringRows s x g x.fetched) else s
       exec (.multicastBroadcast cluster group) s = .next (settle (bumpStr (settleHolds u g group.toNat waits x') g 0x50 (bit fetch))) ∧
       x'.fetched = x.fetched + bit fetch) ∧
      x'.tiles = x.tiles ∧ x'.key = x.key ∧ x'.receivers.length = x.receivers.length ∧
      ∀ (j : Nat) (r r' : Receiver), x.receivers[j]? = some r → x'.receivers[j]? = some r' →
        r'.core = r.core ∧ r'.split = r.split ∧ r'.attached = r.attached ∧
          r'.taken = r.taken + (if r.attached = true ∧ receiverStalled s x.key r.core = false ∧ r.taken < x'.fetched ∧
            (∀ y ∈ x.receivers, y.attached = true → r.taken < y.taken + 8) then 1 else 0)) ∧
    (∀ qi, x.queue = some qi → (∀ r ∈ x.receivers, (queueAt s r.core qi).wait ≠ .group) →
      sourceFaulted s x.key g qi = false →
      exec (.multicastBroadcast cluster group) s = .next (settle (settleHolds s g group.toNat false x))) ∧
    (∀ (receiver : BitVec 3) (r : Receiver) (since : Nat), x.receivers[receiver.toNat]? = some r → r.attached = true →
      r.holdSince = some since →
      (since + r.budget ≤ s.now →
        ∃ (x' : Group) (u : State), exec (.multicastDetach cluster group receiver) s =
            .next (settle (goUnicast (countHolds (bumpStr u g 0x60 1) g (holdsEnded x x')) x' r)) ∧
          u.str = (put s x').str ∧ u.log = (logAdd s 0x0002 (0xC040 + g) 0 (detachBytes s x.key g group.toNat r)).log ∧
          ∃ r' : Receiver, x'.receivers[receiver.toNat]? = some r' ∧ r'.attached = false ∧ r'.core = r.core) ∧
      (s.now < since + r.budget → exec (.multicastDetach cluster group receiver) s = .next (settle s)))

/-! ### Remote writes, windows and arrival counters (spec/07_scratchpad.md R174 to R185) -/

/-- A request that is malformed, or whose target is fenced or without power, is refused MALFORMED (4) or NO_TARGET (3) before anything is
written; the refusal of a privileged write carries its window's generation (R175, R176). An ordinary remote write is written and then
counted in its arrival counter, which fires when its target is reached (R177, R179). WRITE_ACK and WRITE_NAK bring the oldest
acknowledgement and the oldest refusal to its sender, and change nothing else where no admitted write is in flight (R176); a row whose
source is of the other class is left to the other row. -/
def Obligations.OrdinaryWritesAndAcknowledgements : Prop :=
  (∀ (src : BitVec 16) (req : Word128) (data : List (Word128 × Bool)) (s : State) (i : Instr),
     (src.toNat < 0x8000 ∧ i = .ordinaryRemoteWrite src req data) ∨ (0x8000 ≤ src.toNat ∧ i = .privilegedRemoteWrite src req data) →
     (requestMalformed src req = true → exec i s = .next (settle (refuseOther s src req 4))) ∧
     (requestMalformed src req = false → targetGone s (rqGaddr req / 2 ^ 19) = true →
       exec i s = .next (settle (refuseOther s src req 3))) ∧
     (∀ code, (refuseOther s src req code).spad.mem = s.spad.mem ∧
       (refuseOther s src req code).spad.acks =
         s.spad.acks ++ [⟨src, nakWord code
           (if src.toNat < 0x8000 then 0 else (windowOf s (rqGaddr req / 2 ^ 19) (rqWin req)).gen.toNat)
           (rqWin req) (rqWriter req).toNat (rqGaddr req)⟩])) ∧
  (∀ (src : BitVec 16) (req : Word128) (data : List (Word128 × Bool)) (s : State),
     let core := rqGaddr req / 2 ^ 19
     let ctr := rqCtr req
     (src.toNat < 0x8000 → requestMalformed src req = false → targetGone s core = false →
       let u := writeWords s req data
       exec (.ordinaryRemoteWrite src req data) s = .next (settle (fireCounter (bumpSpd
         (setArrival u core ctr (addArrival (arrivalOf u core ctr) (rqWords req))) (clusterOf core) 0x40 (rqWords req)) core ctr))) ∧
     (0x8000 ≤ src.toNat → exec (.ordinaryRemoteWrite src req data) s = .next (settle s)) ∧
     (src.toNat < 0x8000 → exec (.privilegedRemoteWrite src req data) s = .next (settle s))) ∧
  (∀ (s : State) (l r : List AckMsg) (a : AckMsg), s.spad.acks = l ++ a :: r →
     (s.spad.admitted = [] → (∀ b ∈ l, ackCode b ≠ 0) → ackCode a = 0 →
       exec .writeAck s = .next { s with spad := { s.spad with acks := l ++ r, returned := s.spad.returned ++ [a] } }) ∧
     ((∀ b ∈ l, ackCode b = 0) → ackCode a ≠ 0 →
       exec .writeNak s = .next { s with spad := { s.spad with acks := l ++ r, returned := s.spad.returned ++ [a] } }))

/-- A privileged remote write is admitted by an OPEN window of its generation, within its limits and for its writer's class, when it is not
older than 3,840 ticks: it is in flight, the oldest of 32 having completed, and counted (R181). Any other is refused WINDOW_CLOSED (1) or WINDOW_DENIED (2), and no word is written
(R183). The words of an admitted write are written, it leaves flight, and its ACK goes to its sender, by the next tick, at the end of its
window's CLOSING, or when its acknowledgement is asked for (log 39). A CLOSE takes an OPEN window to CLOSING and leaves any other; a
CLOSING window with no write in flight becomes CLOSED, its generation advances and closed_at is the time (R183). -/
def Obligations.WindowsAdmitPrivilegedWrites : Prop :=
  (∀ (src : BitVec 16) (req : Word128) (data : List (Word128 × Bool)) (s : State),
     let core := rqGaddr req / 2 ^ 19
     let w := windowOf s core (rqWin req)
     let a := rqGaddr req % 2 ^ 19
     0x8000 ≤ src.toNat → requestMalformed src req = false → targetGone s core = false →
     ((s.now % 65536 + 65536 - rqStamp req) % 65536 ≤ 3840 → w.state = 1 → rqGen req = w.gen → windowAdmits w src = true →
       w.base.toNat ≤ a → a + rqWords req ≤ w.limit.toNat + 1 →
         let v := if 32 ≤ w.inFlight then completeOldest s core (rqWin req) else s
         let x := windowOf v core (rqWin req)
         let u := bumpSpd (setWindow v core (rqWin req) { x with inFlight := x.inFlight + 1 }) (clusterOf core) 0x50 1
         exec (.privilegedRemoteWrite src req data) s =
           .next (settle { u with spad := { u.spad with admitted := u.spad.admitted ++ [(src, req, data)] } })) ∧
     ((3840 < (s.now % 65536 + 65536 - rqStamp req) % 65536 ∨ w.state ≠ 1 ∨ rqGen req ≠ w.gen) →
       exec (.privilegedRemoteWrite src req data) s = .next (settle (refuseWindow s src req 1))) ∧
     ((s.now % 65536 + 65536 - rqStamp req) % 65536 ≤ 3840 → w.state = 1 → rqGen req = w.gen →
       windowAdmits w src = false ∨ a < w.base.toNat ∨ w.limit.toNat + 1 < a + rqWords req →
         exec (.privilegedRemoteWrite src req data) s = .next (settle (refuseWindow s src req 2))) ∧
     (∀ code, (refuseWindow s src req code).spad.mem = s.spad.mem)) ∧
  (∀ (src : BitVec 16) (req : Word128) (data : List (Word128 × Bool)) (s : State),
     let core := rqGaddr req / 2 ^ 19
     let u := writeWords { s with spad := { s.spad with admitted := [] } } req data
     let w := windowOf u core (rqWin req)
     let v := setWindow u core (rqWin req) { w with inFlight := w.inFlight - 1 }
     let ack : AckMsg := ⟨src, ackWord (rqGen req).toNat (rqWin req) (rqWords req) (rqWriter req).toNat (rqGaddr req)⟩
     s.spad.admitted = [(src, req, data)] →
       completeWrites s (fun _ => true) = { v with spad := { v.spad with acks := s.spad.acks ++ [ack] } } ∧
       (s.spad.acks = [] → exec .writeAck s =
         .next { v with spad := { v.spad with acks := [], returned := s.spad.returned ++ [ack] } })) ∧
  (∀ (core : BitVec 8) (win : BitVec 3) (s : State),
     let c := core.toNat
     let n := win.toNat
     let w := windowOf s c n
     closing w = (if w.state = 1 then { w with state := 2 } else w) ∧
     ((∀ e ∈ s.spad.admitted, rqGaddr e.2.1 / 2 ^ 19 = c → rqWin e.2.1 ≠ n) →
       (w.state = 2 → w.inFlight = 0 → exec (.windowCloseComplete core win) s =
         .next (setWindow s c n { w with state := 0, gen := w.gen + 1, closedAt := s.now, openedFor := 0 })) ∧
       ((w.state ≠ 2 ∨ w.inFlight ≠ 0) → exec (.windowCloseComplete core win) s = .next (setWindow s c n w))) ∧
     (∀ e, s.spad.admitted = [e] → rqGaddr e.2.1 / 2 ^ 19 = c → rqWin e.2.1 = n →
       let u := completeWrite { s with spad := { s.spad with admitted := [] } } e
       exec (.windowCloseComplete core win) s = .next (setWindow u c n (closedNow u.now (windowOf u c n)))))

/-- An armed counter with RELOAD fires as often as its count holds its target and keeps the remainder; one without RELOAD fires once and is
disarmed; a counter below its target, or not armed, does not fire. A count holds at 2³² − 1 with OVF (R177, R179). -/
def Obligations.ArrivalCountersFire : Prop :=
  ∀ (a : ArrivalCounter),
    (a.armed = true → a.reload = true → a.target ≠ 0 →
      firings a = a.count.toNat / a.target.toNat ∧ (a.target.toNat ≤ a.count.toNat →
        (fired a).count.toNat = a.count.toNat % a.target.toNat ∧ (fired a).armed = true ∧ firings (fired a) = 0)) ∧
    (a.armed = true → a.reload = false → a.target.toNat ≤ a.count.toNat →
      firings a = 1 ∧ (fired a).armed = false ∧ (fired a).count = a.count) ∧
    ((a.armed = false ∨ a.count.toNat < a.target.toNat) → firings a = 0) ∧
    (∀ n, (addArrival a n).count.toNat = min (a.count.toNat + n) (2 ^ 32 - 1) ∧
      ((addArrival a n).ovf = true ↔ a.ovf = true ∨ 2 ^ 32 - 1 < a.count.toNat + n))

/-! ### Memories and the 144/128 code (spec/16_errors.md R405 to R409) -/

/-- The bytes of a memory outside a granule stand when the granule is written, and a word written clean or as poison is read back so
(R165, R406, R407, R409). -/
def Obligations.WordReadsBack : Prop :=
  ∀ (m : Mem) (g g' : Nat) (w : Word128) (p : Bool), m.wf = true → g % 16 = 0 → g' % 16 = 0 →
    (m.setWord g w p).deliver g = (w, p) ∧ (g' ≠ g → (m.setWord g w p).deliver g' = m.deliver g') ∧ (m.setWord g w p).wf = true

/-- A write of bytes to a memory whose granules hold valid codes stores exactly those bytes: each byte of the range reads as written, every
other byte as before, and the canonical form is kept (R7, R165, R409). -/
def Obligations.WriteStoresExactlyItsBytes : Prop :=
  ∀ (m : Mem) (a : Nat) (bs : List Byte) (x : Nat), m.wf = true → m.chk = [] →
    (m.write a bs false).wf = true ∧ (m.write a bs false).chk = [] ∧
      (m.write a bs false).byte x = (if a ≤ x ∧ x < a + bs.length then bs.getD (x - a) 0 else m.byte x)

/-- The 144/128 code (R407): the decoder decides by the syndrome over all 36 symbols; an error in one symbol is always corrected, an error
in two is always UNCORRECTABLE, and so is a poisoned granule with an error in one further symbol; an UNCORRECTABLE granule and a POISON
granule are delivered as poison, the first recorded and the second not. -/
def Obligations.CodeGuarantees : Prop :=
  (∀ g : Granule,
    let x := syndromeOver g (List.range 36)
    (x = (0, 0, 0, 0) → decodeOutcome g = .clean) ∧
    (x = (0, 0, 1, 0) → decodeOutcome g = .poison) ∧
    (∀ i e, i < 36 → 0 < e → e < 16 → x = gfScale e (column i) → decodeOutcome g = .corrected i e ∧
      deliverGranule g = (granuleData (correctSymbol g i e), false)) ∧
    (x ≠ (0, 0, 0, 0) → x ≠ (0, 0, 1, 0) → (∀ i e, i < 36 → 0 < e → e < 16 → x ≠ gfScale e (column i)) →
      decodeOutcome g = .uncorrectable) ∧
    (decodeOutcome g = .uncorrectable ∨ decodeOutcome g = .poison → deliverGranule g = (granuleData g, true))) ∧
  (∀ (w : Word128) (i j e f : Nat), i < 36 → j < 36 → i ≠ j → 0 < e → e < 16 → 0 < f → f < 16 →
    deliverGranule (encodeGranule w false) = (w, false) ∧ deliverGranule (encodeGranule w true) = (w, true) ∧
    decodeOutcome (correctSymbol (encodeGranule w false) i e) = .corrected i e ∧
    deliverGranule (correctSymbol (encodeGranule w false) i e) = (w, false) ∧
    decodeOutcome (correctSymbol (correctSymbol (encodeGranule w false) i e) j f) = .uncorrectable ∧
    decodeOutcome (correctSymbol (encodeGranule w true) i e) = .uncorrectable) ∧
  (∀ (s : State) (who : Who) (source memory place : Nat) (scrub : Bool),
    codeRecord s who source memory place .poison scrub = s ∧
      codeRecord s who source memory place .uncorrectable scrub =
        report s ⟨0x02, source, who.key, who.cluster, 0xFF, place, memory * 65536 + (if scrub then 2 ^ 24 else 0), 0⟩)

/-- SCRUB of a granule of its stack, with the die-common domains on and the stack not fenced: a granule with one bad symbol is written back
corrected, one that cannot be corrected is written back as poison, and both are recorded; a clean or poisoned granule stands (R407,
R409). An address that is no granule of the stack stops the step (log 16). -/
def Obligations.ScrubWritesBack : Prop :=
  ∀ (stack : BitVec 5) (granule : BitVec 48) (flip : Granule) (s : State),
    (stackGranule stack granule = false → exec (.scrub stack granule flip) s = .fault .noSuchGranule) ∧
    (stackGranule stack granule = true → dieCommonOn s = true → isFenced s (0xC080 + stack.toNat) = false →
      let a := granule.toNat
      let x := s.pmem.granule a ^^^ flip
      let o := decodeOutcome x
      let u := codeRecord s { die := a / 2 ^ 39 } (0xC080 + stack.toNat) 5 a o true
      (∀ n e, o = .corrected n e →
        exec (.scrub stack granule flip) s = .next { u with pmem := u.pmem.setGranule a (correctSymbol x n e) }) ∧
      (o = .uncorrectable →
        exec (.scrub stack granule flip) s = .next (markBad { u with pmem := u.pmem.setWord a (granuleData x) true } a)) ∧
      (o = .clean ∨ o = .poison → exec (.scrub stack granule flip) s = .next { u with pmem := u.pmem.setGranule a x }))

/-! ### Placement and plan steps (spec/13_scheduling.md R338, R339, R341 to R344; spec/14_firmware.md R366; spec/03_score_array.md R65) -/

/-- COMMAND_PLACE acts for the first waiting command, in the order of R338's keys, for which the scheduler core can act now; while the
scheduler core is not running, or in a state other than READY and DRAINING, nothing is placed (R338, R339). COMMAND_PLACE of the first
waiting compute command, with clusters that could take it free and awake, places it on the lowest of them (which ones is the model's
choice, log 26), at most one for each octet of its plan (R338). -/
def Obligations.CommandsArePlaced : Prop :=
  (∀ (s : State),
     (∀ (l r : List Cmd) (c : Cmd) (t : State), placeQueue s = l ++ c :: r →
       let kept (l : List Cmd) : List Nat := l.foldl (fun held b => held ++ waitsFor held s b) []
       (∀ i b, l[i]? = some b → placeOne (kept (l.take i)) s b = none) → placeOne (kept l) s c = some t →
       procRunning s 2 = true → (s.dev = .ready ∨ s.dev = .draining) → exec .commandPlace s = .next (settle t)) ∧
     ((procRunning s 2 = false ∨ (s.dev ≠ .ready ∧ s.dev ≠ .draining)) → exec .commandPlace s = .next (settle s))) ∧
  (∀ (s : State) (c : Cmd) (r : List Cmd) (gs : List Nat), placeQueue s = c :: r → procRunning s 2 = true → s.dev = .ready →
     stepsHeld s c.key = false → c.stop = none → c.placedAt = none → isCompute c.opcode = true → gs ≠ [] →
     gs = ((List.range 32).filter (fun g => couldTake s c g && !clusterBusy s g)).take (max 1 (octets s c).length) →
     (∀ g ∈ gs, clusterAsleep s g = false) →
     (∀ g v h, couldTake s c g = true → v ∈ s.cmds → h ∈ v.holds → h.cluster = g → h.paused = true → yielded h = true) →
       exec .commandPlace s = .next (settle (placeOn s c gs)))

/-- PLAN_STEP_START begins the next plan step of the command that runs on a cluster, when it may start, what it needs has committed, the
combine units have room for its partials and its stream queues are free; else nothing is done (R86, R87, R366). PLAN_STEP_COMMIT stages
what the step under way computes, once its loaded plan's queues have done their part (R209, R366). A cluster on which nothing runs, or
nothing is under way, is left as it is. -/
def Obligations.PlanStepsStartAndCommit : Prop :=
  ∀ (cluster : BitVec 5) (s : State) (c : Cmd) (h : Hold) (x : StepAt),
    let g := cluster.toNat
    let ready := (finishesTiles s c x = true → finishReady s c x = true) ∧ treesReady s c x = true ∧ ringReady s c x = true ∧
      slotsFree s c x = true ∧ queuesFree s c g x = true
    (runningOn s g = some (c, h) → nextStep s c h = some x →
      (mayStart s c h = true → ready → exec (.planStepStart cluster) s = .next (settle (stepAct (ungate s g) c.key g (beginStep c h x)))) ∧
      ((mayStart s c h = false ∨ ¬ ready) → exec (.planStepStart cluster) s = .next (settle s))) ∧
    (runningOn s g = none → exec (.planStepStart cluster) s = .next (settle s)) ∧
    (steppingOn s g = some (c, h) → h.faulted = false → clusterUsable s g = true → clusterAsleep s g = false →
      nextStep s c h = some x →
      (queuesReady s c g x = true → exec (.planStepCommit cluster) s = .next (settle (stepAct s c.key g (stageStep c h x)))) ∧
      (queuesReady s c g x = false → exec (.planStepCommit cluster) s = .next (settle s))) ∧
    (steppingOn s g = none → exec (.planStepCommit cluster) s = .next (settle s))

/-- DRAIN_DONE: the staged tiles of a STAGED step reach their destinations, the record becomes DRAINED and the step counts 1, once the
cluster's control core runs; a cluster whose control core is down has its stores and no DRAINED record (R366, R369). -/
def Obligations.DrainsStoreAndCount : Prop :=
  ∀ (cluster : BitVec 5) (record : BitVec 2) (s : State) (c : Cmd) (h : Hold),
    let g := cluster.toNat
    let drained := ends (drainAll (jobOf s c h) h.staged) s
    s.cmds.findSome? (fun c => (c.holds.find? (fun h => h.cluster == g && h.rslot == record.toNat && midStep h && h.unit.isNone)).map
      (fun h => (c, h))) = some (c, h) →
    h.faulted = false → h.recState = 1 → drained.isSome = true →
      ∃ u : State, drained = some ((), u) ∧
        (let v := updHold u c.key g (fun h => { h with recState := 3, staged := [] })
         ((holdOf v c.key g).any (fun h => h.recState == 3) = true → procRunning v (3 + g) = true →
           exec (.drainDone cluster record) s = .next (settle (finishDrain v c.key g))) ∧
         (procRunning v (3 + g) = false → exec (.drainDone cluster record) s = .next (settle v)))

/-- COMBINE_NODE forms, in the combine unit of a cluster, the nodes of the reference order's tree that cover an aligned range of splits, for
every output tile of a command that the cluster holds: a tile's node is formed where the partial of its lowest split is, once both its
children are there, and once only; a right child on another die slice crosses the die ring (R43, R87). The tree of R43 keeps the fixed order: combining splits pads to a power of two, and the
number of splits after padding is the least power of two that is not below it (R42, R43). -/
def Obligations.CombineTree : Prop :=
  (∀ (cluster : BitVec 5) (level : BitVec 4) (first : BitVec 10) (s : State) (c : Cmd),
     let g := cluster.toNat
     let l := level.toNat
     let i := first.toNat
     s.cmds.filter (fun c => isCompute c.opcode && c.holds.any (fun h => h.cluster == g)) = [c] →
     (l ≠ 0 → i % 2 ^ l = 0 → i + 2 ^ l ≤ splitsOf c.opcode (slotAt s c.key) →
       exec (.combineNode cluster level first) s = .next (settle ((List.range (tileCount c c.opcode (slotAt s c.key))).foldl
         (fun s t => (cmdOf s c.key).elim s (fun c => combineTile s c g l i t)) s))) ∧
     ((l = 0 ∨ i % 2 ^ l ≠ 0 ∨ splitsOf c.opcode (slotAt s c.key) < i + 2 ^ l) →
       exec (.combineNode cluster level first) s = .next (settle s))) ∧
  (∀ (s : State) (c : Cmd) (g l i tile : Nat) (v : List RowAcc),
     let p := slotAt s c.key
     let here := partialCluster s c (splitTask s c tile i) = some g
     let both := childReady s c tile (l - 1) i = true ∧ childReady s c tile (l - 1) (i + 2 ^ (l - 1)) = true
     let old := formedOf c.parts (allNodes c) tile l i
     let pair := (List.range (2 ^ l)).map (fun n => splitTask s c tile (i + n))
     let half := i + 2 ^ (l - 1)
     let right := nodeOf c.opcode p c.parts (allNodes c) tile (l - 1) half
     (here → old = none → both → nodeOf c.opcode p c.parts (allNodes c) tile l i = some v →
       let formed (s : State) : State :=
         updHold (updCmd s c.key (fun c => { c with slotted := c.slotted.filter (fun e => !pair.contains e.1) })) c.key g
           (fun h => { h with nodes := tset [] h.nodes (nodeKey tile l i) v })
       (∀ g', partialCluster s c (splitTask s c tile half) = some g' → g' / 4 = g / 4 → combineTile s c g l i tile = formed s) ∧
       (right = none → combineTile s c g l i tile = formed s) ∧
       (∀ g' y, partialCluster s c (splitTask s c tile half) = some g' → right = some y → g' / 4 ≠ g / 4 →
         combineTile s c g l i tile = formed (moveChild s (g' / 4) (g / 4) (partialWords c p y)))) ∧
     ((¬ here ∨ old ≠ none ∨ ¬ both) → combineTile s c g l i tile = s)) ∧
  (∀ n : Nat, 1 ≤ n → n ≤ 1024 → (∃ k, padSplits n = 2 ^ k) ∧ n ≤ padSplits n ∧ padSplits n < 2 * n)

/-- ARRAY_PARITY on a core whose cluster has a plan step under way: the step is discarded and replayed, with a CORRECTED record; at the third
error of one step the command ends ABORTED_FAULT with a CONTAINED record; with no plan step under way it is recorded; a correctable error
of the accumulator file changes no plan step, and a fenced core reports nothing (R65). -/
def Obligations.ArrayParityReplays : Prop :=
  ∀ (core : BitVec 8) (s : State) (c : Cmd) (h : Hold),
    let n := core.toNat
    let g := clusterOf n
    (∀ correctable, isFenced s n = true → exec (.arrayParity core correctable) s = .next (settle s)) ∧
    (isFenced s n = false → exec (.arrayParity core true) s = .next (settle (accumulatorCe s n))) ∧
    (accumulatorCe s n).cmds = s.cmds ∧
    (let u := bumpArr s g 0x68 1
     isFenced s n = false →
     (steppingOn u g = none → exec (.arrayParity core false) s = .next (settle (report u ⟨0x03, n, none, g, 0xFF, 0, 0, 0⟩))) ∧
     (steppingOn u g = some (c, h) →
      (h.parityErrors < 2 →
        let v := report u ⟨0x03, n, some c.key, g, 0xFF, 0, recordSteps h 0, 0⟩
        exec (.arrayParity core false) s = .next (settle
          (replayStep (updHold v c.key g (fun h => { h with parityErrors := h.parityErrors + 1 })) c.key g))) ∧
      (2 ≤ h.parityErrors →
        exec (.arrayParity core false) s = .next (settle (abortCmd (report u ⟨0x04, n, some c.key, g, 0xFF, 0, recordSteps h 0, 0⟩) c.key 0x20)))))

/-! ### KV pages (spec/05_kv_pages.md R119, R123, R125, R128) -/

/-- ALLOC_WAIT_SATISFIED ends the wait of the oldest allocation for which a page is kept; ALLOC_TIMEOUT fails the oldest one for which none is
kept and that has waited longer than PGK_ALLOC_WAIT, with a record and a count: its command ends ABORTED_FAULT, or the restoration it
serves fails (R119, R125). -/
def Obligations.AllocationWaitsEnd : Prop :=
  ∀ (s : State) (l r : List AllocWait) (a : AllocWait), s.pgk.allocWaits = l ++ a :: r →
    ((∀ b ∈ l, b.held = none ∨ b.done = true) → a.held.isSome = true → a.done = false →
      exec .allocWaitSatisfied s = .next (settle { s with pgk := { s.pgk with
        allocWaits := s.pgk.allocWaits.map (fun x => if x = a then { x with done := true } else x) } })) ∧
    ((∀ b ∈ l, b.held.isSome = true ∨ s.now ≤ b.since + allocBudget s b) → a.held = none → a.since + allocBudget s a < s.now →
      let d := a.cluster / 4
      let u := bumpPgk (report s ⟨0x14, pgkSource d, some a.key, a.cluster, 0xFF, (dropOrder a).getLastD d, 0, 0⟩) d 0x70 1
      (a.restore = none → exec .allocTimeout s = .next (settle (abortCmd u a.key 0x20))) ∧
      (∀ p x, a.restore = some p → s.pgk.restores.find? (fun y => y.page == p) = some x →
        exec .allocTimeout s = .next (settle (failRestore u x)))) ∧
    ((∀ b ∈ s.pgk.allocWaits, b.held = none ∨ b.done = true) → exec .allocWaitSatisfied s = .next (settle s)) ∧
    ((∀ b ∈ s.pgk.allocWaits, b.held.isSome = true ∨ s.now ≤ b.since + allocBudget s b) → exec .allocTimeout s = .next (settle s))

/-- MOVE_COMMIT of a page that moves: its frame is copied, the header names the new frame and tier with MOVING 0, the old frame returns to
its pool and the move ends, counted (R123). A page that does not move is left as it is. RESTORE_COMPLETE of a page whose restoration
runs to its end: RESTORING clears and every walk that waits for the page goes on; one that fails leaves the page DROPPED, with a record
(R125). -/
def Obligations.MovesAndRestoresEnd : Prop :=
  (∀ (page : BitVec 32) (s : State),
     (moveOf s page.toNat = none → exec (.moveCommit page) s = .next (settle s)) ∧
     (∀ m, moveOf s page.toNat = some m →
       let d := numDie page.toNat
       let w : Who := { die := d }
       let dest := if m.toFar then 1 else 0
       let moved := fun (h : PageHdr) => { h with
         frame := m.newFrame, tier := dest, moving := false, state := if h.state = 2 then 2 else if m.toFar then 3 else 1 }
       let copied := ends (do
         let h ← readHdr w page.toNat
         copyFrames w (hdrForm h) d h.tier h.frame d dest m.newFrame
         writeHdr w page.toNat (moved h)
         return h) s
       copied.isSome = true → ∃ (h : PageHdr) (t : State), copied = some (h, t) ∧
         (let u := returnFrame t d h.tier h.frame
          exec (.moveCommit page) s = .next (settle (countMove (bumpPgk
            { u with pgk := { u.pgk with moves := u.pgk.moves.filter (fun x => !(x.page == page.toNat && x.started)) } } d
            (if m.toFar then 0x48 else 0x50) 1) m true))))) ∧
  (∀ (page : BitVec 32) (s : State) (r : Restore),
     let restored := ends (runRestore r.key r.cluster page.toNat r.seq) s
     s.pgk.restores.find? (fun r => r.page == page.toNat) = some r →
     (holdOf s r.key r.cluster).any (fun h => !h.faulted) = true → stepsHeld s r.key = false →
     stillWaits s r.key r.cluster = false →
     (restored.isSome = true → ∃ u : State, restored = some ((), u) ∧
       exec (.restoreComplete page) s = .next (settle (endRestore u page.toNat))) ∧
     (∀ x u, (runRestore r.key r.cluster page.toNat r.seq).run s = .error x u →
       exec (.restoreComplete page) s = .next (settle (match x with
         | .fault f => holdFault s r.key r.cluster f
         | .park _ => u
         | _ =>
           let v := undoRestore s u r.key
           (v.pgk.restores.find? (fun y => y.page == page.toNat)).elim v (failRestore v)))))

/-! ### Far modules and translation (spec/09_memory_and_translation.md R235 to R239, R246) -/

/-- The transitions of a far module slot (R236): EMPTY to ONLINE at a legal ENUMERATED, with a new generation; ONLINE to EVACUATING at
EVACUATE; to EMPTY at LINK_DOWN, REMOVED, EVACUATION_END or EVAC_TIMEOUT; an event for a slot in the wrong state, or one that R237 calls
reserved, is FAR_DUPLICATE or ignored; every event acted on is acknowledged. In K5, with the die-common domains off, a far-module event
is held and acted on after the wake (R237). FAR_REMOVAL_REPORT of a slot whose removal is reported reaches every page keeper that is not
fenced: its pages there are dropped and its frames are gone (R128); without a report nothing happens. -/
def Obligations.FarModules : Prop :=
  (∀ (event : BitVec 64) (module : BitVec 4) (s : State), dieCommonOn s = true →
     let acked := fun (u : State) =>
       ({ u with xlt := { u.xlt with farAcked := s.xlt.farAcked + 1, farAckSerial := event.extractLsb' 0 16 } } : State)
     let e1 := (withEvent 1 event).toNat
     let m := event.toNat / 2 ^ 52 % 16
     let f := farModule s m
     (f.state = 0 → enumeratedOk e1 = true → exec (.enumerated event) s = .next (settle (acked (setFar s m
       { f with state := 1, gen := f.gen + 1, capGib := event.toNat / 2 ^ 32 % 2 ^ 11, width := event.toNat / 2 ^ 48 % 16 })))) ∧
     (f.state ≠ 0 → enumeratedOk e1 = true → exec (.enumerated event) s = .next (settle (acked (farDuplicate s m 0)))) ∧
     (enumeratedOk e1 = false → exec (.enumerated event) s = .next (settle (acked (farDuplicate s m e1)))) ∧
     (∀ i, i = .linkDown event ∨ i = .removed event →
       (f.state ≠ 0 → exec i s = .next (settle (acked (emptyFar s m false)))) ∧ (f.state = 0 → exec i s = .next (settle (acked s)))) ∧
     (eventReserved event.toNat = true → exec (.farEventReserved event) s = .next (settle (acked (farDuplicate s m event.toNat)))) ∧
     (eventReserved event.toNat = false → exec (.farEventReserved event) s = .next (settle s)) ∧
     (let n := module.toNat
      let f := farModule s n
      (f.state = 1 → exec (.evacuate module) s = .next (settle (setFar s n { f with state := 2, evacStart := s.now }))) ∧
      (f.state = 2 → noPagesOn s n = true → exec (.evacuationEnd module) s = .next (settle (emptyFar s n true))) ∧
      (f.state = 2 → f.evacStart + ticksCeil (scopeVal s 0x5004 0) ≤ s.now →
        exec (.evacTimeout module) s = .next (settle (emptyFar s n (noPagesOn s n)))) ∧
      (f.state ≠ 1 → exec (.evacuate module) s = .next (settle s)) ∧
      (f.state ≠ 2 → exec (.evacuationEnd module) s = .next (settle s) ∧ exec (.evacTimeout module) s = .next (settle s)))) ∧
  (∀ (event : BitVec 64) (s : State), dieCommonOn s = false →
     exec (.enumerated event) s =
       .next (settle (beginWake { s with xlt := { s.xlt with farEvents := s.xlt.farEvents ++ [withEvent 1 event] } } 0 false)) ∧
     exec (.linkDown event) s =
       .next (settle (beginWake { s with xlt := { s.xlt with farEvents := s.xlt.farEvents ++ [withEvent 2 event] } } 0 false)) ∧
     exec (.removed event) s =
       .next (settle (beginWake { s with xlt := { s.xlt with farEvents := s.xlt.farEvents ++ [withEvent 3 event] } } 0 false))) ∧
  (∀ (module : BitVec 4) (s : State),
     let m := module.toNat
     let f := farModule s m
     (f.reported = false → exec (.farRemovalReport module) s = .next (settle s)) ∧
     (f.reported = true → exec (.farRemovalReport module) s = .next (settle ((List.range 8).foldl (fun s d =>
       if dieFenced s d then s
       else updPools (((poolsOf s d).headers.map (mkNum d)).foldl (fun s p => removePage s m p) s) d
         (fun p => { p with farGone := (groupsOn s m d).foldl (fun l i => insertNat i l) p.farGone }))
       (setFar s m { f with reported := false })))))

/-- WALK_END of a miss-table entry that a walker has, with waiters: the walk's leaf goes into the die's cache and to every request merged in
the entry; a walk that finds no translation raises one fault for them all, and one that meets fenced memory ends their commands (R18, R246, R249).
FAULT_FETCH copies the oldest records of the queue, marks them fetched and has held faults take their places (R252, R253). FAULT_RESOLVE
invalidates its range and applies its answers; it completes when every answer has been applied and every RETRY walk has ended (R254). -/
def Obligations.WalksEnd : Prop :=
  (∀ (die : BitVec 3) (entry : BitVec 6) (s : State) (m : MissEntry) (w : Waiter) (rest : List Waiter),
    let d := die.toNat
    let n := entry.toNat
    let r := walk { die := d, key := some w.key, cluster := w.cluster } m.retryFor.isSome m.asid w.va s
    let u := setMiss r.2 d n none
    missAt s d n = some m → isFenced s (xltSource d) = false → hasWalker s d m = true → m.waiters = w :: rest →
      exec (.walkEnd die entry) s = .next (settle (retryHeld (match r.1 with
        | .leaf e => leafWaiters (fillDie u d e) d m.asid e m.waiters
        | .fault c l => raiseFault (m.waiters.foldl stopWaiter u) d m.asid w.va w.access c l m.waiters
        | .fenced => abortWaiters u m.waiters) d))) ∧
  (∀ (port : Port) (slot : BitVec 6) (hdr : BitVec 64) (h : Handed) (k : Nat) (s : State),
    let a := working h k s
    let p := slotAt a k
    mayRun h k s = true →
    (handed (.faultFetch port slot hdr) = some h →
      let take := a.xlt.queue.take (param p 0 16)
      let l := longReply a k (take.flatMap (fun q => q.bytes))
      let u := take.foldl (fun s q => markCopied s q.faultId) { l.2 with xlt := { l.2.xlt with queue := l.2.xlt.queue.drop take.length } }
      let held := u.xlt.heldOrder.length
      let v := writeHeld (held + 1) u
      let t := if v.xlt.heldOrder = [] then { v with xlt := { v.xlt with overflow := false } } else v
      exec (.faultFetch port slot hdr) s = .next (settle (completeCmd t k
        { result := BitVec.ofNat 64
            (take.length + 2 ^ 16 * u.xlt.queue.length + 2 ^ 32 * min held 0xFFFF + 2 ^ 63 * bit a.xlt.overflow)
          longWritten := l.1.1, trunc := l.1.2 }))) ∧
    (handed (.faultResolve port slot hdr) = some h →
      let t := if param p 8 32 = 0 then a
        else invalidate a (paramBit p 0xE 0) (param p 0xC 8) (param p 0 52) (param p 8 32 * 2 ^ 25)
      exec (.faultResolve port slot hdr) s = .next (settle (updCmd t k (fun c => { c with stage := .inProgress })))) ∧
    (∀ (t : State) (c : Cmd), cmdOf t k = some c → param (slotAt t k) 0xD 8 ≤ c.round →
      (∀ e ∈ t.xlt.miss, ∀ m, e.2 = some m → m.retryFor ≠ some k) →
        settleResolve t k = completeCmd t k { result := BitVec.ofNat 64 (c.applied + 2 ^ 16 * c.stale) }))

/-! ### The window, its counters, and the other two ports (spec/12_host_interface.md R304 to R311, R322 to R324; spec/03_score_array.md R70,
R71) -/

/-- A host write of the window that is not 4 or 8 bytes naturally aligned is discarded and counted; one into a host-owned slot is stored,
one into a firmware-owned slot discarded and counted; one of the identification and status blocks has no effect (R304, R305, R310).
FREEZE and CLEAR of a counter block: FREEZE is kept in its CTL register and holds the block's event counters; CLEAR sets them to 0 and
leaves FREEZE, the other blocks (but for the package count of R257) and every other state as it is (R70, R71). -/
def Obligations.WindowAndCounterBlocks : Prop :=
  (∀ (off : BitVec 16) (n : Nat) (v : BitVec 64) (s : State),
     let o := off.toNat
     let k := (o - 0x8000) / 256
     let discarded := { s with host := { s.host with discards := satCount s.host.discards 1 } }
     ((n ≠ 4 ∧ n ≠ 8) ∨ o % n ≠ 0 → exec (.windowWrite .host off n v) s = .next (settle discarded)) ∧
     (n = 4 ∨ n = 8 → o % n = 0 → 0x8000 ≤ o → o < 0xC000 →
       (slotOwned s k = true → exec (.windowWrite .host off n v) s = .next (settle discarded)) ∧
       (slotOwned s k = false → 8 ≤ o % 256 → exec (.windowWrite .host off n v) s =
         .next (settle (setSlot s k (setBits (slotAt s k) (8 * (o % 256)) (8 * n) (v.toNat % 2 ^ (8 * n))))))) ∧
     (n = 4 ∨ n = 8 → o % n = 0 → o < 0x200 → exec (.windowWrite .host off n v) s = .next (settle s))) ∧
  (∀ (blk : CounterBlock) (s : State), Table.wf 0 s.counters = true →
     let base := blockBase blk
     (∀ hold, ∃ cs, exec (.counterFreeze blk hold) s = .next { s with counters := cs } ∧
       (tget 0 cs base).getLsbD 1 = hold ∧ ∀ off, off ≠ base → tget 0 cs off = tget 0 s.counters off) ∧
     (∃ t : State, exec (.counterClear blk) s = .next t ∧ ctrFrozen t base = ctrFrozen s base ∧
       (∀ off, base + 8 ≤ off → off < base + 0x80 → ctrReg t off = 0) ∧
       (∀ off, off < base ∨ base + 0x80 ≤ off → off < 0x1068 ∨ 0x1070 ≤ off → ctrReg t off = ctrReg s off) ∧
       t = { s with counters := t.counters, spad := { s.spad with overrun := t.spad.overrun } }) ∧
     (ctrFrozen s base = true → s.log.traceOn = 0 → ∀ reg n, bump s base reg n = s))

/-- The management bus (R323): ENTDAA gives the target its address when it has none, RSTDAA takes it away, the GET codes are answered only
with an address, and the provisional ID carries bits [23:8] of CMD_ID_MEMBER. A private write of only an offset sets where the next private
read begins, which returns the window's bytes from there, as the management port views them. The parts that R323 does not state are free (log 7). The
debug port (R324, R380): BYPASS and IDCODE select their registers; DBG_SLOT reaches the slot only while the port is unlocked and falls
back to BYPASS while it is locked; DEBUG_UNLOCK and DEBUG_LOCK change the lock, with a DEBUG record, when the debug field asks for it
and the security core runs, and have no effect otherwise. -/
def Obligations.ManagementAndDebugPorts : Prop :=
  (∀ (address : BitVec 7) (bytes : List Byte) (s : State),
     let sends := fun (x : State) (bs : List Byte) => Host.Outcome.next (ρ := Refusal) (φ := Fault)
       { x with host := { x.host with i3cOut := bs } }
     exec .rstdaa s = .next { s with host := { s.host with i3cAddress := none } } ∧
     i3cPid.extractLsb' 16 16 = 0x0400#16 ∧
     (s.host.i3cAddress = none →
       exec (.entdaa address) s = .next { s with host :=
         { s.host with i3cAddress := some address, i3cOut := busBytes 6 i3cPid.toNat ++ [i3cBcr] ++ [Config.i3cDcr] } } ∧
       exec .getpid s = .next s ∧ exec .getbcr s = .next s ∧ exec .getdcr s = .next s ∧ exec .getmxds s = .next s ∧
       exec (.i3cPrivateWrite bytes) s = .next s) ∧
     (s.host.i3cAddress.isSome = true →
       exec (.entdaa address) s = .next s ∧ exec .getpid s = sends s (busBytes 6 i3cPid.toNat) ∧ exec .getbcr s = sends s [i3cBcr] ∧
       exec .getdcr s = sends s [Config.i3cDcr] ∧ exec .getmxds s = sends s (busBytes 2 Config.i3cMaxDataSpeed.toNat) ∧
       exec .getstatus s = sends { s with freeCtr := s.freeCtr + 1 } (busBytes 2 (Config.i3cStatus s.freeCtr).toNat) ∧
       (∀ b, bytes = [] ∨ bytes = [b] → exec (.i3cPrivateWrite bytes) s =
         .next (settle { s with host := { s.host with discards := satCount s.host.discards 1 } })) ∧
       (∀ lo hi : Byte, bytes = [lo, hi] → lo.toNat % 4 = 0 → exec (.i3cPrivateWrite bytes) s =
         .next (settle { s with host := { s.host with mgmtOffset := lo.toNat + 256 * hi.toNat } })))) ∧
  (∀ (s : State) (n i : Nat), i < n →
     let o := s.host.mgmtOffset + i
     (privateRead s n).length = n ∧ (privateRead s n)[i]? = some ((windowRead s .mgmt o).extractLsb' (o % 8 * 8) 8)) ∧
  (∀ (tdi : Bool) (scanned : SlotWord) (s : State),
     let bypass := { s with host := { s.host with tapIr := 0 } }
     exec (.bypass tdi) s = .next { s with host := { s.host with tapIr := 0, tapDr := if tdi then 1 else 0 } } ∧
     exec .idcode s = .next { s with host := { s.host with tapIr := 1, tapDr := idcodeWord.setWidth 2048 } } ∧
     (s.host.debugUnlocked = false → exec .dbgSlotCapture s = .next bypass ∧ exec (.dbgSlotUpdate scanned) s = .next bypass) ∧
     (s.host.debugUnlocked = true →
       exec .dbgSlotCapture s = .next { s with host := { s.host with tapIr := 2, tapDr := slotAt s 68 } } ∧
       (let u : State := { s with host := { s.host with tapIr := 2, tapDr := scanned } }
        slotOwned s 68 = false → scanned.getLsbD 63 = false → exec (.dbgSlotUpdate scanned) s = .next (settle (setSlot u 68 scanned)))) ∧
     (cfgVal s 0xB000 0 = 1 → s.host.debugUnlocked = false → secWorks s = true →
       exec .debugUnlock s = .next (debugRecord { s with host := { s.host with debugUnlocked := true } } 1)) ∧
     (cfgVal s 0xB000 0 = 2 → s.host.debugUnlocked = true → secWorks s = true →
       exec .debugLock s = .next (debugRecord { s with host := { s.host with debugUnlocked := false, tapIr := 0 } } 2)) ∧
     (secWorks s = false → exec .debugUnlock s = .next s ∧ exec .debugLock s = .next s))

/-- Events of the slots (R311, R317, R348, R396): a handover that names no opcode of the table is rejected by its
opcode field; an interim status is written again once 10 µs have passed and its word has changed; a drain applies its values when the
device is quiescent; a hint expires at its time. -/
def Obligations.SlotEventsAct : Prop :=
  ∀ (port : Port) (slot : BitVec 6) (hdr : BitVec 64) (s : State),
    (∀ (k : Nat), slotKey port slot.toNat = some k → slotOwned s k = false → (port = .debug → s.host.debugUnlocked = true) →
      nothingAnswers s = false → s.host.handovers = [] → opcodeTable.any (fun e => e.1 == hdr.toNat % 65536) = false →
      let t := setSlot s k (setBits (setBits (slotAt s k) 0 64 hdr.toNat) 63 1 1)
      (slotBits (slotAt t k) 56 4 = 1 → slotBits (slotAt t k) 32 8 = 0 → slotBits (slotAt t k) 49 7 = 0 →
        slotBits (slotAt t k) 60 3 = 0 →
        hdrField (slotAt t k) 0x1C 32 = 0 → hdrField (slotAt t k) 0x20 64 = 0 → hdrField (slotAt t k) 0x28 64 = 0 →
        hdrField (slotAt t k) 0x30 64 = 0 → hdrField (slotAt t k) 0x38 64 = 0 →
          exec (.invalidOpcode port slot hdr) s =
            .next (settle (rejectCmd t k (headerReject 0x10 0 6 15 0 (hdr.toNat % 65536) 0))))) ∧
    (∀ (k : Nat) (c : Cmd) (t : Nat), slotKey port slot.toNat = some k → cmdOf s k = some c → c.lastInterim = some t →
      schedulerDown s = false → t + ticksCeil 10000 ≤ s.now → BitVec.ofNat 32 (statusWord s (interimCode c) (slotSeq s k)) ≠ c.lastStatus →
        exec (.interimStatusRefresh port slot) s = .next (interim s k)) ∧
    (∀ (c : Cmd) (r : Reply) (t : State), drainingCommit s = some c → s.dev = .draining → quiescent s c.key = true →
      (finishCommit c.key).run { s with dev := .ready } = .ok r t → exec .drainQuiescent s = .next (settle (completeCmd t c.key r))) ∧
    (∀ (index : BitVec 3) (h : Hint), tget none s.pwr.hints index.toNat = some h →
      (h.at_ ≤ s.now → exec (.hintExpiry index) s = .next (setHint s index.toNat none)) ∧
      (s.now < h.at_ → exec (.hintExpiry index) s = .next s))

/-! ### Update units (spec/10_update_units.md R260 to R263, R272 to R280) -/

/-- The operations of an update program on a unit's lane: with the registers that R260 and R263 allow, each writes its register rd with the
FP32 value of R262 of the registers it names, and nothing else changes; an operation that R263 refuses changes nothing. UPD_ROW_COMMIT of a
unit with a row left: where the row's operands can be reached, the row is computed and ends committed, guarded, poisoned or as another
unit's, and the command ends once every unit has passed its last row; a row that meets a translation fault stops its unit, any other stop
ends the command ABORTED_FAULT; a unit without a command, or one that is stopped, held or past its last row, is left as it is (R272 to
R276, R278). UPD_PROGRAM_LOAD puts its operations into its program slot (R264). -/
def Obligations.UpdateUnits : Prop :=
  (∀ (stack rd ra rb rc : BitVec 5) (s : State),
     let u := unitAt s stack.toNat
     let a := laneGet u.regs ra.toNat
     let b := laneGet u.regs rb.toNat
     let c := laneGet u.regs rc.toNat
     let dst := rd.toNat ∈ [1, 2, 3, 16, 17, 18, 19, 20, 21, 22, 23] ∧ ra.toNat < 24
     let one := dst ∧ rb = 0 ∧ rc = 0
     let two := dst ∧ rb.toNat < 24 ∧ rc = 0
     let three := dst ∧ rb.toNat < 24 ∧ rc.toNat < 24
     let wr := fun (v : F32) => Host.Outcome.next (ρ := Refusal) (φ := Fault)
       (setUnit s stack.toNat { u with regs := tset 0 u.regs rd.toNat v })
     ((two → exec (.updMul stack rd ra rb rc) s = wr (fMul a b)) ∧ (two → exec (.updAdd stack rd ra rb rc) s = wr (fAdd a b)) ∧
      (three → exec (.updFma stack rd ra rb rc) s = wr (fFma a b c)) ∧ (one → exec (.updSqrt stack rd ra rb rc) s = wr (fSqrt a)) ∧
      (one → exec (.updRsqrt stack rd ra rb rc) s = wr (fRsqrt a)) ∧ (two → exec (.updDiv stack rd ra rb rc) s = wr (fDiv a b)) ∧
      (two → exec (.updMax stack rd ra rb rc) s = wr (fMax a b)) ∧
      (three → exec (.updSel stack rd ra rb rc) s = wr (if fPositive a then b else c)) ∧
      (one → exec (.updRndr stack rd ra rb rc) s = wr (storedParam u.fmtP u.rem u.rand a))) ∧
     (¬ two → exec (.updMul stack rd ra rb rc) s = .next s ∧ exec (.updAdd stack rd ra rb rc) s = .next s ∧
       exec (.updDiv stack rd ra rb rc) s = .next s ∧ exec (.updMax stack rd ra rb rc) s = .next s) ∧
     (¬ three → exec (.updFma stack rd ra rb rc) s = .next s ∧ exec (.updSel stack rd ra rb rc) s = .next s) ∧
     (¬ one → exec (.updSqrt stack rd ra rb rc) s = .next s ∧ exec (.updRsqrt stack rd ra rb rc) s = .next s ∧
       exec (.updRndr stack rd ra rb rc) s = .next s)) ∧
  (∀ (stack : BitVec 5) (s : State),
     let n := stack.toNat
     let u := unitAt s n
     (u.key = none → exec (.updRowCommit stack) s = .next (settle s)) ∧
     (∀ k, u.key = some k →
       (u.faulted = true ∨ stepsHeld s k = true ∨ dieCommonOn s = false ∨ (updArgs (slotAt s k)).rows ≤ u.cursor →
         exec (.updRowCommit stack) s = .next (settle s)) ∧
       (u.faulted = false → stepsHeld s k = false → dieCommonOn s = true → u.cursor < (updArgs (slotAt s k)).rows →
         exec (.updRowCommit stack) s = .next (settle (match (updRow k n u.cursor).run s with
           | .ok e t => settleUpdate (endRow t k n u.cursor e) k
           | .error (.fault f) _ => unitFault s k n f
           | .error _ t => abortCmd t k 0x20))))) ∧
  (∀ (port : Port) (slot : BitVec 6) (hdr : BitVec 64) (h : Handed) (k : Nat) (s : State),
     let a := working h k s
     let p := slotAt a k
     handed (.updProgramLoad port slot hdr) = some h → mayRun h k s = true →
       exec (.updProgramLoad port slot hdr) s = .next (settle (completeCmd { a with upd := { a.upd with
         programs := tset [] a.upd.programs (param p 0x40 8) ((List.range (param p 0x41 8)).map (loadOp p)) } } k {})))

/-! ### Deadlines, the lease and sessions (spec/13_scheduling.md R342 to R344, R350 to R353) -/

/-- SLACK_CHECK and DEADLINE_MISS act by the scheduler core alone: a command whose deadline has passed, and that has not been recorded, is
recorded missed, and dropped where it asks for it; one whose deadline has not passed is not, but one whose slack is below its margin is
recorded at risk, once (R342, R344). The lease (R350): HELD and past its expiry, LAPSED; LAPSED and past its grace, the lease and every OPEN
session ORPHANED, and the device too when it was READY, or DRAINING, whose CFG_COMMIT ends with nothing committed (R348); neither before
its time, nor while the security core's restart suspends the timer. Near its expiry every admitted command's interim status is written
again, 10 µs after its last (R311). ADOPTION_WINDOW_EXPIRY frees every session still ADOPTABLE when the window has passed (R352). -/
def Obligations.DeadlinesAndLease : Prop :=
  (∀ (slot : BitVec 6) (s : State) (c : Cmd),
     let k := slot.toNat
     cmdOf s k = some c → c.stage ≠ .checking →
     (procRunning s 2 = false → exec (.deadlineMiss slot) s = .next s ∧ exec (.slackCheck slot) s = .next s) ∧
     (procRunning s 2 = true → isLate s k = false ∨ c.missed = true ∨ deadlineRuns s k = false →
       exec (.deadlineMiss slot) s = .next s) ∧
     (procRunning s 2 = true → isLate s k = true → c.missed = false → deadlineRuns s k = true →
       let t := recordMiss s k (stallCode (stallOf s c))
       exec (.deadlineMiss slot) s = .next (if (slotAt s k).getLsbD 48 then dropCmd t k else t)) ∧
     (∀ d, procRunning s 2 = true → deadlineTicks (slotAt s k) = some d → deadlineRuns s k = true → isLate s k = false →
       (slackTicks s c d * 10000 < (cmdVal s c 0xA001 0 : Int) * 384 → c.atRisk = false →
         exec (.slackCheck slot) s = .next (report (updCmd s k (fun c => { c with atRisk := true }))
           ⟨0x1D, 0x8002, some k, 0xFF, 0xFF, hdrField (slotAt s k) 8 64, slackNs (slackTicks s c d), 0⟩)) ∧
       ((cmdVal s c 0xA001 0 : Int) * 384 ≤ slackTicks s c d * 10000 ∨ c.atRisk = true → exec (.slackCheck slot) s = .next s)) ∧
     (deadlineTicks (slotAt s k) = none → exec (.slackCheck slot) s = .next s)) ∧
  (∀ (s : State),
     let l := s.lease
     let orphans := s.sessions.map (fun e => (e.1, if e.2.state = .opened then { e.2 with state := .orphaned } else e.2))
     let lost : State := { s with lease := { l with state := .orphaned, orphanedAt := s.now } }
     (l.state = .held → l.suspendedAt = none → l.expiry ≤ s.now →
       exec .leaseExpiry s = .next { s with lease := { l with state := .lapsed, lapsedAt := l.expiry } }) ∧
     ((l.state ≠ .held ∨ l.suspendedAt ≠ none ∨ s.now < l.expiry) → exec .leaseExpiry s = .next s) ∧
     (l.state = .lapsed → l.suspendedAt = none → l.expiry + l.grace ≤ s.now →
       (drainingCommit s = none → exec .graceExpiry s = .next { lost with
         dev := if s.dev = .ready ∨ s.dev = .draining then .orphaned else s.dev, sessions := orphans }) ∧
       (∀ c, drainingCommit s = some c →
         let t := endCmd lost c.key 0x20 {}
         exec .graceExpiry s = .next { t with
           dev := if t.dev = .ready ∨ t.dev = .draining then .orphaned else t.dev
           sessions := t.sessions.map (fun e => (e.1, if e.2.state = .opened then { e.2 with state := .orphaned } else e.2)) })) ∧
     ((l.state ≠ .lapsed ∨ l.suspendedAt ≠ none ∨ s.now < l.expiry + l.grace) → exec .graceExpiry s = .next s) ∧
     (leaseNear s = true → procRunning s 2 = true → exec .leaseNearExpiry s =
       .next ((s.cmds.filter (fun c => c.stage ≠ .checking)).foldl (fun s c => refreshInterim s c.key) s)) ∧
     (leaseNear s = false ∨ procRunning s 2 = false → exec .leaseNearExpiry s = .next s) ∧
     (l.adoptBy = none → exec .adoptionWindowExpiry s = .next s) ∧
     (∀ t, l.adoptBy = some t →
       (s.now < t → exec .adoptionWindowExpiry s = .next s) ∧
       (t ≤ s.now → exec .adoptionWindowExpiry s =
         .next (((s.sessions.filter (fun e => e.2.state == .adoptable)).map (·.1)).foldl (fun s i => (freeSession s i 1000).2)
           { s with lease := { l with adoptBy := none } }))))

/-! ### Firmware (spec/14_firmware.md R357, R358, R364, R365, R369 to R379) -/

/-- FW_LOAD in LOAD: an image that passes every check of R362 is stored in bank 0 of its kind, and the command answers its version, svn and
kind; one that fails is REJECTED_VERIFY with the check that failed, and bank 0 of the kind holds none (R361 to R363; which keys are fused is
free, log 6). FW_START takes the device to STARTING with the island's processors RUNNING and their watchdogs kicked, and puts a power mode stored in LOAD
into effect; FW_HANDOVER to RESTARTING with the new images stored; each goes on at the following ticks (R364, R365, R376, R377, R397,
log 15). -/
def Obligations.FirmwareStartsAndHandsOver : Prop :=
  (∀ (port : Port) (slot : BitVec 6) (hdr : BitVec 64) (h : Handed) (k : Nat) (s : State),
    let x := taken k (offered h k s)
    let p := slotAt x k
    let n := param p 8 32
    let kind := param p 0xC 8
    let bs := hostImage x (param p 0 64) n
    handed (.fwLoad port slot hdr) = some h → mayOffer h k s = true → passes h.op k (offered h k s) = true →
    param p 0 64 % 64 = 0 → 512 ≤ n → n ≤ 2097152 → kind ≤ 3 → param p 0xD 24 = 0 → (ends (reservedFrom p 0x10) x).isSome = true →
    runsNow k (admitted k [] x) = true →
      exec (.fwLoad port slot hdr) s = .next (settle (match verifyImage kind n bs with
        | .ok m => completeCmd (storeImage (admitted k [] x) k kind 0 m bs) k
            { result := BitVec.ofNat 64 (m.version + m.svn * 2 ^ 32 + kind * 2 ^ 48) }
        | .error c => rejectCmd (setImage x kind 0 Image.none_) k
            { code := 0x13, keep := true, result := BitVec.ofNat 64 (c * 2 ^ 56) }))) ∧
  (∀ (port : Port) (slot : BitVec 6) (hdr : BitVec 64) (h : Handed) (k : Nat) (cl : List ClampEntry) (s : State),
    (handed (.fwStart port slot hdr) = some h → accepted h k cl s →
      ∃ t : State, exec (.fwStart port slot hdr) s = .next (settle (updCmd t k (fun c => { c with stage := .inProgress }))) ∧
        t.dev = .starting ∧ t.fw.starting = some k ∧ t.fw.runBank = [] ∧ t.fw.images = s.fw.images ∧
        (∀ i, i < 3 → procOf t i = { procOf s i with state := .running, lastKick := s.now, kicked := true, down := false }) ∧
        (∀ i, 3 ≤ i → procOf t i = procOf s i) ∧
        (s.pwr.atStart = none → t.pwr.envEff = s.pwr.envEff ∧ t.pwr.tjEff = s.pwr.tjEff) ∧
        (∀ e c j l, s.pwr.atStart = some (e, c, j, l) →
          t.pwr.envEff = e ∧ t.pwr.envCeil = c ∧ t.pwr.tjEff = j ∧ t.pwr.tjCeil = l ∧ t.pwr.atStart = none)) ∧
    (handed (.fwHandover port slot hdr) = some h → accepted h k cl s →
      ∃ t : State, exec (.fwHandover port slot hdr) s = .next (settle (updCmd t k (fun c => { c with stage := .inProgress }))) ∧
        t.dev = .restarting ∧ t.fw.starting = some k ∧ t.fw.handover = some (param (slotAt (atWork h k cl s) k) 0 8, 0)))

/-- A kick restarts the watchdog of a RUNNING or FROZEN processor, and is counted as stray for another; a watchdog that has run out, a trap,
a write of the halt register and an uncorrectable error of local memory crash such a processor, each with its cause, and are ignored for
another (R357, R358, R407). What a crash contains (R358, R369 to R373): the processor is CRASHED, or FENCED when it had not yet kicked;
a crash of the security core, and a fence of the scheduler core, halt the device and suspend the lease; a crash of the scheduler core
makes it RESTARTING, one of a control core leaves the device state. -/
def Obligations.ProcessorCrashes : Prop :=
  (∀ (proc : BitVec 6) (pc : BitVec 64) (inHandler : Bool) (s : State),
     let i := proc.toNat
     let p := procOf s i
     let live := p.state = .running ∨ p.state = .frozen
     i < 35 →
     (live → exec (.watchdogKick proc) s = .next (setProc s i { p with lastKick := s.now, kicked := true }) ∧
       exec (.trap proc pc inHandler) s = .next (crashProc s i (if inHandler then 3 else 2) pc.toNat) ∧
       exec (.haltWrite proc pc) s = .next (crashProc s i 5 pc.toNat) ∧
       exec (.localMemoryUe proc pc) s =
         .next (crashProc (report s ⟨0x02, 0x8000 + i, none, 0xFF, 0xFF, 0, 6 * 65536, 0⟩) i 4 pc.toNat) ∧
       (p.lastKick + ticksCeil (watchdogNs i) ≤ s.now → exec (.watchdogExpiry proc pc) s = .next (crashProc s i 1 pc.toNat)) ∧
       (s.now < p.lastKick + ticksCeil (watchdogNs i) → exec (.watchdogExpiry proc pc) s = .next s)) ∧
     (¬ live → exec (.watchdogKick proc) s = .next (setProc s i { p with stray := min (p.stray + 1) 0xFF }) ∧
       exec (.trap proc pc inHandler) s = .next s ∧ exec (.haltWrite proc pc) s = .next s ∧
       exec (.localMemoryUe proc pc) s = .next s ∧ exec (.watchdogExpiry proc pc) s = .next s)) ∧
  (∀ (s : State) (i cause pc : Nat), i < 35 → (procOf s i).state = .running → s.dev = .ready → Table.wf Proc.reset s.fw.procs = true →
     s.now ≥ tget 0 s.fw.probation (kindOf i) →
     let t := crashProc s i cause pc
     let halts := i = 0 ∨ (i = 2 ∧ (procOf s i).kicked = false)
     (procOf t i).state = (if (procOf s i).kicked then .crashed else .fenced) ∧ (procOf t i).lastCause = cause ∧
       (procOf t i).crashes = min ((procOf s i).crashes + 1) 0xFFFFFFFF ∧ (procOf t i).lastCrash = s.now ∧
       t.dev = (if halts then .fwHalt else if i = 2 then .restarting else .ready) ∧
       t.lease = (if halts then { s.lease with suspendedAt := some (s.lease.suspendedAt.getD s.now) } else s.lease) ∧
       (∀ j, j ≠ i → procOf t j = procOf s j))

/-- The restart rows carry a crashed processor's restart out, the security core running: a control core's in ascending order of cluster,
after which it takes up its commands; the scheduler core's returns the device state, and a journal that is poison halts it; the security core's has the lease timer run on, and
the device state returns when no FATAL record and no fenced scheduler core holds it halted; a processor that has not crashed is left as it
is (R369 to R373, R411). A restart finds the retained image good and the crashes apart, and the processor RUNS; the third crash within
1 s, or an image that does not agree with its digest, fences it, and halts the device when it is the scheduler or security core (R358,
R362, R373). PROBATION_END ends a probation that has run its time (R378). ISLAND_POWER_ON resets the island; memories and the model's own
fields go on (R365). -/
def Obligations.ProcessorRestarts : Prop :=
  (∀ (cluster : BitVec 5) (s : State),
     let g := cluster.toNat
     (cccMayRestart s g = true →
       let t := restartProc s (3 + g)
       exec (.cccRestart cluster) s =
         .next (settle (if procRunning t (3 + g) then (holders t g).foldl (fun s c => resumeHold s c.key g) t else t))) ∧
     (cccMayRestart s g = true ↔ mayRestart s (3 + g) = true ∧ ∀ j, j < g → (procOf s (3 + j)).state ≠ .crashed) ∧
     (mayRestart s 2 = true →
       let t := restartProc s 2
       (procRunning t 2 = false → exec .schRestart s = .next (settle t)) ∧
       (procRunning t 2 = true → journalLost t = false → t.dev = .restarting →
         exec .schRestart s = .next (settle { t with dev := returnState t })) ∧
       (procRunning t 2 = true → journalLost t = false → t.dev ≠ .restarting → exec .schRestart s = .next (settle t)) ∧
       (procRunning t 2 = true → journalLost t = true →
         let u := report t { cause := 0x31, source := 0x8002, addr := fwBase 0 + 0x2F00000, info0 := 1 }
         exec .schRestart s = .next (settle u) ∧ u.dev = .fwHalt)) ∧
     (mayRestart s 1 = true → exec .pwrRestart s = .next (restartProc s 1)) ∧
     (let u := restartProc s 0
      mayRestart s 0 = true →
      (procRunning u 0 = false → exec .secRestart s = .next u) ∧
      (∀ t, procRunning u 0 = true → u.lease.suspendedAt = some t →
        let v : State := { u with lease := { u.lease with expiry := u.lease.expiry + (u.now - t), suspendedAt := none } }
        (u.ras.fatals = 0 → (procOf u 2).state = .running → exec .secRestart s = .next { v with dev := returnState v }) ∧
        (u.ras.fatals = 0 → (procOf u 2).state ≠ .running → (procOf u 2).state ≠ .fenced →
          exec .secRestart s = .next { v with dev := .restarting }) ∧
        (u.ras.fatals ≠ 0 ∨ (procOf u 2).state = .fenced → exec .secRestart s = .next v))) ∧
     (mayRestart s (3 + g) = false → exec (.cccRestart cluster) s = .next s) ∧ (mayRestart s 2 = false → exec .schRestart s = .next s) ∧
     (mayRestart s 1 = false → exec .pwrRestart s = .next s) ∧ (mayRestart s 0 = false → exec .secRestart s = .next s)) ∧
  ((∀ (s : State) (i : Nat), i < 35 → Table.wf Proc.reset s.fw.procs = true →
     let t := restartProc s i
     (thirdCrash (procOf s i) = true → (procOf t i).state = .fenced ∧ (i = 0 ∨ i = 2 → t.dev = .fwHalt)) ∧
     (thirdCrash (procOf s i) = false → retainedGood (moveProc s i .restarting 0 0) i = false →
       (procOf t i).state = .fenced ∧ (procOf t i).lastCause = 6 ∧ (i = 0 ∨ i = 2 → t.dev = .fwHalt)) ∧
     (thirdCrash (procOf s i) = false → retainedGood (moveProc s i .restarting 0 0) i = true →
       (procOf t i).state = .running ∧ (procOf t i).lastKick = s.now ∧ (procOf t i).kicked = false ∧ t.dev = s.dev)) ∧
   (∀ (kind : BitVec 2) (s : State),
     let e := tget 0 s.fw.probation kind.toNat
     (e ≠ 0 → e ≤ s.now → exec (.probationEnd kind) s =
       .next { s with fw := { s.fw with probation := tset 0 s.fw.probation kind.toNat 0 } }) ∧
     ((e = 0 ∨ s.now < e) → exec (.probationEnd kind) s = .next s) ∧
     exec .islandPowerOn s =
       .next { State.reset with pmem := s.pmem, hostMem := s.hostMem, freeCtr := s.freeCtr, pending := s.pending }))

/-! ### Power (spec/15_power_and_clocks.md R390 to R404) -/

/-- CLUSTER_IDLE takes a cluster from K0 to K1 when it has nothing to run and power-management firmware is not down; STATE_CHOICE starts the
entries that R395 chooses and arms the wake; STATE_ENTRY_COMPLETE completes a step of a cluster's entry, or the device's entry, to K5 only
with self-refresh granted; an entry whose conditions no longer hold is refused, with a record; a refusal of self-refresh leaves the device
in K4 and is not asked again for 10 ms (R371, R389, R390, R392, R393, R395). -/
def Obligations.PowerStatesAreEntered : Prop :=
  ∀ (cluster : BitVec 5) (s : State),
    let g := cluster.toNat
    let c := clusterPower s g
    let e := tget (0, 0) s.pwr.entering g
    let d := tget (0, 0) s.pwr.entering 32
    let ended : State := { s with pwr := { s.pwr with entering := tset (0, 0) s.pwr.entering g (0, 0) } }
    let firmware := procRunning s 1 = true ∨ (procOf s 1).state = .fenced
    let mayEnter := mayK4 s = true ∧ (d.1 = 5 → mayK5 s = true)
    (c.powered = true → c.k = 0 → s.pwr.device = 0 → firmware → clusterIdleNow s g = true →
      exec (.clusterIdle cluster) s = .next (setCluster s g { c with k := 1 })) ∧
    (c.powered = false ∨ c.k ≠ 0 ∨ s.pwr.device ≠ 0 ∨ ¬ firmware ∨ clusterIdleNow s g = false →
      exec (.clusterIdle cluster) s = .next s) ∧
    (e ≠ (0, 0) →
      (clusterHeld s g = true ∨ clusterFenced s g = true →
        exec (.stateEntryComplete cluster) s = .next (illegalPower ended g c.k e.1)) ∧
      (clusterHeld s g = false → clusterFenced s g = false → e.1 ≤ c.k + 1 →
        let u := if min e.1 (c.k + 1) = 3 then loseCluster ended g else ended
        exec (.stateEntryComplete cluster) s = .next { u with pwr := { u.pwr with
          clusters := tset ClusterPower.reset s.pwr.clusters g { c with k := min e.1 (c.k + 1) } } }) ∧
      (clusterHeld s g = false → clusterFenced s g = false → c.k + 1 < e.1 →
        exec (.stateEntryComplete cluster) s =
          .next (setCluster (if c.k + 1 = 3 then loseCluster s g else s) g { c with k := c.k + 1 }))) ∧
    (e = (0, 0) → d = (0, 0) → exec (.stateEntryComplete cluster) s = .next s) ∧
    (e = (0, 0) → d ≠ (0, 0) →
      (d.1 = 5 → s.pwr.selfRefresh = false → exec (.stateEntryComplete cluster) s = .next s) ∧
      ((d.1 ≠ 5 ∨ s.pwr.selfRefresh = true) → mayEnter →
        let t := completeDevice s d.1 d.2
        exec (.stateEntryComplete cluster) s = .next t ∧ t.pwr.device = d.1 ∧ t.pwr.entering = [] ∧
          (d.1 = 5 → t.xlt.coreCache = [] ∧ t.xlt.dieCache = [] ∧ t.xlt.walkCache = [] ∧ t.xlt.hamper = [])) ∧
      ((d.1 ≠ 5 ∨ s.pwr.selfRefresh = true) → ¬ mayEnter → exec (.stateEntryComplete cluster) s = .next (illegalPower
        { s with pwr := { s.pwr with entering := tset (0, 0) s.pwr.entering 32 (0, 0), selfRefresh := false } } 0xFF (shallowest s) d.1))) ∧
    (d.1 ≠ 5 → ∀ granted, exec (.selfRefreshGrant granted) s = .next s) ∧
    (d.1 = 5 → exec (.selfRefreshGrant true) s = .next { s with pwr := { s.pwr with selfRefresh := true } } ∧
      exec (.selfRefreshGrant false) s = .next { s with pwr := { s.pwr with
        askAgainAt := s.now + ticksCeil 10000000
        entering := tset (0, 0) s.pwr.entering 32 (if d.2 = 4 then (0, 0) else (4, d.2)) } }) ∧
    (procRunning s 1 = true → d = (0, 0) → s.pwr.wakeDevice = false → s.pwr.device = 0 →
      let next := nextEvent s
      let k := chooseState s next
      exec .stateChoice s = .next (armWake (if 4 ≤ k then startEntry s 32 k 0
        else (sleepers s k).foldl (fun s g => startEntry s g k (clusterPower s g).k) s) next k)) ∧
    (procRunning s 1 = false → exec .stateChoice s = .next s)

/-- WAKE_REQUEST reverses the entries of its clusters and wakes them, but a fenced one, which is refused with a record; WAKE_START wakes at the
armed time; WAKE_COMPLETE brings the device from K5 to K4 for the die-common domains alone, else the clusters to K0 and the others to K3,
restored from their spill regions after K4 and K5, and releases what was held; a withdrawn self-refresh wakes K5 (R391, R393 to R395,
R404). -/
def Obligations.WakesComplete : Prop :=
  ∀ (clusters : BitVec 32) (s : State),
    ((∀ g, g < 32 → clusterFenced s g = false) →
      exec (.wakeRequest clusters false) s = .next (requestWake (reverseEntries s clusters true) clusters true) ∧
      exec (.wakeRequest clusters true) s = .next (requestWake (reverseEntries s 0 true) 0 false)) ∧
    (∀ g, g < 32 → clusterFenced s g = true → clusters = 1#32 <<< g →
      exec (.wakeRequest clusters false) s =
        .next (requestWake (reverseEntries (illegalPower s g (clusterPower s g).k 0) 0 true) 0 true)) ∧
    (∀ (u : State) (full : Bool),
      (requestWake u clusters full).pwr.waking = u.pwr.waking ||| clusters ∧
      (u.pwr.device = 5 → (requestWake u clusters full).pwr.wakeDevice = true) ∧
      ((requestWake u clusters full).pwr.wakeFull = true ↔
        u.pwr.wakeFull = true ∨ (4 ≤ u.pwr.device ∧ (full = true ∨ clusters ≠ 0)))) ∧
    (s.pwr.wakeStart = none → exec .wakeStart s = .next s) ∧
    (∀ t, s.pwr.wakeStart = some t →
      (s.now < t → exec .wakeStart s = .next s) ∧
      (t ≤ s.now → exec .wakeStart s =
        .next (beginWake { s with pwr := { s.pwr with wakeStart := none } } (dueClusters s) true))) ∧
    (let u : State := { s with pwr := { s.pwr with waking := 0, wakeDevice := false, wakeFull := false } }
     let v : State := { u with pwr := { u.pwr with device := 0, selfRefresh := false } }
     (s.pwr.waking = 0 → s.pwr.wakeDevice = false → exec .wakeComplete s = .next s) ∧
     (s.pwr.waking ≠ 0 ∨ s.pwr.wakeDevice = true →
       (4 ≤ s.pwr.device → s.pwr.wakeFull = false → exec .wakeComplete s =
         .next (releaseHeld { u with pwr := { u.pwr with device := 4, selfRefresh := false } })) ∧
       (4 ≤ s.pwr.device → s.pwr.wakeFull = true → exec .wakeComplete s =
         .next (releaseHeld (raiseClusters ((List.range 32).foldl unspillCluster v) s.pwr.waking))) ∧
       (s.pwr.device < 4 → exec .wakeComplete s = .next (releaseHeld (raiseClusters v s.pwr.waking))))) ∧
    (∃ en, exec .selfRefreshWithdrawn s =
      .next (let u : State := { s with pwr := { s.pwr with selfRefresh := false, entering := en } }
        if s.pwr.device = 5 then requestWake u 0 false else u))

/-- POWER_SAMPLE steps the busiest clusters down when the 100 µs average passes 98 % of the envelope, up when the projected average stays
below 90 %, and neither between; a cluster steps down to 0.6 GHz at least and up to the limiter's cap at most; ADAPTATION and
POWER_SAMPLE are power-management firmware's, and do nothing while it does not run (R399, R400, R402). LIMITER_SAMPLE below every limit,
with no cap to raise, changes only its timers (R401). LIMITER_SAMPLE (R401): a cluster sensor at the limit takes its cluster one step
below the clock it runs at, at once; a die-common or cluster sensor at 115 °C stops the clocks of its die slice with a record; a 1 µs
average over 110 % of the envelope caps every cluster at 0.6 GHz, as does power-management firmware that does not run. -/
def Obligations.ClocksFollowSamplesAndLimits : Prop :=
  (∀ (avg100us avg1ms projected busy stall cycles : Nat) (busiest : BitVec 32) (cluster : BitVec 5) (s : State),
     let env := envelopeWatts s.pwr.envEff
     let u : State := { s with pwr := { s.pwr with watts := avg1ms } }
     let g := cluster.toNat
     (procRunning s 1 = false → exec (.powerSample avg100us avg1ms projected busiest) s = .next s ∧
       exec (.adaptation busy stall cycles cluster) s = .next s) ∧
     (procRunning s 1 = true →
       (env * 98 < avg100us * 100 → exec (.powerSample avg100us avg1ms projected busiest) s =
         .next ((maskClusters busiest).foldl slower u)) ∧
       (avg100us * 100 ≤ env * 98 → env * 90 ≤ projected * 100 →
         exec (.powerSample avg100us avg1ms projected busiest) s = .next u) ∧
       (avg100us * 100 ≤ env * 98 → projected * 100 < env * 90 →
         exec (.powerSample avg100us avg1ms projected busiest) s = .next ((maskClusters busiest).foldl (fun s g =>
           if (clusterPower s g).cap < (clusterPower s g).step then faster s g else s) u)) ∧
       (let en := cfgVal s 0x8002 0
        let u := if en.testBit 0 = false then (if s.pwr.watts * 100 < env * 90 then faster s g else s)
          else if busy * 100 < cycles * 60 ∧ busy * 30 < stall * 100 then (if tightCluster s g then s else slower s g)
          else if cycles * 90 < busy * 100 then faster s g else s
        let v := adaptThresholds u (g / 4) (en.testBit 2)
        exec (.adaptation busy stall cycles cluster) s = .next (if en.testBit 3 then adaptReceivers v g else v)) ∧
       (∀ (u : State) (d : Nat), tget (0, 0, 0) u.pwr.demoteBase d = (0, 0, 0) → adaptThresholds u d false = u)) ∧
     (∀ c, clusterPower (slower s c) c = { clusterPower s c with step := min 3 ((clusterPower s c).step + 1) })) ∧
  (∀ (cluster die : List Nat) (island power1us : Nat) (s : State),
     let t1 := (List.range 32).foldl (fun s g => limitCluster s g ((cluster.drop (4 * g)).take 4)) s
     let t2 := if envelopeWatts s.pwr.envEff * 110 < power1us * 100 then
         capAll { t1 with pwr := { t1.pwr with powerTrip := some (s.now + ticksCeil 100000) } }
       else match t1.pwr.powerTrip with
         | some t => if s.now < t then capAll t1 else { t1 with pwr := { t1.pwr with powerTrip := none } }
         | none => t1
     let t3 := if procRunning s 1 then t2 else capAll t2
     let t4 := (List.range 8).foldl (fun s d => limitDie s d ((cluster.drop (16 * d)).take 16 ++ (die.drop (4 * d)).take 4)) t3
     exec (.limiterSample cluster die island power1us) s =
       .next (if 115 ≤ island then report t4 ⟨0x23, 0xC0A0, none, 0xFF, 0xFF, 0, 20, island⟩ else t4) ∧
     (∀ g temps, (∃ t ∈ temps, s.pwr.tjEff ≤ t) → (clusterPower s g).hotSince = none →
       limitCluster s g temps = setCluster s g { clusterPower s g with
         cap := min 3 (max (clusterPower s g).step (clusterPower s g).cap + 1), hotSince := some s.now, coolSince := none }) ∧
     (∀ d temps, (∃ t ∈ temps, 115 ≤ t) → (∀ i, i < 4 → (clusterPower s (4 * d + i)).stopped = false) →
       ∃ i t, temps[i]? = some t ∧ 115 ≤ t ∧ limitDie s d temps = report
         (((List.range 4).map (fun i => 4 * d + i)).foldl (fun s g => setCluster s g { clusterPower s g with stopped := true }) s)
         ⟨0x23, 0xC0A0, none, 0xFF, 0xFF, 0, i, t⟩))

/-! ### The die ring (spec/01_organisation.md R15 to R17) -/

/-- A flit of 14 granules whose header code holds and whose granules can all be decoded, at a link end that is in service on a powered die: a
REQ, DATA or WRITE flit that is the next in order is accepted and acknowledged, and delivered at its die or sent on by its way; an ACK
releases the flits up to its seq; a CREDIT's granule 0 is kept; IDLE does nothing (R16). A flit that cannot be taken is discarded and
answered by a NAK of the expected seq, once for a run of flits out of order; a NAK of a link end's oldest kept flit has every kept flit sent
again, unless it has failed eight replays: RING_LINK_DOWN then takes both ends out of service, and what they kept goes the other way, credits
apart, which is the model's choice (R17, log 55). No flit reaches a link end that is out of service or without power. -/
def Obligations.RingFlitsAndReplay : Prop :=
  (∀ (die : BitVec 3) (up : Bool) (hdr : BitVec 32) (gs : List Granule) (s : State),
     let d := die.toNat
     let e := ringEnd d up
     let l := ringAt s e
     let t := acceptFlit s d up hdr gs
     let here := gs.length = 14 ∧ l.down = false ∧ dieCommonOn s = true
     let good := here ∧ headerCrc hdr = hdr.toNat % 256 ∧ gs.any granuleBroken = false
     (∀ i type, (i, type) ∈ [(Instr.ringReq die up hdr gs, 1), (.ringData die up hdr gs, 2), (.ringWrite die up hdr gs, 3)] →
       (good → flitType hdr = type → flitSeq hdr = l.rxSeq → exec i s = .next (
         if flitDst hdr = d then { t with ring := { t.ring with inbox := t.ring.inbox ++ [(d, hdr, cleanGranules gs)] } }
         else routeFlit t d hdr (cleanGranules gs))) ∧
       ((¬ good ∨ flitType hdr ≠ type ∨ flitSeq hdr ≠ l.rxSeq) → exec i s = .next s)) ∧
     (good → flitType hdr = 4 → exec (.ringAck die up hdr gs) s =
       .next (ringAcked s d up (fun q => decide ((flitSeq hdr + 4096 - q) % 4096 < 2048)))) ∧
     (good → flitType hdr = 6 → flitSeq hdr = l.rxSeq → exec (.ringCredit die up hdr gs) s =
       .next (setRing t e { ringAt t e with credits := (deliverGranule (gs.getD 0 0)).1 })) ∧
     exec (.ringIdle die up hdr gs) s = .next s ∧
     (¬ here → ∀ i ∈ [Instr.ringAck die up hdr gs, .ringNak die up hdr gs, .ringCredit die up hdr gs, .ringReservedFlit die up hdr gs],
       exec i s = .next s) ∧
     (gs.all (fun g => decodeOutcome g == .clean || decodeOutcome g == .poison) = true →
       t = emitFlit (setRing s e { l with rxSeq := (l.rxSeq + 1) % 4096, nakSent := false }) e
         (bareFlit d (ringPeer d up) 4 (flitSeq hdr)) noGranules)) ∧
  (∀ (die : BitVec 3) (up : Bool) (hdr : BitVec 32) (gs : List Granule) (s : State),
     let d := die.toNat
     let e := ringEnd d up
     let e' := ringEnd (ringPeer d up) (!up)
     let l := ringAt s e
     let here := gs.length = 14 ∧ l.down = false ∧ dieCommonOn s = true
     let good := headerCrc hdr = hdr.toNat % 256 ∧ flitType hdr < 7 ∧ gs.any granuleBroken = false
     let late := good ∧ flitType hdr ∈ [1, 2, 3, 6] ∧ flitSeq hdr ≠ l.rxSeq
     (here → ¬ good ∨ (late ∧ l.nakSent = false) → exec (.ringReservedFlit die up hdr gs) s =
       .next (emitFlit (setRing s e { l with nakSent := true }) e (bareFlit d (ringPeer d up) 5 l.rxSeq) noGranules)) ∧
     (here → late → l.nakSent = true → exec (.ringReservedFlit die up hdr gs) s = .next s) ∧
     (here → good → flitType hdr = 5 → ∀ f r, l.replayBuf = f :: r → flitSeq hdr = flitSeq f.1 →
       (l.frontReplays < 8 → exec (.ringNak die up hdr gs) s = .next (l.replayBuf.foldl (fun s f => emitFlit s e f.1 f.2)
         (setRing s e { l with frontReplays := l.frontReplays + 1 }))) ∧
       (8 ≤ l.frontReplays → exec (.ringNak die up hdr gs) s =
         .next (setRing s e { l with frontReplays := l.frontReplays + 1 }))) ∧
     ((l.replayBuf = [] ∨ l.frontReplays ≤ 8 ∨ l.down = true) → exec (.ringLinkDown die up) s = .next s) ∧
     (∀ f r, l.replayBuf = f :: r → 8 < l.frontReplays → l.down = false →
       let v := report s ⟨0x06, ringSource d up, none, 0xFF, 0xFF, 0, flitSeq f.1, 0⟩
       let near := ringAt v e
       let other := ringAt v e'
       let u := setRing (setRing v e { near with down := true, replayBuf := [], frontReplays := 0 }) e'
         { other with down := true, replayBuf := [], frontReplays := 0 }
       exec (.ringLinkDown die up) s = .next (
         (other.replayBuf.filter (fun f => flitType f.1 ≠ 6)).foldl (fun s f => routeFlit s (ringPeer d up) f.1 f.2)
           ((near.replayBuf.filter (fun f => flitType f.1 ≠ 6)).foldl (fun s f => routeFlit s d f.1 f.2) u))))

/-- The rows of the die ring keep every link end's replay buffer in order: its flits carry consecutive seqs that end before the next one
to be sent, under a good hcrc (R16, R17). -/
def Obligations.RingReplayStaysInOrder : Prop :=
  ∀ (die : BitVec 3) (up : Bool) (hdr : BitVec 32) (gs : List Granule) (c : Instr) (rest : List Instr) (s t : State),
    c ∈ [Instr.ringReq die up hdr gs, .ringData die up hdr gs, .ringWrite die up hdr gs, .ringAck die up hdr gs, .ringNak die up hdr gs,
      .ringCredit die up hdr gs, .ringIdle die up hdr gs, .ringReservedFlit die up hdr gs, .ringLinkDown die up] →
    s.pending = c :: rest → ringInOrder s = true → step s = .next t → ringInOrder t = true ∧ t.pending = rest

/-! ### Kettle links (spec/11_kettle_links.md R283 to R302, spec/14_firmware.md R386) -/

/-- A frame for this package that its port takes (a whole frame that can be decoded, the next in order, at a port in ACTIVE or DRAIN) is
taken by the link level, then held for a unit that is down, or carried out by its type; acknowledgements that no frame of this step has
carried follow in IDLE frames. A frame of another type, of another package or out of order is another row's, and changes nothing, but that a port
with lane lock counts the codewords and granules of a frame it does not take (R284, R286, R292, R303). -/
def Obligations.KettleFramesAreCarried : Prop :=
  ∀ (port : BitVec 2) (f : List Granule) (s : State) (i : Instr) (type : Nat) (message : List Nat),
    (i, type, message) ∈ [(Instr.dataWin port f, 1, []), (.dataRing port f, 2, []), (.ktlCredit port f, 3, []),
      (.done port f, 4, []), (.refuse port f, 5, []), (.echo port f, 6, [1]), (.echoReply port f, 6, [2]), (.clock port f, 6, [3]),
      (.topo port f, 9, [])] →
    let k := port.toNat
    let p := portAt s k
    let h := frameHead f
    let mine := (f.length = 33 ∨ f.length = 34) ∧ (p.state = 4 ∨ p.state = 6) ∧ frameBroken f = false ∧ h.dst = ownPkg s ∧
      headSeq (frameTop f) = p.rxSeq ∧ h.type = type ∧ ∀ m ∈ message, ((frameWord f 1).1.extractLsb' 112 16).toNat = m
    (mine →
      let t := linkTakeOwn s k f true
      exec i s = .next (sendIdles (
        if (type = 1 ∨ type = 2) ∧ mustHold t f = true then holdFrame t k f
        else match type, message with
          | 1, _ => takeDataWin t k f
          | 2, _ => takeDataRing t k f
          | 3, _ => takeCredit t h.src (frameWord f 1).1
          | 4, _ => takeDone t h.xfer
          | 5, _ => takeRefuse t k f
          | 6, [1] => if procRunning t 2 then
              sendCtrl t h.src 2 ((frameWord f 1).1.extractLsb' 96 16).toNat ((payload f).drop 1) else t
          | 6, [2] => { t with ktl := { t.ktl with echoes := t.ktl.echoes ++ [(h.src, (f.take 33).drop 1)] } }
          | 6, _ => if procRunning t 2 then logAdd t 0x0030 0x8002 0
              (natBytes 1 h.src ++ List.replicate 7 0 ++ natBytes 8 ((frameWord f 2).1.toNat % 2 ^ 64)) else t
          | _, _ => takeTopo t f))) ∧
    let unheard := (f.length = 33 ∨ f.length = 34) ∧
      (((p.state = 3 ∨ (p.state = 5 ∧ p.lanesLocked ≠ 0)) ∧ (frameBroken f = true ∨ h.type ≠ 8)) ∨
        (p.state = 0 ∧ p.ackDetach = true ∧ (frameBroken f = true ∨ (h.type ≠ 0 ∧ ¬ (h.type = 7 ∧ h.addr % 256 = 0)))))
    (¬ mine → ¬ unheard → exec i s = .next s) ∧
    (unheard → exec i s = .next (noteCorrections s k f))

/-- The frames of the link level (R286, R288, R292), at a port in ACTIVE or DRAIN: IDLE brings its ack; a NAK has the frames from its seq sent
again; a frame that cannot be decoded, is of a reserved type or is out of order is answered by a NAK; a CTRL message of another type is taken
without effect; DETACH takes an ACTIVE port OFF and DETACH_ACK a draining one; a frame for another package goes on by its route, one hop
further, and is discarded at the fifteenth. An IDENT that agrees takes a port in IDENT, or one in RETRAIN that has lock again, to ACTIVE; one
that does not takes IDENT to INCOMPATIBLE with a record. -/
def Obligations.KettleLinkFramesAct : Prop :=
  ∀ (port : BitVec 2) (f : List Granule) (s : State),
    let k := port.toNat
    let p := portAt s k
    let h := frameHead f
    let sub := h.addr % 256
    let here := (f.length = 33 ∨ f.length = 34) ∧ (p.state = 4 ∨ p.state = 6)
    let inOrder := headSeq (frameTop f) = p.rxSeq
    (here → frameBroken f = false → h.type = 0 → exec (.ktlIdle port f) s = .next (sendIdles (linkTakeOwn s k f false))) ∧
    (here → frameBroken f = false → h.type = 7 → sub = 0 → exec (.ktlNak port f) s =
      .next (sendIdles (replayFrom (linkTakeOwn s k f false) k (headSeq (frameTop f))))) ∧
    (here →
      (frameBroken f = true ∨ 10 ≤ h.type ∨ (h.type = 7 ∧ 3 ≤ sub) ∨
        (h.type ≠ 0 ∧ ¬ (h.type = 7 ∧ sub = 0) ∧ ¬ inOrder)) →
      exec (.ktlReservedFrame port f) s = .next (sendNak (noteCorrections s k f) k)) ∧
    (here → frameBroken f = false → inOrder → h.type = 6 → h.dst = ownPkg s →
      ((frameWord f 1).1.extractLsb' 112 16).toNat ∉ [1, 2, 3] →
      exec (.ktlReservedFrame port f) s = .next (sendIdles (linkTakeOwn s k f true))) ∧
    (here → frameBroken f = false → inOrder → h.type = 7 → sub = 2 →
      let t := linkTakeOwn s k f true
      exec (.detachAck port f) s = .next (sendIdles (if (portAt t k).state = 6 then goOff t k none else t))) ∧
    (here → frameBroken f = false → inOrder → h.type = 7 → sub = 1 →
      let t := linkTakeOwn s k f true
      let u := moveState t k 0 (some 2)
      exec (.detach port f) s = .next (sendIdles (
        if (portAt t k).state = 4 then
          bufferDrained ((portAt u k).detaching.foldl (fun s key => finishCmd s key {})
            (setPort u k { portAt u k with ackDetach := true, detaching := [] })) k
        else t))) ∧
    ((f.length = 33 ∨ f.length = 34) → (p.state = 3 ∨ (p.state = 5 ∧ p.lanesLocked ≠ 0)) → frameBroken f = false → h.type = 8 →
      let w := (frameWord f 1).1
      let t := noteIdent (linkTakeOwn s k f false) k w
      let u := setPort t k { portAt t k with rxSeq := (headSeq (frameTop f) + 1) % 4096 }
      exec (.ident port f) s = .next (sendIdles (
        if p.state = 3 then
          if identAgrees u k w = true then moveState u k 4 none else linkRecord (moveState u k 7 none) k 0x10
        else if identAgrees t k w = true then backToActive t k else t))) ∧
    (here → frameBroken f = false → inOrder → h.type < 10 → h.type ∉ [0, 7, 8] → h.dst ≠ ownPkg s →
      let r := forwardPort (linkTake s k f true) h
      exec (.ktlForward port f) s = .next (sendIdles (
        match r.1 with
        | none => r.2
        | some out =>
          if 15 ≤ h.hops + 1 then bumpKtl r.2 out 0x70 1
          else enqueue r.2 out [⟨buildFrame { h with hops := h.hops + 1 } 0 0 ((List.range 32).map (fun i => frameWord f (i + 1))),
            some (k, headSeq (frameTop f)), none⟩])))

/-- The states of a port without frames (R288, R302): DETECT to TRAIN at signal on eight lanes; TRAIN to IDENT at lock, with an IDENT sent,
and one more every µs, as in RETRAIN once it has lock again; TRAIN back to DETECT after 50 ms, or to FAILED with a record at the third
failure in a row; IDENT back to DETECT after 100 µs; ACTIVE to RETRAIN at loss of lock or after eight failed replays, and out of the link
map after its hold time there; RETRAIN to DETECT after 5 ms, its link lost; DRAIN to OFF after 1 ms; and none of them before its time or
in another state. A ring command the longest of whose waits has lasted its end-to-end limit ends ABORTED_LINK. LINK_STATUS copies the records of
its ports, and clears their change bits where it acknowledges (R295); LINK_ATTACH takes an OFF port to DETECT, with what it expects of its
peer and its fence lifted (R293); LINK_DETACH of an OFF port does nothing, with FORCE, or before ACTIVE, takes a port OFF and answers its frames
lost, and without FORCE has an ACTIVE port drain (R294). -/
def Obligations.KettlePortsChangeState : Prop :=
  (∀ (portName : Port) (slot : BitVec 6) (hdr : BitVec 64) (h : Handed) (k : Nat) (s : State),
    let a := working h k s
    let p := slotAt a k
    let n := param p 0 8
    let port := portAt a n
    mayRun h k s = true →
    (handed (.linkStatus portName slot hdr) = some h →
      let l := longReply a k ((maskPorts p).flatMap (linkRecordBytes a))
      let t := if paramBit p 1 0 then (maskPorts p).foldl (fun s i => setPort s i { portAt s i with changed := false }) l.2 else l.2
      exec (.linkStatus portName slot hdr) s = .next (settle (completeCmd t k
        { result := BitVec.ofNat 64 ((List.range 4).foldl (fun b i => b + portStat (portAt a i) % 256 * 2 ^ (8 * i)) 0)
          longWritten := l.1.1, trunc := l.1.2 }))) ∧
    (handed (.linkAttach portName slot hdr) = some h →
      let b : State := { a with ras := { a.ras with
        fenced := a.ras.fenced.filter (fun x => x ≠ 0xC010 + n), history := tset [] a.ras.history (0xC010 + n) [] } }
      let c := setPort b n { portAt b n with
        expectPkg := param p 1 8, expectPort := param p 2 8, width8 := paramBit p 3 0, ackDetach := false, trainFails := 0, lost := 0 }
      exec (.linkAttach portName slot hdr) s = .next (settle (completeCmd (clearLink (moveState c n 1 none) n) k { result := 1 }))) ∧
    (handed (.linkDetach portName slot hdr) = some h →
      let lost := BitVec.ofNat 64 (port.lost + port.replayBuf.length)
      let waits := setPort a n { port with detaching := port.detaching ++ [k] }
      (port.state = 0 → exec (.linkDetach portName slot hdr) s = .next (settle (completeCmd a k {}))) ∧
      (paramBit p 1 0 = true → port.state = 4 ∨ port.state = 5 →
        exec (.linkDetach portName slot hdr) s = .next (settle (completeCmd (goOff a n (some 6)) k { result := lost }))) ∧
      (paramBit p 1 0 = false → port.state = 4 → exec (.linkDetach portName slot hdr) s =
        .next (settle (updCmd (startDrain waits n) k (fun c => { c with stage := .inProgress })))) ∧
      (port.state ≠ 0 → port.state ≠ 4 → port.state ≠ 5 → port.state ≠ 6 →
        exec (.linkDetach portName slot hdr) s = .next (settle (completeCmd (goOff a n none) k { result := lost }))))) ∧
  (∀ (port : BitVec 2) (lanes inverted : BitVec 16) (reversed : Bool) (s : State),
    let k := port.toNat
    let p := portAt s k
    let after := fun ticks => p.changedAt + ticks ≤ s.now
    (p.state = 1 → 8 ≤ laneCount lanes → exec (.signalDetect port lanes) s = .next (moveState s k 2 none)) ∧
    ((p.state ≠ 1 ∨ laneCount lanes < 8) → exec (.signalDetect port lanes) s = .next s) ∧
    (lockWidth p lanes ≠ 0 → p.state = 2 →
      let t := clearLink (moveState s k 3 none) k
      exec (.laneLock port lanes inverted reversed) s = .next (sendIdent (setPort t k { portAt t k with
        width := lockWidth p lanes, lanesLocked := lanes, lanesInverted := inverted, reversed := reversed }) k)) ∧
    (lockWidth p lanes = 0 → exec (.laneLock port lanes inverted reversed) s = .next s) ∧
    (lockWidth p lanes ≠ 0 → p.state = 5 → exec (.laneLock port lanes inverted reversed) s = .next (sendIdent (setPort s k { p with
        width := lockWidth p lanes, lanesLocked := lanes, lanesInverted := inverted, reversed := reversed }) k)) ∧
    (p.state ≠ 2 → p.state ≠ 5 → exec (.laneLock port lanes inverted reversed) s = .next s) ∧
    ((p.state = 3 ∨ (p.state = 5 ∧ p.lanesLocked ≠ 0)) → p.identSentAt + ticksCeil 1000 ≤ s.now →
      exec (.identResend port) s = .next (sendIdent s k)) ∧
    (s.now < p.identSentAt + ticksCeil 1000 → exec (.identResend port) s = .next s) ∧
    (p.state = 2 → after (ticksCeil 50000000) →
      let t := setPort s k { p with trainFails := min (p.trainFails + 1) 255 }
      exec (.trainTimeout port) s =
        .next (if 2 ≤ p.trainFails then linkRecord (moveState t k 8 none) k 0x11 else moveState t k 1 none)) ∧
    (¬ after (ticksCeil 50000000) → exec (.trainTimeout port) s = .next s) ∧
    (¬ after (ticksCeil 100000) → exec (.identTimeout port) s = .next s) ∧
    (¬ after (ticksCeil 5000000) → exec (.retrainTimeout port) s = .next s) ∧
    (¬ after (ticksCeil 1000000) → exec (.drainTimeout port) s = .next s) ∧
    (p.state = 3 → after (ticksCeil 100000) → exec (.identTimeout port) s =
      .next (goDetect (setPort s k { p with trainFails := min (p.trainFails + 1) 255 }) k none)) ∧
    (p.state = 4 → exec (.lockLost port) s = .next (moveState s k 5 (some 3))) ∧
    (p.state = 4 → (∃ e ∈ p.failedReplays, 8 < e.2) → exec (.replayLimit port) s = .next (linkRecord (moveState s k 5 (some 4)) k 4)) ∧
    (p.state = 5 → after (ticksCeil 5000000) → exec (.retrainTimeout port) s =
      .next (linkRecord (abortUnreachable (goDetect s k (some 5))) k 5)) ∧
    (p.state = 6 → after (ticksCeil 1000000) → exec (.drainTimeout port) s = .next (goOff s k none)) ∧
    (p.state = 5 → p.routed = true → after (retrainHold s k) → exec (.retrainHoldExpiry port) s =
      .next (abortUnreachable (sendTopo (loseFrames (setPort s k { p with routed := false }) k)))) ∧
    (p.state ≠ 2 → exec (.trainTimeout port) s = .next s) ∧ (p.state ≠ 3 → exec (.identTimeout port) s = .next s) ∧
    (p.state ≠ 4 → exec (.lockLost port) s = .next s ∧ exec (.replayLimit port) s = .next s) ∧
    (p.state ≠ 5 → exec (.retrainTimeout port) s = .next s ∧ exec (.retrainHoldExpiry port) s = .next s) ∧
    ((p.routed = false ∨ ¬ after (retrainHold s k)) → exec (.retrainHoldExpiry port) s = .next s) ∧
    (p.state ≠ 6 → exec (.drainTimeout port) s = .next s) ∧
    (∀ (slot : BitVec 6), (∀ c, cmdOf s slot.toNat = some c → c.ringWaits = []) → exec (.e2eTimeout slot) s = .next s) ∧
    (∀ (slot : BitVec 6) (c : Cmd) (t : Nat), cmdOf s slot.toNat = some c →
      (∃ w ∈ c.ringWaits, w.2 = t) → (∀ w ∈ c.ringWaits, t ≤ w.2) →
      (t + ticksCeil (cmdVal s c 0x700C 0) ≤ s.now → exec (.e2eTimeout slot) s =
        .next (abortCmd (bumpKtl s (waitPort s c) 0x58 1) c.key 0x21)) ∧
      (s.now < t + ticksCeil (cmdVal s c 0x700C 0) → exec (.e2eTimeout slot) s = .next s)))
end

