-- ==== Sys2Proof/Laws/Commands.lean ====
section
/-! SUPPORT. How a row that hands a slot over runs, cut where claims need it: the row, the packet offered, and the checks past which
the command is admitted. -/
namespace Sys2Proof.Laws

open Sys2Proof.Machine Sys2Proof.Safety

/-- Every row that hands a slot over runs the one shared operation with its opcode and form. -/
theorem exec_handed {i : Instr} {h : Handed} (s : State) (hi : handed i = some h) :
    exec i s = .next (handOpcode h.op h.form h.port h.slot h.hdr s) := by
  cases i <;> simp only [handed, Option.some.injEq, reduceCtorEq] at hi <;> subst hi <;> rfl

/-- What it takes for a handover to reach Kerur (R308, R310, R324). -/
theorem mayOffer_elim {h : Handed} {k : Nat} {s : State} (hm : mayOffer h k s = true) :
    slotKey h.port h.slot.toNat = some k ∧ slotOwned s k = false ∧ ¬ (h.port = .debug ∧ s.host.debugUnlocked = false) := by
  simp only [mayOffer, Bool.and_eq_true, Bool.or_eq_true, beq_iff_eq, Bool.not_eq_true', decide_eq_true_eq] at hm
  obtain ⟨⟨a, b⟩, c⟩ := hm
  refine ⟨a, b, ?_⟩
  rintro ⟨d, e⟩
  rcases c with c | c
  · exact c d
  · simp [e] at c

/-- A handover that reaches Kerur: the packet is offered, arrives, and the step ends. -/
theorem handOpcode_offered {h : Handed} {k : Nat} {s : State} (hm : mayOffer h k s = true) :
    handOpcode h.op h.form h.port h.slot h.hdr s = settle (arrive (opDef h.op) k (offered h k s)) := by
  obtain ⟨a, b, c⟩ := mayOffer_elim hm
  simp only [handOpcode, handover, a, b, c, if_false]
  rfl

/-- A packet that passes steps 1 to 5, and its checks of steps 6 to 9, goes to its admission (R319). -/
theorem arrive_passes {op k : Nat} {s s₂ : State} {cl : List ClampEntry} (hp : Safety.passes op k s = true)
    (hc : ((opDef op).check k).run (taken k s) = .ok cl s₂) : arrive (opDef op) k s = admitChecked (opDef op) k cl s₂ := by
  simp only [Safety.passes, reachesGate, Bool.and_eq_true, Option.isNone_iff_eq_none, Bool.not_eq_true', beq_iff_eq] at hp
  obtain ⟨⟨⟨⟨⟨r1, r2⟩, r3⟩, r4⟩, r5⟩, r6⟩ := hp
  have hw : ¬ (mustWake (taken k s) k (slotBits (slotAt s k) 0 16) = true) := by
    rw [show mustWake (taken k s) k (slotBits (slotAt s k) 0 16) = mustWake s k (slotBits (slotAt s k) 0 16) from rfl, r6]
    exact Bool.false_ne_true
  have ht : takeSlot (opDef op) k s = runCheck (opDef op) k (taken k s) := by
    simp only [takeSlot, r5]
    exact if_neg hw
  simp only [arrive, r1, Bool.false_eq_true, if_false, r2, r3, r4, ht, runCheck, hc]

/-- What a computation that ends says of its run. -/
theorem ends_elim {α : Type} {a : Act α} {s : State} {e : α × State} (h : ends a s = some e) : a.run s = .ok e.1 e.2 := by
  unfold ends at h
  split at h
  · next x t hr => cases h; exact hr
  · cases h

/-- What it takes for a packet to pass every check (R319). -/
theorem passesAll_elim {h : Handed} {k : Nat} {s : State} (hm : passesAll h k s = true) :
    mayOffer h k s = true ∧ Safety.passes h.op k (offered h k s) = true ∧ ∃ e, checked h k s = some e := by
  simp only [passesAll, Bool.and_eq_true, Option.isSome_iff_exists] at hm
  exact ⟨hm.1.1, hm.1.2, hm.2⟩

/-- A row whose packet passes every check goes to its admission (R319). -/
theorem exec_passesAll {i : Instr} {h : Handed} {k : Nat} {s : State} {e : List ClampEntry × State} (hi : handed i = some h)
    (hm : passesAll h k s = true) (he : checked h k s = some e) :
    exec i s = .next (settle (admitChecked (opDef h.op) k e.1 e.2)) ∧ working h k s = admitted k e.1 e.2 := by
  obtain ⟨a, b, -⟩ := passesAll_elim hm
  refine ⟨?_, by simp [working, he]⟩
  rw [exec_handed s hi, handOpcode_offered a, arrive_passes b (ends_elim he)]

/-- A row whose command may run carries its body out (R318, R319). -/
theorem exec_mayRun {i : Instr} {h : Handed} {k : Nat} {s : State} (hi : handed i = some h) (hm : mayRun h k s = true)
    (hp : (opDef h.op).placed = false) : exec i s = .next (settle (runBody (opDef h.op) k (working h k s))) := by
  simp only [mayRun, runsNow, Bool.and_eq_true, Bool.not_eq_true'] at hm
  obtain ⟨hm, -, hl⟩ := hm
  obtain ⟨-, -, e, he⟩ := passesAll_elim hm
  obtain ⟨hx, hw⟩ := exec_passesAll hi hm he
  rw [hw] at hl ⊢
  rw [hx]
  simp only [admitChecked, admitted] at hl ⊢
  simp only [hl, hp, Bool.false_eq_true, if_false]

end Sys2Proof.Laws
end

