-- ==== Sys2Proof/Laws/Exec.lean ====
section
/-! SUPPORT. What `exec` runs for each row: one equation a row, true by definition, so that no proof unfolds the dispatch. -/
namespace Sys2Proof.Machine

open Sys2Proof

theorem exec_windowWrite (port offset size value s) :
    exec (.windowWrite port offset size value) s = execWindowWrite port offset size value s := rfl
theorem exec_counterFreeze (blk hold s) : exec (.counterFreeze blk hold) s = execCounterFreeze blk hold s := rfl
theorem exec_counterClear (blk s) : exec (.counterClear blk) s = execCounterClear blk s := rfl
theorem exec_evacuate (module s) : exec (.evacuate module) s = execEvacuate module s := rfl
theorem exec_invalidOpcode (port slot hdr s) : exec (.invalidOpcode port slot hdr) s = execInvalidOpcode port slot hdr s := rfl
theorem exec_waitingCommandAdmit (s) : exec .waitingCommandAdmit s = execWaitingCommandAdmit s := rfl
theorem exec_interimStatusRefresh (port slot s) : exec (.interimStatusRefresh port slot) s = execInterimStatusRefresh port slot s := rfl
theorem exec_cfgRead (port slot hdr s) : exec (.cfgRead port slot hdr) s = execCfgRead port slot hdr s := rfl
theorem exec_cfgWrite (port slot hdr s) : exec (.cfgWrite port slot hdr) s = execCfgWrite port slot hdr s := rfl
theorem exec_cfgCommit (port slot hdr s) : exec (.cfgCommit port slot hdr) s = execCfgCommit port slot hdr s := rfl
theorem exec_cfgDiscard (port slot hdr s) : exec (.cfgDiscard port slot hdr) s = execCfgDiscard port slot hdr s := rfl
theorem exec_drainQuiescent (s) : exec .drainQuiescent s = execDrainQuiescent s := rfl
theorem exec_cfgStatus (port slot hdr s) : exec (.cfgStatus port slot hdr) s = execCfgStatus port slot hdr s := rfl
theorem exec_seqCreate (port slot hdr s) : exec (.seqCreate port slot hdr) s = execSeqCreate port slot hdr s := rfl
theorem exec_seqFork (port slot hdr s) : exec (.seqFork port slot hdr) s = execSeqFork port slot hdr s := rfl
theorem exec_seqFree (port slot hdr s) : exec (.seqFree port slot hdr) s = execSeqFree port slot hdr s := rfl
theorem exec_seqTruncate (port slot hdr s) : exec (.seqTruncate port slot hdr) s = execSeqTruncate port slot hdr s := rfl
theorem exec_prefixLookup (port slot hdr s) : exec (.prefixLookup port slot hdr) s = execPrefixLookup port slot hdr s := rfl
theorem exec_prefixPublish (port slot hdr s) : exec (.prefixPublish port slot hdr) s = execPrefixPublish port slot hdr s := rfl
theorem exec_prefixWithdraw (port slot hdr s) : exec (.prefixWithdraw port slot hdr) s = execPrefixWithdraw port slot hdr s := rfl
theorem exec_kvDemote (port slot hdr s) : exec (.kvDemote port slot hdr) s = execKvDemote port slot hdr s := rfl
theorem exec_kvPromote (port slot hdr s) : exec (.kvPromote port slot hdr) s = execKvPromote port slot hdr s := rfl
theorem exec_kvRecomputeList (port slot hdr s) : exec (.kvRecomputeList port slot hdr) s = execKvRecomputeList port slot hdr s := rfl
theorem exec_attnFwd (port slot hdr s) : exec (.attnFwd port slot hdr) s = execAttnFwd port slot hdr s := rfl
theorem exec_attnBwd (port slot hdr s) : exec (.attnBwd port slot hdr) s = execAttnBwd port slot hdr s := rfl
theorem exec_proj (port slot hdr s) : exec (.proj port slot hdr) s = execProj port slot hdr s := rfl
theorem exec_matmul (port slot hdr s) : exec (.matmul port slot hdr) s = execMatmul port slot hdr s := rfl
theorem exec_planLoad (port slot hdr s) : exec (.planLoad port slot hdr) s = execPlanLoad port slot hdr s := rfl
theorem exec_planUnload (port slot hdr s) : exec (.planUnload port slot hdr) s = execPlanUnload port slot hdr s := rfl
theorem exec_streamArm (port slot hdr s) : exec (.streamArm port slot hdr) s = execStreamArm port slot hdr s := rfl
theorem exec_streamRearm (port slot hdr s) : exec (.streamRearm port slot hdr) s = execStreamRearm port slot hdr s := rfl
theorem exec_streamHalt (port slot hdr s) : exec (.streamHalt port slot hdr) s = execStreamHalt port slot hdr s := rfl
theorem exec_updProgramLoad (port slot hdr s) : exec (.updProgramLoad port slot hdr) s = execUpdProgramLoad port slot hdr s := rfl
theorem exec_updStep (port slot hdr s) : exec (.updStep port slot hdr) s = execUpdStep port slot hdr s := rfl
theorem exec_updRowCommit (stack s) : exec (.updRowCommit stack) s = execUpdRowCommit stack s := rfl
theorem exec_updMul (stack rd ra rb rc s) : exec (.updMul stack rd ra rb rc) s = execUpdMul stack rd ra rb rc s := rfl
theorem exec_updAdd (stack rd ra rb rc s) : exec (.updAdd stack rd ra rb rc) s = execUpdAdd stack rd ra rb rc s := rfl
theorem exec_updFma (stack rd ra rb rc s) : exec (.updFma stack rd ra rb rc) s = execUpdFma stack rd ra rb rc s := rfl
theorem exec_updSqrt (stack rd ra rb rc s) : exec (.updSqrt stack rd ra rb rc) s = execUpdSqrt stack rd ra rb rc s := rfl
theorem exec_updRsqrt (stack rd ra rb rc s) : exec (.updRsqrt stack rd ra rb rc) s = execUpdRsqrt stack rd ra rb rc s := rfl
theorem exec_updDiv (stack rd ra rb rc s) : exec (.updDiv stack rd ra rb rc) s = execUpdDiv stack rd ra rb rc s := rfl
theorem exec_updMax (stack rd ra rb rc s) : exec (.updMax stack rd ra rb rc) s = execUpdMax stack rd ra rb rc s := rfl
theorem exec_updSel (stack rd ra rb rc s) : exec (.updSel stack rd ra rb rc) s = execUpdSel stack rd ra rb rc s := rfl
theorem exec_updRndr (stack rd ra rb rc s) : exec (.updRndr stack rd ra rb rc) s = execUpdRndr stack rd ra rb rc s := rfl
theorem exec_linkStatus (port slot hdr s) : exec (.linkStatus port slot hdr) s = execLinkStatus port slot hdr s := rfl
theorem exec_linkAttach (port slot hdr s) : exec (.linkAttach port slot hdr) s = execLinkAttach port slot hdr s := rfl
theorem exec_linkDetach (port slot hdr s) : exec (.linkDetach port slot hdr) s = execLinkDetach port slot hdr s := rfl
theorem exec_fwLoad (port slot hdr s) : exec (.fwLoad port slot hdr) s = execFwLoad port slot hdr s := rfl
theorem exec_fwStart (port slot hdr s) : exec (.fwStart port slot hdr) s = execFwStart port slot hdr s := rfl
theorem exec_fwHandover (port slot hdr s) : exec (.fwHandover port slot hdr) s = execFwHandover port slot hdr s := rfl
theorem exec_logRead (port slot hdr s) : exec (.logRead port slot hdr) s = execLogRead port slot hdr s := rfl
theorem exec_logStatus (port slot hdr s) : exec (.logStatus port slot hdr) s = execLogStatus port slot hdr s := rfl
theorem exec_traceCtlEnable (port slot hdr s) : exec (.traceCtlEnable port slot hdr) s = execTraceCtlEnable port slot hdr s := rfl
theorem exec_traceCtlDisable (port slot hdr s) : exec (.traceCtlDisable port slot hdr) s = execTraceCtlDisable port slot hdr s := rfl
theorem exec_traceCtlDisableAll (port slot hdr s) :
    exec (.traceCtlDisableAll port slot hdr) s = execTraceCtlDisableAll port slot hdr s := rfl
theorem exec_traceCtlCount (port slot hdr s) : exec (.traceCtlCount port slot hdr) s = execTraceCtlCount port slot hdr s := rfl
theorem exec_pwrModeQuery (port slot hdr s) : exec (.pwrModeQuery port slot hdr) s = execPwrModeQuery port slot hdr s := rfl
theorem exec_pwrModeSet (port slot hdr s) : exec (.pwrModeSet port slot hdr) s = execPwrModeSet port slot hdr s := rfl
theorem exec_pwrHintSet (port slot hdr s) : exec (.pwrHintSet port slot hdr) s = execPwrHintSet port slot hdr s := rfl
theorem exec_pwrHintClear (port slot hdr s) : exec (.pwrHintClear port slot hdr) s = execPwrHintClear port slot hdr s := rfl
theorem exec_pwrHintClearAll (port slot hdr s) : exec (.pwrHintClearAll port slot hdr) s = execPwrHintClearAll port slot hdr s := rfl
theorem exec_hintExpiry (index s) : exec (.hintExpiry index) s = execHintExpiry index s := rfl
theorem exec_faultFetch (port slot hdr s) : exec (.faultFetch port slot hdr) s = execFaultFetch port slot hdr s := rfl
theorem exec_faultResolve (port slot hdr s) : exec (.faultResolve port slot hdr) s = execFaultResolve port slot hdr s := rfl
theorem exec_errFetch (port slot hdr s) : exec (.errFetch port slot hdr) s = execErrFetch port slot hdr s := rfl
theorem exec_errFetchCounters (port slot hdr s) : exec (.errFetchCounters port slot hdr) s = execErrFetchCounters port slot hdr s := rfl
theorem exec_errClear (port slot hdr s) : exec (.errClear port slot hdr) s = execErrClear port slot hdr s := rfl
theorem exec_sessionOpen (port slot hdr s) : exec (.sessionOpen port slot hdr) s = execSessionOpen port slot hdr s := rfl
theorem exec_sessionAdopt (port slot hdr s) : exec (.sessionAdopt port slot hdr) s = execSessionAdopt port slot hdr s := rfl
theorem exec_sessionClose (port slot hdr s) : exec (.sessionClose port slot hdr) s = execSessionClose port slot hdr s := rfl
theorem exec_leaseRenew (port slot hdr s) : exec (.leaseRenew port slot hdr) s = execLeaseRenew port slot hdr s := rfl
theorem exec_attach (port slot hdr s) : exec (.attach port slot hdr) s = execAttach port slot hdr s := rfl
theorem exec_nop (port slot hdr s) : exec (.nop port slot hdr) s = execNop port slot hdr s := rfl
theorem exec_debugUnlock (s) : exec .debugUnlock s = execDebugUnlock s := rfl
theorem exec_debugLock (s) : exec .debugLock s = execDebugLock s := rfl
theorem exec_entdaa (address s) : exec (.entdaa address) s = execEntdaa address s := rfl
theorem exec_rstdaa (s) : exec .rstdaa s = execRstdaa s := rfl
theorem exec_getpid (s) : exec .getpid s = execGetpid s := rfl
theorem exec_getbcr (s) : exec .getbcr s = execGetbcr s := rfl
theorem exec_getdcr (s) : exec .getdcr s = execGetdcr s := rfl
theorem exec_getstatus (s) : exec .getstatus s = execGetstatus s := rfl
theorem exec_getmxds (s) : exec .getmxds s = execGetmxds s := rfl
theorem exec_i3cPrivateWrite (bytes s) : exec (.i3cPrivateWrite bytes) s = execI3cPrivateWrite bytes s := rfl
theorem exec_bypass (tdi s) : exec (.bypass tdi) s = execBypass tdi s := rfl
theorem exec_idcode (s) : exec .idcode s = execIdcode s := rfl
theorem exec_dbgSlotCapture (s) : exec .dbgSlotCapture s = execDbgSlotCapture s := rfl
theorem exec_dbgSlotUpdate (scanned s) : exec (.dbgSlotUpdate scanned) s = execDbgSlotUpdate scanned s := rfl
theorem exec_commandPlace (s) : exec .commandPlace s = execCommandPlace s := rfl
theorem exec_planStepStart (cluster s) : exec (.planStepStart cluster) s = execPlanStepStart cluster s := rfl
theorem exec_planStepCommit (cluster s) : exec (.planStepCommit cluster) s = execPlanStepCommit cluster s := rfl
theorem exec_drainDone (cluster record s) : exec (.drainDone cluster record) s = execDrainDone cluster record s := rfl
theorem exec_combineNode (cluster level first s) :
    exec (.combineNode cluster level first) s = execCombineNode cluster level first s := rfl
theorem exec_allocWaitSatisfied (s) : exec .allocWaitSatisfied s = execAllocWaitSatisfied s := rfl
theorem exec_allocTimeout (s) : exec .allocTimeout s = execAllocTimeout s := rfl
theorem exec_moveCommit (page s) : exec (.moveCommit page) s = execMoveCommit page s := rfl
theorem exec_restoreComplete (page s) : exec (.restoreComplete page) s = execRestoreComplete page s := rfl
theorem exec_farRemovalReport (module s) : exec (.farRemovalReport module) s = execFarRemovalReport module s := rfl
theorem exec_enumerated (event s) : exec (.enumerated event) s = execEnumerated event s := rfl
theorem exec_linkDown (event s) : exec (.linkDown event) s = execLinkDown event s := rfl
theorem exec_removed (event s) : exec (.removed event) s = execRemoved event s := rfl
theorem exec_farEventReserved (event s) : exec (.farEventReserved event) s = execFarEventReserved event s := rfl
theorem exec_evacuationEnd (module s) : exec (.evacuationEnd module) s = execEvacuationEnd module s := rfl
theorem exec_evacTimeout (module s) : exec (.evacTimeout module) s = execEvacTimeout module s := rfl
theorem exec_walkEnd (die entry s) : exec (.walkEnd die entry) s = execWalkEnd die entry s := rfl
theorem exec_transferComplete (core queue index flip s) :
    exec (.transferComplete core queue index flip) s = execTransferComplete core queue index flip s := rfl
theorem exec_basketArrival (core queue s) : exec (.basketArrival core queue) s = execBasketArrival core queue s := rfl
theorem exec_taggedAccessAdmit (core queue s) : exec (.taggedAccessAdmit core queue) s = execTaggedAccessAdmit core queue s := rfl
theorem exec_hang (core queue s) : exec (.hang core queue) s = execHang core queue s := rfl
theorem exec_ordinaryRemoteWrite (src req data s) :
    exec (.ordinaryRemoteWrite src req data) s = execOrdinaryRemoteWrite src req data s := rfl
theorem exec_privilegedRemoteWrite (src req data s) :
    exec (.privilegedRemoteWrite src req data) s = execPrivilegedRemoteWrite src req data s := rfl
theorem exec_writeAck (s) : exec .writeAck s = execWriteAck s := rfl
theorem exec_writeNak (s) : exec .writeNak s = execWriteNak s := rfl
theorem exec_windowCloseComplete (core win s) : exec (.windowCloseComplete core win) s = execWindowCloseComplete core win s := rfl
theorem exec_windowReopen (core win s) : exec (.windowReopen core win) s = execWindowReopen core win s := rfl
theorem exec_handoffDataNotice (core queue s) : exec (.handoffDataNotice core queue) s = execHandoffDataNotice core queue s := rfl
theorem exec_multicastBroadcast (cluster group s) :
    exec (.multicastBroadcast cluster group) s = execMulticastBroadcast cluster group s := rfl
theorem exec_multicastDetach (cluster group receiver s) :
    exec (.multicastDetach cluster group receiver) s = execMulticastDetach cluster group receiver s := rfl
theorem exec_add (core queue rd sa sb s) : exec (.add core queue rd sa sb) s = execAdd core queue rd sa sb s := rfl
theorem exec_sub (core queue rd sa sb s) : exec (.sub core queue rd sa sb) s = execSub core queue rd sa sb s := rfl
theorem exec_mul (core queue rd sa sb s) : exec (.mul core queue rd sa sb) s = execMul core queue rd sa sb s := rfl
theorem exec_and (core queue rd sa sb s) : exec (.and core queue rd sa sb) s = execAnd core queue rd sa sb s := rfl
theorem exec_or (core queue rd sa sb s) : exec (.or core queue rd sa sb) s = execOr core queue rd sa sb s := rfl
theorem exec_xor (core queue rd sa sb s) : exec (.xor core queue rd sa sb) s = execXor core queue rd sa sb s := rfl
theorem exec_min (core queue rd sa sb s) : exec (.min core queue rd sa sb) s = execMin core queue rd sa sb s := rfl
theorem exec_max (core queue rd sa sb s) : exec (.max core queue rd sa sb) s = execMax core queue rd sa sb s := rfl
theorem exec_addi (core queue rd sa imm s) : exec (.addi core queue rd sa imm) s = execAddi core queue rd sa imm s := rfl
theorem exec_muli (core queue rd sa imm s) : exec (.muli core queue rd sa imm) s = execMuli core queue rd sa imm s := rfl
theorem exec_shli (core queue rd sa imm s) : exec (.shli core queue rd sa imm) s = execShli core queue rd sa imm s := rfl
theorem exec_shri (core queue rd sa imm s) : exec (.shri core queue rd sa imm) s = execShri core queue rd sa imm s := rfl
theorem exec_andi (core queue rd sa imm s) : exec (.andi core queue rd sa imm) s = execAndi core queue rd sa imm s := rfl
theorem exec_lds (core queue rd sa imm s) : exec (.lds core queue rd sa imm) s = execLds core queue rd sa imm s := rfl
theorem exec_bz (core queue rd sa imm s) : exec (.bz core queue rd sa imm) s = execBz core queue rd sa imm s := rfl
theorem exec_bnz (core queue rd sa imm s) : exec (.bnz core queue rd sa imm) s = execBnz core queue rd sa imm s := rfl
theorem exec_emit (core queue rd sa sb s) : exec (.emit core queue rd sa sb) s = execEmit core queue rd sa sb s := rfl
theorem exec_empty (core queue rd sa imm s) : exec (.empty core queue rd sa imm) s = execEmpty core queue rd sa imm s := rfl
theorem exec_skip (core queue rd sa imm s) : exec (.skip core queue rd sa imm) s = execSkip core queue rd sa imm s := rfl
theorem exec_cwait (core queue rd sa imm s) : exec (.cwait core queue rd sa imm) s = execCwait core queue rd sa imm s := rfl
theorem exec_cwaitRelease (core queue s) : exec (.cwaitRelease core queue) s = execCwaitRelease core queue s := rfl
theorem exec_cset (core queue rd sa imm s) : exec (.cset core queue rd sa imm) s = execCset core queue rd sa imm s := rfl
theorem exec_csub (core queue rd sa imm s) : exec (.csub core queue rd sa imm) s = execCsub core queue rd sa imm s := rfl
theorem exec_carm (core queue rd sa imm s) : exec (.carm core queue rd sa imm) s = execCarm core queue rd sa imm s := rfl
theorem exec_wopen (core queue rd sa imm s) : exec (.wopen core queue rd sa imm) s = execWopen core queue rd sa imm s := rfl
theorem exec_wclose (core queue rd sa imm s) : exec (.wclose core queue rd sa imm) s = execWclose core queue rd sa imm s := rfl
theorem exec_wwait (core queue rd sa imm s) : exec (.wwait core queue rd sa imm) s = execWwait core queue rd sa imm s := rfl
theorem exec_wwaitRelease (core queue s) : exec (.wwaitRelease core queue) s = execWwaitRelease core queue s := rfl
theorem exec_swait (core queue rd sa imm s) : exec (.swait core queue rd sa imm) s = execSwait core queue rd sa imm s := rfl
theorem exec_swaitRelease (core queue s) : exec (.swaitRelease core queue) s = execSwaitRelease core queue s := rfl
theorem exec_spost (core queue rd sa imm s) : exec (.spost core queue rd sa imm) s = execSpost core queue rd sa imm s := rfl
theorem exec_vcred (core queue rd sa sb s) : exec (.vcred core queue rd sa sb) s = execVcred core queue rd sa sb s := rfl
theorem exec_ringReq (die up hdr granules s) : exec (.ringReq die up hdr granules) s = execRingReq die up hdr granules s := rfl
theorem exec_ringData (die up hdr granules s) : exec (.ringData die up hdr granules) s = execRingData die up hdr granules s := rfl
theorem exec_ringWrite (die up hdr granules s) : exec (.ringWrite die up hdr granules) s = execRingWrite die up hdr granules s := rfl
theorem exec_ringAck (die up hdr granules s) : exec (.ringAck die up hdr granules) s = execRingAck die up hdr granules s := rfl
theorem exec_ringNak (die up hdr granules s) : exec (.ringNak die up hdr granules) s = execRingNak die up hdr granules s := rfl
theorem exec_ringCredit (die up hdr granules s) : exec (.ringCredit die up hdr granules) s = execRingCredit die up hdr granules s := rfl
theorem exec_ringIdle (die up hdr granules s) : exec (.ringIdle die up hdr granules) s = execRingIdle die up hdr granules s := rfl
theorem exec_ringReservedFlit (die up hdr granules s) :
    exec (.ringReservedFlit die up hdr granules) s = execRingReservedFlit die up hdr granules s := rfl
theorem exec_ringLinkDown (die up s) : exec (.ringLinkDown die up) s = execRingLinkDown die up s := rfl
theorem exec_ktlIdle (port frame s) : exec (.ktlIdle port frame) s = execKtlIdle port frame s := rfl
theorem exec_dataWin (port frame s) : exec (.dataWin port frame) s = execDataWin port frame s := rfl
theorem exec_dataRing (port frame s) : exec (.dataRing port frame) s = execDataRing port frame s := rfl
theorem exec_ktlCredit (port frame s) : exec (.ktlCredit port frame) s = execKtlCredit port frame s := rfl
theorem exec_done (port frame s) : exec (.done port frame) s = execDone port frame s := rfl
theorem exec_refuse (port frame s) : exec (.refuse port frame) s = execRefuse port frame s := rfl
theorem exec_echo (port frame s) : exec (.echo port frame) s = execEcho port frame s := rfl
theorem exec_echoReply (port frame s) : exec (.echoReply port frame) s = execEchoReply port frame s := rfl
theorem exec_clock (port frame s) : exec (.clock port frame) s = execClock port frame s := rfl
theorem exec_ktlNak (port frame s) : exec (.ktlNak port frame) s = execKtlNak port frame s := rfl
theorem exec_detach (port frame s) : exec (.detach port frame) s = execDetach port frame s := rfl
theorem exec_detachAck (port frame s) : exec (.detachAck port frame) s = execDetachAck port frame s := rfl
theorem exec_ident (port frame s) : exec (.ident port frame) s = execIdent port frame s := rfl
theorem exec_topo (port frame s) : exec (.topo port frame) s = execTopo port frame s := rfl
theorem exec_ktlReservedFrame (port frame s) : exec (.ktlReservedFrame port frame) s = execKtlReservedFrame port frame s := rfl
theorem exec_ktlForward (port frame s) : exec (.ktlForward port frame) s = execKtlForward port frame s := rfl
theorem exec_signalDetect (port lanes s) : exec (.signalDetect port lanes) s = execSignalDetect port lanes s := rfl
theorem exec_laneLock (port lanes inverted reversed s) :
    exec (.laneLock port lanes inverted reversed) s = execLaneLock port lanes inverted reversed s := rfl
theorem exec_identResend (port s) : exec (.identResend port) s = execIdentResend port s := rfl
theorem exec_trainTimeout (port s) : exec (.trainTimeout port) s = execTrainTimeout port s := rfl
theorem exec_identTimeout (port s) : exec (.identTimeout port) s = execIdentTimeout port s := rfl
theorem exec_lockLost (port s) : exec (.lockLost port) s = execLockLost port s := rfl
theorem exec_replayLimit (port s) : exec (.replayLimit port) s = execReplayLimit port s := rfl
theorem exec_retrainTimeout (port s) : exec (.retrainTimeout port) s = execRetrainTimeout port s := rfl
theorem exec_drainTimeout (port s) : exec (.drainTimeout port) s = execDrainTimeout port s := rfl
theorem exec_retrainHoldExpiry (port s) : exec (.retrainHoldExpiry port) s = execRetrainHoldExpiry port s := rfl
theorem exec_e2eTimeout (slot s) : exec (.e2eTimeout slot) s = execE2eTimeout slot s := rfl
theorem exec_slackCheck (slot s) : exec (.slackCheck slot) s = execSlackCheck slot s := rfl
theorem exec_deadlineMiss (slot s) : exec (.deadlineMiss slot) s = execDeadlineMiss slot s := rfl
theorem exec_leaseExpiry (s) : exec .leaseExpiry s = execLeaseExpiry s := rfl
theorem exec_graceExpiry (s) : exec .graceExpiry s = execGraceExpiry s := rfl
theorem exec_adoptionWindowExpiry (s) : exec .adoptionWindowExpiry s = execAdoptionWindowExpiry s := rfl
theorem exec_watchdogKick (proc s) : exec (.watchdogKick proc) s = execWatchdogKick proc s := rfl
theorem exec_watchdogExpiry (proc pc s) : exec (.watchdogExpiry proc pc) s = execWatchdogExpiry proc pc s := rfl
theorem exec_trap (proc pc inHandler s) : exec (.trap proc pc inHandler) s = execTrap proc pc inHandler s := rfl
theorem exec_haltWrite (proc pc s) : exec (.haltWrite proc pc) s = execHaltWrite proc pc s := rfl
theorem exec_localMemoryUe (proc pc s) : exec (.localMemoryUe proc pc) s = execLocalMemoryUe proc pc s := rfl
theorem exec_cccRestart (cluster s) : exec (.cccRestart cluster) s = execCccRestart cluster s := rfl
theorem exec_schRestart (s) : exec .schRestart s = execSchRestart s := rfl
theorem exec_pwrRestart (s) : exec .pwrRestart s = execPwrRestart s := rfl
theorem exec_secRestart (s) : exec .secRestart s = execSecRestart s := rfl
theorem exec_probationEnd (kind s) : exec (.probationEnd kind) s = execProbationEnd kind s := rfl
theorem exec_islandPowerOn (s) : exec .islandPowerOn s = execIslandPowerOn s := rfl
theorem exec_clusterIdle (cluster s) : exec (.clusterIdle cluster) s = execClusterIdle cluster s := rfl
theorem exec_stateChoice (s) : exec .stateChoice s = execStateChoice s := rfl
theorem exec_wakeStart (s) : exec .wakeStart s = execWakeStart s := rfl
theorem exec_wakeRequest (clusters dieCommonOnly s) :
    exec (.wakeRequest clusters dieCommonOnly) s = execWakeRequest clusters dieCommonOnly s := rfl
theorem exec_selfRefreshGrant (granted s) : exec (.selfRefreshGrant granted) s = execSelfRefreshGrant granted s := rfl
theorem exec_selfRefreshWithdrawn (s) : exec .selfRefreshWithdrawn s = execSelfRefreshWithdrawn s := rfl
theorem exec_powerSample (avg100us avg1ms projected busiest s) :
    exec (.powerSample avg100us avg1ms projected busiest) s = execPowerSample avg100us avg1ms projected busiest s := rfl
theorem exec_adaptation (busy stall cycles cluster s) :
    exec (.adaptation busy stall cycles cluster) s = execAdaptation busy stall cycles cluster s := rfl
theorem exec_limiterSample (cluster die island power1us s) :
    exec (.limiterSample cluster die island power1us) s = execLimiterSample cluster die island power1us s := rfl
theorem exec_scrub (stack granule flip s) : exec (.scrub stack granule flip) s = execScrub stack granule flip s := rfl
theorem exec_arrayParity (core correctable s) : exec (.arrayParity core correctable) s = execArrayParity core correctable s := rfl
theorem exec_leaseNearExpiry (s) : exec .leaseNearExpiry s = execLeaseNearExpiry s := rfl
theorem exec_stateEntryComplete (cluster s) : exec (.stateEntryComplete cluster) s = execStateEntryComplete cluster s := rfl
theorem exec_wakeComplete (s) : exec .wakeComplete s = execWakeComplete s := rfl

end Sys2Proof.Machine
end

