-- ==== Sys2Proof/Laws/Tables.lean ====
section
/-! SUPPORT. The laws of sparse tables: what a key reads after a write of a key, and that a write keeps the canonical form. -/
namespace Sys2Proof.Laws

open Sys2Proof.Machine

/-- The canonical form of a table without its first entry. -/
theorem wf_tail {α : Type} [DecidableEq α] {d : α} {e : Nat × α} {r : Table α} (h : Table.wf d (e :: r) = true) :
    Table.wf d r = true := by
  simp only [Table.wf, List.all_cons, List.pairwise_cons, Bool.and_eq_true, decide_eq_true_eq] at h ⊢
  exact ⟨h.1.2, h.2.2⟩

/-- The first key of a table in canonical form is below every later one, and its value is no default. -/
theorem wf_head {α : Type} [DecidableEq α] {d : α} {e : Nat × α} {r : Table α} (h : Table.wf d (e :: r) = true) :
    e.2 ≠ d ∧ ∀ x ∈ r, e.1 < x.1 := by
  simp only [Table.wf, List.all_cons, List.pairwise_cons, Bool.and_eq_true, decide_eq_true_eq] at h
  exact ⟨h.1.1, h.2.1⟩

/-- An entry in front of a table in canonical form. -/
theorem wf_cons {α : Type} [DecidableEq α] {d : α} {k : Nat} {v : α} {t : Table α} (h : Table.wf d t = true) (hv : v ≠ d)
    (hk : ∀ x ∈ t, k < x.1) : Table.wf d ((k, v) :: t) = true := by
  simp only [Table.wf, List.all_cons, List.pairwise_cons, Bool.and_eq_true, decide_eq_true_eq] at h ⊢
  exact ⟨⟨hv, h.1⟩, hk, h.2⟩

/-- A key below every listed one reads as the default. -/
theorem tget_below {α : Type} {d : α} {t : Table α} {k : Nat} (hk : ∀ x ∈ t, k < x.1) : tget d t k = d := by
  cases t with
  | nil => rfl
  | cons e r =>
    have := hk e (by simp)
    simp only [tget]
    rw [if_neg (by omega), if_pos this]

/-- A write adds no key but its own. -/
theorem mem_tset {α : Type} [DecidableEq α] {d : α} {t : Table α} {k : Nat} {v : α} {x : Nat × α} (h : x ∈ tset d t k v) :
    x.1 = k ∨ x ∈ t := by
  induction t with
  | nil => simp only [tset] at h; split at h <;> simp_all
  | cons e r ih =>
    obtain ⟨k', v'⟩ := e
    simp only [tset] at h
    split at h
    · split at h
      · exact .inr h
      · rcases List.mem_cons.1 h with h | h
        · exact .inl (by rw [h])
        · exact .inr h
    · split at h
      · split at h
        · exact .inr (List.mem_cons_of_mem _ h)
        · rcases List.mem_cons.1 h with h | h
          · exact .inl (by rw [h])
          · exact .inr (List.mem_cons_of_mem _ h)
      · rcases List.mem_cons.1 h with h | h
        · exact .inr (by rw [h]; simp)
        · rcases ih h with h | h
          · exact .inl h
          · exact .inr (List.mem_cons_of_mem _ h)

/-- A write keeps the canonical form. -/
theorem tset_wf {α : Type} [DecidableEq α] {d : α} {t : Table α} (k : Nat) (v : α) (h : Table.wf d t = true) :
    Table.wf d (tset d t k v) = true := by
  induction t with
  | nil => simp only [tset]; split <;> simp_all [Table.wf]
  | cons e r ih =>
    obtain ⟨hv, hr⟩ := wf_head h
    simp only [tset]
    split
    · split
      · exact h
      · refine wf_cons h ‹_› (fun x hx => ?_)
        rcases List.mem_cons.1 hx with rfl | hx
        · assumption
        · have := hr x hx; omega
    · split
      · split
        · exact wf_tail h
        · refine wf_cons (wf_tail h) ‹_› (fun x hx => ?_)
          have := hr x hx; omega
      · refine wf_cons (ih (wf_tail h)) hv (fun x hx => ?_)
        rcases mem_tset hx with hx | hx
        · omega
        · exact hr x hx

/-- What a key reads after a write. -/
theorem tget_tset {α : Type} [DecidableEq α] {d : α} {t : Table α} (k j : Nat) (v : α) (h : Table.wf d t = true) :
    tget d (tset d t k v) j = if j = k then v else tget d t j := by
  induction t with
  | nil => simp only [tset]; split <;> simp only [tget] <;> split <;> simp_all
  | cons e r ih =>
    obtain ⟨k', v'⟩ := e
    have hr := (wf_head h).2
    have ih := ih (wf_tail h)
    simp only [tset]
    split
    · split
      · split
        · subst_vars
          rw [tget_below]
          intro x hx
          rcases List.mem_cons.1 hx with rfl | hx
          · assumption
          · have := hr x hx; simp only at this; omega
        · rfl
      · simp only [tget]
        split
        · rfl
        · split
          · rw [if_neg (by omega), if_pos (by omega)]
          · rfl
    · split
      · subst_vars
        split
        · split
          · subst_vars; exact tget_below hr
          · simp only [tget]
            rw [if_neg ‹_›]
            split
            · exact tget_below (fun x hx => by have := hr x hx; simp only at this; omega)
            · rfl
        · simp only [tget]
          split <;> rfl
      · simp only [tget]
        rw [ih]
        split
        · rw [if_neg (by omega)]
        · split
          · rw [if_neg (by omega)]
          · rfl

/-- A write of a value that is no default reads back in any table. -/
theorem tget_tset_listed {α : Type} [DecidableEq α] {d : α} (t : Table α) (k j : Nat) {v : α} (hv : v ≠ d) :
    tget d (tset d t k v) j = if j = k then v else tget d t j := by
  induction t with
  | nil => simp only [tset, if_neg hv, tget]; split <;> simp_all
  | cons e r ih =>
    obtain ⟨k', v'⟩ := e
    simp only [tset, if_neg hv]
    split
    · simp only [tget]
      split
      · rfl
      · split
        · rw [if_neg (by omega), if_pos (by omega)]
        · rfl
    · split
      · subst_vars; simp only [tget]; split <;> rfl
      · simp only [tget]
        rw [ih]
        split
        · rw [if_neg (by omega)]
        · split
          · rw [if_neg (by omega)]
          · rfl

end Sys2Proof.Laws
end

