-- ==== Sys2Proof/Laws/Memory.lean ====
section
/-! SUPPORT. The laws of memories: what a byte reads after a byte is set, and that every operation that changes a memory keeps its
canonical form. -/
namespace Sys2Proof.Laws

open Sys2Proof.Machine

/-- The canonical form of a memory is that of its two tables. -/
theorem mem_wf_iff (m : Mem) :
    m.wf = true ↔ Table.wf (α := Byte) 0 m.cells = true ∧ Table.wf (α := BitVec 16) 0 m.chk = true := by
  simp only [Mem.wf, Bool.and_eq_true]

/-- An empty memory is in canonical form. -/
theorem mem_reset_wf : Mem.reset.wf = true := rfl

/-- What a byte reads after a byte is set. -/
theorem byte_setByte {m : Mem} (h : m.wf = true) (a x : Nat) (b : Byte) :
    (m.setByte a b).byte x = if x = a then b else m.byte x :=
  tget_tset a x b ((mem_wf_iff m).1 h).1

/-- Setting a byte leaves the check bits. -/
@[simp] theorem setByte_chk (m : Mem) (a : Nat) (b : Byte) : (m.setByte a b).chk = m.chk := rfl

/-- Setting a byte keeps the canonical form. -/
theorem setByte_wf {m : Mem} (h : m.wf = true) (a : Nat) (b : Byte) : (m.setByte a b).wf = true :=
  have h := (mem_wf_iff m).1 h
  (mem_wf_iff _).2 ⟨tset_wf a b h.1, h.2⟩

/-- Setting several bytes keeps the canonical form. -/
theorem setBytes_wf {m : Mem} (h : m.wf = true) (l : List Nat) (a : Nat) (f : Nat → Byte) :
    (l.foldl (fun m i => m.setByte (a + i) (f i)) m).wf = true := by
  induction l generalizing m with
  | nil => exact h
  | cons i r ih => exact ih (setByte_wf h _ _)

/-- Setting several bytes leaves the check bits. -/
theorem setBytes_chk (m : Mem) (l : List Nat) (a : Nat) (f : Nat → Byte) :
    (l.foldl (fun m i => m.setByte (a + i) (f i)) m).chk = m.chk := by
  induction l generalizing m with
  | nil => rfl
  | cons i r ih => exact ih _

/-- What a byte reads after the first `n` bytes from `a` are set. -/
theorem byte_setBytes {m : Mem} (h : m.wf = true) (n a x : Nat) (f : Nat → Byte) :
    ((List.range n).foldl (fun m i => m.setByte (a + i) (f i)) m).byte x =
      if a ≤ x ∧ x < a + n then f (x - a) else m.byte x := by
  induction n with
  | zero => rw [if_neg (by omega)]; rfl
  | succ n ih =>
    rw [List.range_succ, List.foldl_append, List.foldl_cons, List.foldl_nil, byte_setByte (setBytes_wf h _ _ _), ih]
    split
    · subst_vars; rw [if_pos (by omega)]; congr 1; omega
    · split
      · rw [if_pos (by omega)]
      · rw [if_neg (by omega)]

/-- Check bits set keep the canonical form. -/
theorem setChk_wf {m : Mem} (h : m.wf = true) (g : Nat) (x : BitVec 16) :
    Mem.wf { m with chk := tset 0 m.chk g x } = true :=
  have h := (mem_wf_iff m).1 h
  (mem_wf_iff _).2 ⟨h.1, tset_wf g x h.2⟩

/-- Storing a granule keeps the canonical form. -/
theorem setGranule_wf {m : Mem} (h : m.wf = true) (g : Nat) (x : Granule) : (m.setGranule g x).wf = true :=
  setChk_wf (setBytes_wf h _ _ _) _ _

/-- Storing a word keeps the canonical form. -/
theorem setWord_wf {m : Mem} (h : m.wf = true) (g : Nat) (w : Word128) (p : Bool) : (m.setWord g w p).wf = true :=
  setChk_wf (setBytes_wf h _ _ _) _ _

/-- The check bits are no part of a byte as stored. -/
theorem byte_setChk (m : Mem) (c : Table (BitVec 16)) (x : Nat) : Mem.byte { m with chk := c } x = m.byte x := rfl

/-- The bytes after a word is stored. -/
theorem byte_setWord {m : Mem} (h : m.wf = true) (g x : Nat) (w : Word128) (p : Bool) :
    (m.setWord g w p).byte x = if g ≤ x ∧ x < g + 16 then w.extractLsb' (8 * (x - g)) 8 else m.byte x := by
  simp only [Mem.setWord, byte_setChk]
  rw [byte_setBytes h 16 g x (fun i => w.extractLsb' (8 * i) 8)]

/-- Merging bytes into a granule keeps the canonical form. -/
theorem mergeGranule_wf {m : Mem} (h : m.wf = true) (g : Nat) (bs : List (Nat × Byte)) (p : Bool) :
    (m.mergeGranule g bs p).wf = true := by
  unfold Mem.mergeGranule
  exact setWord_wf h _ _ _

/-- Writing a run of bytes keeps the canonical form. -/
theorem write_wf {m : Mem} (h : m.wf = true) (a : Nat) (bs : List Byte) (p : Bool) : (m.write a bs p).wf = true := by
  have fold : ∀ (l : List (Nat × List (Nat × Byte))) (m : Mem), m.wf = true →
      (l.foldl (fun m e => m.mergeGranule e.1 e.2 p) m).wf = true := by
    intro l
    induction l with
    | nil => exact fun _ h => h
    | cons e r ih =>
      intro m h
      rw [List.foldl_cons]
      exact ih _ (mergeGranule_wf h e.1 e.2 p)
  unfold Mem.write
  split
  · exact h
  · exact fold (granuleShares a bs) m h

end Sys2Proof.Laws
end

