-- ==== Sys2Proof/Laws/Ops.lean ====
section
/-! SUPPORT. What each shared operation can change, said once: every other field of the state stands. -/
namespace Sys2Proof.Laws

open Sys2Proof.Machine

/-- Keys dropped from a table in canonical form keep it. -/
theorem dropKeys_wf {α : Type} [DecidableEq α] {d : α} (lo hi : Nat) {t : Table α} (h : Table.wf d t = true) :
    Table.wf d (dropKeys lo hi t) = true := by
  simp only [Table.wf, dropKeys, Bool.and_eq_true, List.all_eq_true, decide_eq_true_eq, List.mem_filter] at h ⊢
  exact ⟨fun e he => h.1 e he.1, decide_eq_true (h.2.filter _)⟩

/-- What a key reads after a range of keys is dropped. -/
theorem tget_dropKeys {α : Type} [DecidableEq α] {d : α} (lo hi : Nat) {t : Table α} (h : Table.wf d t = true) (j : Nat) :
    tget d (dropKeys lo hi t) j = if lo ≤ j ∧ j < hi then d else tget d t j := by
  induction t with
  | nil => simp [dropKeys, tget]
  | cons e r ih =>
    obtain ⟨k, v⟩ := e
    have ih := ih (wf_tail h)
    have hr := (wf_head h).2
    simp only [dropKeys] at ih
    simp only [dropKeys, List.filter_cons, decide_eq_true_eq]
    split
    · simp only [tget]
      rw [ih]
      split
      · subst_vars; rw [if_neg (by omega)]
      · split
        · split <;> rfl
        · rfl
    · rw [ih]
      split
      · rfl
      · simp only [tget]
        rw [if_neg (by omega)]
        split
        · exact tget_below (fun x hx => by have := hr x hx; simp only at this; omega)
        · rfl

/-- Two states that differ in the RAS unit alone. -/
def RasOnly (s t : State) : Prop := ∃ x, t = { s with ras := x }

/-- A state differs from itself in nothing. -/
theorem RasOnly.refl (s : State) : RasOnly s s := ⟨s.ras, rfl⟩

/-- One change of the RAS unit after another. -/
theorem RasOnly.trans {a b c : State} (h : RasOnly a b) (g : RasOnly b c) : RasOnly a c := by
  obtain ⟨x, rfl⟩ := h
  obtain ⟨y, rfl⟩ := g
  exact ⟨y, rfl⟩

/-- A record stored changes the RAS unit alone. -/
theorem storeErr_frame (s : State) (r : ErrRecord) : RasOnly s (storeErr s r) := by
  unfold storeErr
  split <;> exact ⟨_, rfl⟩

/-- A record given to its handler changes the RAS unit alone. -/
theorem fileRecord_frame (s : State) (x : Detected) (h flags parent : Nat) : RasOnly s (fileRecord s x h flags parent).1 := by
  simp only [fileRecord]
  split <;> exact (storeErr_frame s _).trans ⟨_, rfl⟩

/-- An escalation changes the RAS unit alone. -/
theorem escalate_frame (fuel : Nat) : ∀ (s : State) (h : Nat), RasOnly s (escalate fuel s h) := by
  induction fuel with
  | zero => exact fun s _ => RasOnly.refl s
  | succ n ih =>
    intro s h
    have go (t : State) (a : ErrArgs) (g p : Nat) (ht : RasOnly s t) :
        RasOnly s (if (fileRecord (countErr t a.source 2) (detect t a 0) g 16 p).2 then
            escalate n (fileRecord (countErr t a.source 2) (detect t a 0) g 16 p).1 g
          else (fileRecord (countErr t a.source 2) (detect t a 0) g 16 p).1) := by
      have hf := (ht.trans ⟨_, rfl⟩).trans (fileRecord_frame (countErr t a.source 2) (detect t a 0) g 16 p)
      split
      · exact hf.trans (ih _ _)
      · exact hf
    simp only [escalate]
    exact go _ _ _ _ (by split <;> exact ⟨_, rfl⟩)

/-- A record handed on changes the RAS unit alone. -/
theorem handRecord_frame (s : State) (x : Detected) : RasOnly s (handRecord s x) := by
  have go (f h : Nat) : RasOnly s (if (fileRecord s x h f 0).2 then escalate 3 (fileRecord s x h f 0).1 h else (fileRecord s x h f 0).1) := by
    split
    · exact (fileRecord_frame _ _ _ _ _).trans (escalate_frame _ _ _)
    · exact fileRecord_frame _ _ _ _ _
  exact go _ _

/-- A record detected changes the RAS unit alone. -/
theorem passOn_frame (s : State) (x : Detected) : RasOnly s (passOn s x) := by
  unfold passOn
  split
  · exact ⟨_, rfl⟩
  · exact handRecord_frame _ _

/-- A further occurrence of a coalesced cause changes the RAS unit alone. -/
theorem takeOccurrence_frame {s t : State} {a : ErrArgs} (h : takeOccurrence s a = some t) : RasOnly s t := by
  unfold takeOccurrence at h
  dsimp only at h
  split at h
  · cases h; exact ⟨_, rfl⟩
  · split at h
    · cases h; exact ⟨_, rfl⟩
    · cases h

/-- An error report changes the RAS unit; the device state and the lease's timer stand still or halt for a FATAL record alone (R372,
R411). -/
theorem report_frame (s : State) (a : ErrArgs) :
    ∃ r d l, report s a = { s with ras := r, dev := d, lease := l } ∧ (causeSeverity a.cause ≠ 3 → d = s.dev ∧ l = s.lease) := by
  have key : ∀ t, RasOnly s t →
      ∃ r d l, (if causeSeverity a.cause = 3 then halt t else t) = { s with ras := r, dev := d, lease := l } ∧
        (causeSeverity a.cause ≠ 3 → d = s.dev ∧ l = s.lease) := by
    rintro t ⟨x, rfl⟩
    split
    · exact ⟨x, .fwHalt, _, rfl, fun h => absurd ‹_› h⟩
    · exact ⟨x, s.dev, s.lease, rfl, fun _ => ⟨rfl, rfl⟩⟩
  have hc : RasOnly s (countErr s a.source (causeSeverity a.cause)) := ⟨_, rfl⟩
  unfold report
  dsimp only
  split
  · obtain ⟨x, hx⟩ := hc.trans (takeOccurrence_frame ‹_›)
    exact ⟨x, s.dev, s.lease, hx, fun _ => ⟨rfl, rfl⟩⟩
  · refine key _ ?_
    split <;> split <;> exact (hc.trans (passOn_frame _ _)).trans ⟨_, rfl⟩

/-- The log writer changes the log, and its place in the firmware region of physical memory (R381). -/
theorem logWrite_frame (n : Nat) (s : State) : ∃ l p, logWrite n s = { s with log := l, pmem := p } := by
  induction n generalizing s with
  | zero => exact ⟨_, _, rfl⟩
  | succ n ih =>
    unfold logWrite
    split
    · exact ⟨_, _, rfl⟩
    · obtain ⟨l, p, h⟩ := ih _
      exact ⟨l, p, h⟩

/-- A log record changes the log, and its place in the firmware region of physical memory (R381). -/
theorem logAdd_frame (s : State) (kind source traceId : Nat) (payload : List Byte) :
    ∃ l p, logAdd s kind source traceId payload = { s with log := l, pmem := p } := by
  unfold logAdd
  split
  · obtain ⟨l, p, h⟩ := logWrite_frame _ _
    exact ⟨l, p, h⟩
  · exact ⟨_, _, rfl⟩

/-- A TRACE record changes the log, its place in memory, and the number of the next free value (R384). -/
theorem traceRecord_frame (s : State) (writer id : Nat) :
    ∃ l p f, traceRecord s writer id = { s with log := l, pmem := p, freeCtr := f } := by
  unfold traceRecord
  obtain ⟨l, p, h⟩ := logAdd_frame { s with freeCtr := s.freeCtr + 5 } 0x0100 writer id _
  exact ⟨l, p, _, h⟩

/-- What trace points change: the log, its place in memory, and the number of the next free value (R384). -/
theorem traceRepeat_frame (writer id n : Nat) (s : State) :
    ∃ l p f, Nat.repeat (fun s => traceRecord s writer id) n s = { s with log := l, pmem := p, freeCtr := f } := by
  induction n with
  | zero => exact ⟨_, _, _, rfl⟩
  | succ n ih =>
    obtain ⟨l, p, f, h⟩ := ih
    obtain ⟨l', p', f', h'⟩ := traceRecord_frame { s with log := l, pmem := p, freeCtr := f } writer id
    refine ⟨l', p', f', ?_⟩
    rw [Nat.repeat, h, h']

/-- A trace point changes the log, its place in memory, and the number of the next free value (R384). -/
theorem traceFire_frame (s : State) (base reg n : Nat) :
    ∃ l p f, traceFire s base reg n = { s with log := l, pmem := p, freeCtr := f } := by
  unfold traceFire
  split
  · exact ⟨_, _, _, rfl⟩
  · simp only
    split
    · exact traceRepeat_frame _ _ n s
    · exact ⟨_, _, _, rfl⟩

/-- A count of an event counter changes the counters, and what its trace point changes (R70, R384). -/
theorem bump_frame (s : State) (base reg n : Nat) :
    ∃ c l p f, bump s base reg n = { s with counters := c, log := l, pmem := p, freeCtr := f } := by
  unfold bump
  split
  · exact ⟨_, _, _, _, rfl⟩
  · obtain ⟨l, p, f, h⟩ := traceFire_frame
      { s with counters := tset 0 s.counters (base + reg) (satCount (ctrReg s (base + reg)) n) } base reg n
    exact ⟨_, l, p, f, h⟩

/-- An interim status changes its slot and its command's note of it (R311). -/
theorem interim_frame (s : State) (k : Nat) :
    ∃ h c, interim s k = { s with host := h, cmds := c } := by
  unfold interim
  split <;> exact ⟨_, _, rfl⟩

/-- A written slot reads back; the others stand (R308). -/
theorem slotAt_setSlot {s : State} (h : Table.wf 0 s.host.slots = true) (k j : Nat) (p : SlotWord) :
    slotAt (setSlot s k p) j = if j = k then p else slotAt s j :=
  tget_tset k j p h

/-- A processor that is given a state, and not the one of reset, has it; the others stand. -/
theorem procOf_setProc (s : State) (i j : Nat) {p : Proc} (h : p ≠ Proc.reset) :
    procOf (setProc s i p) j = if j = i then p else procOf s j :=
  tget_tset_listed _ i j h

end Sys2Proof.Laws
end

