-- ==== Sys2Proof/Laws/State.lean ====
section
/-! SUPPORT. What an update of one part of the state leaves: one lemma per field, true by `rfl`, so that no proof unfolds a record
update. -/
namespace Sys2Proof.Laws

open Sys2Proof.Machine

/-! ### `setSlot` changes `host` alone -/

@[simp] theorem setSlot_now (s : State) (k : Nat) (p : SlotWord) : (setSlot s k p).now = s.now := rfl
@[simp] theorem setSlot_dev (s : State) (k : Nat) (p : SlotWord) : (setSlot s k p).dev = s.dev := rfl
@[simp] theorem setSlot_cfg (s : State) (k : Nat) (p : SlotWord) : (setSlot s k p).cfg = s.cfg := rfl
@[simp] theorem setSlot_sessions (s : State) (k : Nat) (p : SlotWord) : (setSlot s k p).sessions = s.sessions := rfl
@[simp] theorem setSlot_lease (s : State) (k : Nat) (p : SlotWord) : (setSlot s k p).lease = s.lease := rfl
@[simp] theorem setSlot_cmds (s : State) (k : Nat) (p : SlotWord) : (setSlot s k p).cmds = s.cmds := rfl
@[simp] theorem setSlot_admitSeq (s : State) (k : Nat) (p : SlotWord) : (setSlot s k p).admitSeq = s.admitSeq := rfl
@[simp] theorem setSlot_shares (s : State) (k : Nat) (p : SlotWord) : (setSlot s k p).shares = s.shares := rfl
@[simp] theorem setSlot_ras (s : State) (k : Nat) (p : SlotWord) : (setSlot s k p).ras = s.ras := rfl
@[simp] theorem setSlot_log (s : State) (k : Nat) (p : SlotWord) : (setSlot s k p).log = s.log := rfl
@[simp] theorem setSlot_fw (s : State) (k : Nat) (p : SlotWord) : (setSlot s k p).fw = s.fw := rfl
@[simp] theorem setSlot_pwr (s : State) (k : Nat) (p : SlotWord) : (setSlot s k p).pwr = s.pwr := rfl
@[simp] theorem setSlot_xlt (s : State) (k : Nat) (p : SlotWord) : (setSlot s k p).xlt = s.xlt := rfl
@[simp] theorem setSlot_pgk (s : State) (k : Nat) (p : SlotWord) : (setSlot s k p).pgk = s.pgk := rfl
@[simp] theorem setSlot_spad (s : State) (k : Nat) (p : SlotWord) : (setSlot s k p).spad = s.spad := rfl
@[simp] theorem setSlot_str (s : State) (k : Nat) (p : SlotWord) : (setSlot s k p).str = s.str := rfl
@[simp] theorem setSlot_upd (s : State) (k : Nat) (p : SlotWord) : (setSlot s k p).upd = s.upd := rfl
@[simp] theorem setSlot_ktl (s : State) (k : Nat) (p : SlotWord) : (setSlot s k p).ktl = s.ktl := rfl
@[simp] theorem setSlot_ring (s : State) (k : Nat) (p : SlotWord) : (setSlot s k p).ring = s.ring := rfl
@[simp] theorem setSlot_counters (s : State) (k : Nat) (p : SlotWord) : (setSlot s k p).counters = s.counters := rfl
@[simp] theorem setSlot_pmem (s : State) (k : Nat) (p : SlotWord) : (setSlot s k p).pmem = s.pmem := rfl
@[simp] theorem setSlot_hostMem (s : State) (k : Nat) (p : SlotWord) : (setSlot s k p).hostMem = s.hostMem := rfl
@[simp] theorem setSlot_freeCtr (s : State) (k : Nat) (p : SlotWord) : (setSlot s k p).freeCtr = s.freeCtr := rfl
@[simp] theorem setSlot_pending (s : State) (k : Nat) (p : SlotWord) : (setSlot s k p).pending = s.pending := rfl

/-! ### `discardWrite` changes `host` alone -/

@[simp] theorem discardWrite_now (s : State) : (discardWrite s).now = s.now := rfl
@[simp] theorem discardWrite_dev (s : State) : (discardWrite s).dev = s.dev := rfl
@[simp] theorem discardWrite_cfg (s : State) : (discardWrite s).cfg = s.cfg := rfl
@[simp] theorem discardWrite_sessions (s : State) : (discardWrite s).sessions = s.sessions := rfl
@[simp] theorem discardWrite_lease (s : State) : (discardWrite s).lease = s.lease := rfl
@[simp] theorem discardWrite_cmds (s : State) : (discardWrite s).cmds = s.cmds := rfl
@[simp] theorem discardWrite_admitSeq (s : State) : (discardWrite s).admitSeq = s.admitSeq := rfl
@[simp] theorem discardWrite_shares (s : State) : (discardWrite s).shares = s.shares := rfl
@[simp] theorem discardWrite_ras (s : State) : (discardWrite s).ras = s.ras := rfl
@[simp] theorem discardWrite_log (s : State) : (discardWrite s).log = s.log := rfl
@[simp] theorem discardWrite_fw (s : State) : (discardWrite s).fw = s.fw := rfl
@[simp] theorem discardWrite_pwr (s : State) : (discardWrite s).pwr = s.pwr := rfl
@[simp] theorem discardWrite_xlt (s : State) : (discardWrite s).xlt = s.xlt := rfl
@[simp] theorem discardWrite_pgk (s : State) : (discardWrite s).pgk = s.pgk := rfl
@[simp] theorem discardWrite_spad (s : State) : (discardWrite s).spad = s.spad := rfl
@[simp] theorem discardWrite_str (s : State) : (discardWrite s).str = s.str := rfl
@[simp] theorem discardWrite_upd (s : State) : (discardWrite s).upd = s.upd := rfl
@[simp] theorem discardWrite_ktl (s : State) : (discardWrite s).ktl = s.ktl := rfl
@[simp] theorem discardWrite_ring (s : State) : (discardWrite s).ring = s.ring := rfl
@[simp] theorem discardWrite_counters (s : State) : (discardWrite s).counters = s.counters := rfl
@[simp] theorem discardWrite_pmem (s : State) : (discardWrite s).pmem = s.pmem := rfl
@[simp] theorem discardWrite_hostMem (s : State) : (discardWrite s).hostMem = s.hostMem := rfl
@[simp] theorem discardWrite_freeCtr (s : State) : (discardWrite s).freeCtr = s.freeCtr := rfl
@[simp] theorem discardWrite_pending (s : State) : (discardWrite s).pending = s.pending := rfl

/-! ### `setTap` changes `host` alone -/

@[simp] theorem setTap_now (s : State) (ir : BitVec 2) (dr : SlotWord) : (setTap s ir dr).now = s.now := rfl
@[simp] theorem setTap_dev (s : State) (ir : BitVec 2) (dr : SlotWord) : (setTap s ir dr).dev = s.dev := rfl
@[simp] theorem setTap_cfg (s : State) (ir : BitVec 2) (dr : SlotWord) : (setTap s ir dr).cfg = s.cfg := rfl
@[simp] theorem setTap_sessions (s : State) (ir : BitVec 2) (dr : SlotWord) : (setTap s ir dr).sessions = s.sessions := rfl
@[simp] theorem setTap_lease (s : State) (ir : BitVec 2) (dr : SlotWord) : (setTap s ir dr).lease = s.lease := rfl
@[simp] theorem setTap_cmds (s : State) (ir : BitVec 2) (dr : SlotWord) : (setTap s ir dr).cmds = s.cmds := rfl
@[simp] theorem setTap_admitSeq (s : State) (ir : BitVec 2) (dr : SlotWord) : (setTap s ir dr).admitSeq = s.admitSeq := rfl
@[simp] theorem setTap_shares (s : State) (ir : BitVec 2) (dr : SlotWord) : (setTap s ir dr).shares = s.shares := rfl
@[simp] theorem setTap_ras (s : State) (ir : BitVec 2) (dr : SlotWord) : (setTap s ir dr).ras = s.ras := rfl
@[simp] theorem setTap_log (s : State) (ir : BitVec 2) (dr : SlotWord) : (setTap s ir dr).log = s.log := rfl
@[simp] theorem setTap_fw (s : State) (ir : BitVec 2) (dr : SlotWord) : (setTap s ir dr).fw = s.fw := rfl
@[simp] theorem setTap_pwr (s : State) (ir : BitVec 2) (dr : SlotWord) : (setTap s ir dr).pwr = s.pwr := rfl
@[simp] theorem setTap_xlt (s : State) (ir : BitVec 2) (dr : SlotWord) : (setTap s ir dr).xlt = s.xlt := rfl
@[simp] theorem setTap_pgk (s : State) (ir : BitVec 2) (dr : SlotWord) : (setTap s ir dr).pgk = s.pgk := rfl
@[simp] theorem setTap_spad (s : State) (ir : BitVec 2) (dr : SlotWord) : (setTap s ir dr).spad = s.spad := rfl
@[simp] theorem setTap_str (s : State) (ir : BitVec 2) (dr : SlotWord) : (setTap s ir dr).str = s.str := rfl
@[simp] theorem setTap_upd (s : State) (ir : BitVec 2) (dr : SlotWord) : (setTap s ir dr).upd = s.upd := rfl
@[simp] theorem setTap_ktl (s : State) (ir : BitVec 2) (dr : SlotWord) : (setTap s ir dr).ktl = s.ktl := rfl
@[simp] theorem setTap_ring (s : State) (ir : BitVec 2) (dr : SlotWord) : (setTap s ir dr).ring = s.ring := rfl
@[simp] theorem setTap_counters (s : State) (ir : BitVec 2) (dr : SlotWord) : (setTap s ir dr).counters = s.counters := rfl
@[simp] theorem setTap_pmem (s : State) (ir : BitVec 2) (dr : SlotWord) : (setTap s ir dr).pmem = s.pmem := rfl
@[simp] theorem setTap_hostMem (s : State) (ir : BitVec 2) (dr : SlotWord) : (setTap s ir dr).hostMem = s.hostMem := rfl
@[simp] theorem setTap_freeCtr (s : State) (ir : BitVec 2) (dr : SlotWord) : (setTap s ir dr).freeCtr = s.freeCtr := rfl
@[simp] theorem setTap_pending (s : State) (ir : BitVec 2) (dr : SlotWord) : (setTap s ir dr).pending = s.pending := rfl

/-! ### `updCmd` changes `cmds` alone -/

@[simp] theorem updCmd_now (s : State) (k : Nat) (f : Cmd → Cmd) : (updCmd s k f).now = s.now := rfl
@[simp] theorem updCmd_dev (s : State) (k : Nat) (f : Cmd → Cmd) : (updCmd s k f).dev = s.dev := rfl
@[simp] theorem updCmd_host (s : State) (k : Nat) (f : Cmd → Cmd) : (updCmd s k f).host = s.host := rfl
@[simp] theorem updCmd_cfg (s : State) (k : Nat) (f : Cmd → Cmd) : (updCmd s k f).cfg = s.cfg := rfl
@[simp] theorem updCmd_sessions (s : State) (k : Nat) (f : Cmd → Cmd) : (updCmd s k f).sessions = s.sessions := rfl
@[simp] theorem updCmd_lease (s : State) (k : Nat) (f : Cmd → Cmd) : (updCmd s k f).lease = s.lease := rfl
@[simp] theorem updCmd_admitSeq (s : State) (k : Nat) (f : Cmd → Cmd) : (updCmd s k f).admitSeq = s.admitSeq := rfl
@[simp] theorem updCmd_shares (s : State) (k : Nat) (f : Cmd → Cmd) : (updCmd s k f).shares = s.shares := rfl
@[simp] theorem updCmd_ras (s : State) (k : Nat) (f : Cmd → Cmd) : (updCmd s k f).ras = s.ras := rfl
@[simp] theorem updCmd_log (s : State) (k : Nat) (f : Cmd → Cmd) : (updCmd s k f).log = s.log := rfl
@[simp] theorem updCmd_fw (s : State) (k : Nat) (f : Cmd → Cmd) : (updCmd s k f).fw = s.fw := rfl
@[simp] theorem updCmd_pwr (s : State) (k : Nat) (f : Cmd → Cmd) : (updCmd s k f).pwr = s.pwr := rfl
@[simp] theorem updCmd_xlt (s : State) (k : Nat) (f : Cmd → Cmd) : (updCmd s k f).xlt = s.xlt := rfl
@[simp] theorem updCmd_pgk (s : State) (k : Nat) (f : Cmd → Cmd) : (updCmd s k f).pgk = s.pgk := rfl
@[simp] theorem updCmd_spad (s : State) (k : Nat) (f : Cmd → Cmd) : (updCmd s k f).spad = s.spad := rfl
@[simp] theorem updCmd_str (s : State) (k : Nat) (f : Cmd → Cmd) : (updCmd s k f).str = s.str := rfl
@[simp] theorem updCmd_upd (s : State) (k : Nat) (f : Cmd → Cmd) : (updCmd s k f).upd = s.upd := rfl
@[simp] theorem updCmd_ktl (s : State) (k : Nat) (f : Cmd → Cmd) : (updCmd s k f).ktl = s.ktl := rfl
@[simp] theorem updCmd_ring (s : State) (k : Nat) (f : Cmd → Cmd) : (updCmd s k f).ring = s.ring := rfl
@[simp] theorem updCmd_counters (s : State) (k : Nat) (f : Cmd → Cmd) : (updCmd s k f).counters = s.counters := rfl
@[simp] theorem updCmd_pmem (s : State) (k : Nat) (f : Cmd → Cmd) : (updCmd s k f).pmem = s.pmem := rfl
@[simp] theorem updCmd_hostMem (s : State) (k : Nat) (f : Cmd → Cmd) : (updCmd s k f).hostMem = s.hostMem := rfl
@[simp] theorem updCmd_freeCtr (s : State) (k : Nat) (f : Cmd → Cmd) : (updCmd s k f).freeCtr = s.freeCtr := rfl
@[simp] theorem updCmd_pending (s : State) (k : Nat) (f : Cmd → Cmd) : (updCmd s k f).pending = s.pending := rfl

/-! ### `setSession` changes `sessions` alone -/

@[simp] theorem setSession_now (s : State) (i : Nat) (e : Session) : (setSession s i e).now = s.now := rfl
@[simp] theorem setSession_dev (s : State) (i : Nat) (e : Session) : (setSession s i e).dev = s.dev := rfl
@[simp] theorem setSession_host (s : State) (i : Nat) (e : Session) : (setSession s i e).host = s.host := rfl
@[simp] theorem setSession_cfg (s : State) (i : Nat) (e : Session) : (setSession s i e).cfg = s.cfg := rfl
@[simp] theorem setSession_lease (s : State) (i : Nat) (e : Session) : (setSession s i e).lease = s.lease := rfl
@[simp] theorem setSession_cmds (s : State) (i : Nat) (e : Session) : (setSession s i e).cmds = s.cmds := rfl
@[simp] theorem setSession_admitSeq (s : State) (i : Nat) (e : Session) : (setSession s i e).admitSeq = s.admitSeq := rfl
@[simp] theorem setSession_shares (s : State) (i : Nat) (e : Session) : (setSession s i e).shares = s.shares := rfl
@[simp] theorem setSession_ras (s : State) (i : Nat) (e : Session) : (setSession s i e).ras = s.ras := rfl
@[simp] theorem setSession_log (s : State) (i : Nat) (e : Session) : (setSession s i e).log = s.log := rfl
@[simp] theorem setSession_fw (s : State) (i : Nat) (e : Session) : (setSession s i e).fw = s.fw := rfl
@[simp] theorem setSession_pwr (s : State) (i : Nat) (e : Session) : (setSession s i e).pwr = s.pwr := rfl
@[simp] theorem setSession_xlt (s : State) (i : Nat) (e : Session) : (setSession s i e).xlt = s.xlt := rfl
@[simp] theorem setSession_pgk (s : State) (i : Nat) (e : Session) : (setSession s i e).pgk = s.pgk := rfl
@[simp] theorem setSession_spad (s : State) (i : Nat) (e : Session) : (setSession s i e).spad = s.spad := rfl
@[simp] theorem setSession_str (s : State) (i : Nat) (e : Session) : (setSession s i e).str = s.str := rfl
@[simp] theorem setSession_upd (s : State) (i : Nat) (e : Session) : (setSession s i e).upd = s.upd := rfl
@[simp] theorem setSession_ktl (s : State) (i : Nat) (e : Session) : (setSession s i e).ktl = s.ktl := rfl
@[simp] theorem setSession_ring (s : State) (i : Nat) (e : Session) : (setSession s i e).ring = s.ring := rfl
@[simp] theorem setSession_counters (s : State) (i : Nat) (e : Session) : (setSession s i e).counters = s.counters := rfl
@[simp] theorem setSession_pmem (s : State) (i : Nat) (e : Session) : (setSession s i e).pmem = s.pmem := rfl
@[simp] theorem setSession_hostMem (s : State) (i : Nat) (e : Session) : (setSession s i e).hostMem = s.hostMem := rfl
@[simp] theorem setSession_freeCtr (s : State) (i : Nat) (e : Session) : (setSession s i e).freeCtr = s.freeCtr := rfl
@[simp] theorem setSession_pending (s : State) (i : Nat) (e : Session) : (setSession s i e).pending = s.pending := rfl

/-! ### `fenceSource` changes `ras` alone -/

@[simp] theorem fenceSource_now (s : State) (source : Nat) : (fenceSource s source).now = s.now := rfl
@[simp] theorem fenceSource_dev (s : State) (source : Nat) : (fenceSource s source).dev = s.dev := rfl
@[simp] theorem fenceSource_host (s : State) (source : Nat) : (fenceSource s source).host = s.host := rfl
@[simp] theorem fenceSource_cfg (s : State) (source : Nat) : (fenceSource s source).cfg = s.cfg := rfl
@[simp] theorem fenceSource_sessions (s : State) (source : Nat) : (fenceSource s source).sessions = s.sessions := rfl
@[simp] theorem fenceSource_lease (s : State) (source : Nat) : (fenceSource s source).lease = s.lease := rfl
@[simp] theorem fenceSource_cmds (s : State) (source : Nat) : (fenceSource s source).cmds = s.cmds := rfl
@[simp] theorem fenceSource_admitSeq (s : State) (source : Nat) : (fenceSource s source).admitSeq = s.admitSeq := rfl
@[simp] theorem fenceSource_shares (s : State) (source : Nat) : (fenceSource s source).shares = s.shares := rfl
@[simp] theorem fenceSource_log (s : State) (source : Nat) : (fenceSource s source).log = s.log := rfl
@[simp] theorem fenceSource_fw (s : State) (source : Nat) : (fenceSource s source).fw = s.fw := rfl
@[simp] theorem fenceSource_pwr (s : State) (source : Nat) : (fenceSource s source).pwr = s.pwr := rfl
@[simp] theorem fenceSource_xlt (s : State) (source : Nat) : (fenceSource s source).xlt = s.xlt := rfl
@[simp] theorem fenceSource_pgk (s : State) (source : Nat) : (fenceSource s source).pgk = s.pgk := rfl
@[simp] theorem fenceSource_spad (s : State) (source : Nat) : (fenceSource s source).spad = s.spad := rfl
@[simp] theorem fenceSource_str (s : State) (source : Nat) : (fenceSource s source).str = s.str := rfl
@[simp] theorem fenceSource_upd (s : State) (source : Nat) : (fenceSource s source).upd = s.upd := rfl
@[simp] theorem fenceSource_ktl (s : State) (source : Nat) : (fenceSource s source).ktl = s.ktl := rfl
@[simp] theorem fenceSource_ring (s : State) (source : Nat) : (fenceSource s source).ring = s.ring := rfl
@[simp] theorem fenceSource_counters (s : State) (source : Nat) : (fenceSource s source).counters = s.counters := rfl
@[simp] theorem fenceSource_pmem (s : State) (source : Nat) : (fenceSource s source).pmem = s.pmem := rfl
@[simp] theorem fenceSource_hostMem (s : State) (source : Nat) : (fenceSource s source).hostMem = s.hostMem := rfl
@[simp] theorem fenceSource_freeCtr (s : State) (source : Nat) : (fenceSource s source).freeCtr = s.freeCtr := rfl
@[simp] theorem fenceSource_pending (s : State) (source : Nat) : (fenceSource s source).pending = s.pending := rfl

/-! ### `countErr` changes `ras` alone -/

@[simp] theorem countErr_now (s : State) (source sev : Nat) : (countErr s source sev).now = s.now := rfl
@[simp] theorem countErr_dev (s : State) (source sev : Nat) : (countErr s source sev).dev = s.dev := rfl
@[simp] theorem countErr_host (s : State) (source sev : Nat) : (countErr s source sev).host = s.host := rfl
@[simp] theorem countErr_cfg (s : State) (source sev : Nat) : (countErr s source sev).cfg = s.cfg := rfl
@[simp] theorem countErr_sessions (s : State) (source sev : Nat) : (countErr s source sev).sessions = s.sessions := rfl
@[simp] theorem countErr_lease (s : State) (source sev : Nat) : (countErr s source sev).lease = s.lease := rfl
@[simp] theorem countErr_cmds (s : State) (source sev : Nat) : (countErr s source sev).cmds = s.cmds := rfl
@[simp] theorem countErr_admitSeq (s : State) (source sev : Nat) : (countErr s source sev).admitSeq = s.admitSeq := rfl
@[simp] theorem countErr_shares (s : State) (source sev : Nat) : (countErr s source sev).shares = s.shares := rfl
@[simp] theorem countErr_log (s : State) (source sev : Nat) : (countErr s source sev).log = s.log := rfl
@[simp] theorem countErr_fw (s : State) (source sev : Nat) : (countErr s source sev).fw = s.fw := rfl
@[simp] theorem countErr_pwr (s : State) (source sev : Nat) : (countErr s source sev).pwr = s.pwr := rfl
@[simp] theorem countErr_xlt (s : State) (source sev : Nat) : (countErr s source sev).xlt = s.xlt := rfl
@[simp] theorem countErr_pgk (s : State) (source sev : Nat) : (countErr s source sev).pgk = s.pgk := rfl
@[simp] theorem countErr_spad (s : State) (source sev : Nat) : (countErr s source sev).spad = s.spad := rfl
@[simp] theorem countErr_str (s : State) (source sev : Nat) : (countErr s source sev).str = s.str := rfl
@[simp] theorem countErr_upd (s : State) (source sev : Nat) : (countErr s source sev).upd = s.upd := rfl
@[simp] theorem countErr_ktl (s : State) (source sev : Nat) : (countErr s source sev).ktl = s.ktl := rfl
@[simp] theorem countErr_ring (s : State) (source sev : Nat) : (countErr s source sev).ring = s.ring := rfl
@[simp] theorem countErr_counters (s : State) (source sev : Nat) : (countErr s source sev).counters = s.counters := rfl
@[simp] theorem countErr_pmem (s : State) (source sev : Nat) : (countErr s source sev).pmem = s.pmem := rfl
@[simp] theorem countErr_hostMem (s : State) (source sev : Nat) : (countErr s source sev).hostMem = s.hostMem := rfl
@[simp] theorem countErr_freeCtr (s : State) (source sev : Nat) : (countErr s source sev).freeCtr = s.freeCtr := rfl
@[simp] theorem countErr_pending (s : State) (source sev : Nat) : (countErr s source sev).pending = s.pending := rfl

/-! ### `setProc` changes `fw` alone -/

@[simp] theorem setProc_now (s : State) (i : Nat) (p : Proc) : (setProc s i p).now = s.now := rfl
@[simp] theorem setProc_dev (s : State) (i : Nat) (p : Proc) : (setProc s i p).dev = s.dev := rfl
@[simp] theorem setProc_host (s : State) (i : Nat) (p : Proc) : (setProc s i p).host = s.host := rfl
@[simp] theorem setProc_cfg (s : State) (i : Nat) (p : Proc) : (setProc s i p).cfg = s.cfg := rfl
@[simp] theorem setProc_sessions (s : State) (i : Nat) (p : Proc) : (setProc s i p).sessions = s.sessions := rfl
@[simp] theorem setProc_lease (s : State) (i : Nat) (p : Proc) : (setProc s i p).lease = s.lease := rfl
@[simp] theorem setProc_cmds (s : State) (i : Nat) (p : Proc) : (setProc s i p).cmds = s.cmds := rfl
@[simp] theorem setProc_admitSeq (s : State) (i : Nat) (p : Proc) : (setProc s i p).admitSeq = s.admitSeq := rfl
@[simp] theorem setProc_shares (s : State) (i : Nat) (p : Proc) : (setProc s i p).shares = s.shares := rfl
@[simp] theorem setProc_ras (s : State) (i : Nat) (p : Proc) : (setProc s i p).ras = s.ras := rfl
@[simp] theorem setProc_log (s : State) (i : Nat) (p : Proc) : (setProc s i p).log = s.log := rfl
@[simp] theorem setProc_pwr (s : State) (i : Nat) (p : Proc) : (setProc s i p).pwr = s.pwr := rfl
@[simp] theorem setProc_xlt (s : State) (i : Nat) (p : Proc) : (setProc s i p).xlt = s.xlt := rfl
@[simp] theorem setProc_pgk (s : State) (i : Nat) (p : Proc) : (setProc s i p).pgk = s.pgk := rfl
@[simp] theorem setProc_spad (s : State) (i : Nat) (p : Proc) : (setProc s i p).spad = s.spad := rfl
@[simp] theorem setProc_str (s : State) (i : Nat) (p : Proc) : (setProc s i p).str = s.str := rfl
@[simp] theorem setProc_upd (s : State) (i : Nat) (p : Proc) : (setProc s i p).upd = s.upd := rfl
@[simp] theorem setProc_ktl (s : State) (i : Nat) (p : Proc) : (setProc s i p).ktl = s.ktl := rfl
@[simp] theorem setProc_ring (s : State) (i : Nat) (p : Proc) : (setProc s i p).ring = s.ring := rfl
@[simp] theorem setProc_counters (s : State) (i : Nat) (p : Proc) : (setProc s i p).counters = s.counters := rfl
@[simp] theorem setProc_pmem (s : State) (i : Nat) (p : Proc) : (setProc s i p).pmem = s.pmem := rfl
@[simp] theorem setProc_hostMem (s : State) (i : Nat) (p : Proc) : (setProc s i p).hostMem = s.hostMem := rfl
@[simp] theorem setProc_freeCtr (s : State) (i : Nat) (p : Proc) : (setProc s i p).freeCtr = s.freeCtr := rfl
@[simp] theorem setProc_pending (s : State) (i : Nat) (p : Proc) : (setProc s i p).pending = s.pending := rfl

/-! ### `setImage` changes `fw` alone -/

@[simp] theorem setImage_now (s : State) (kind bank : Nat) (m : Image) : (setImage s kind bank m).now = s.now := rfl
@[simp] theorem setImage_dev (s : State) (kind bank : Nat) (m : Image) : (setImage s kind bank m).dev = s.dev := rfl
@[simp] theorem setImage_host (s : State) (kind bank : Nat) (m : Image) : (setImage s kind bank m).host = s.host := rfl
@[simp] theorem setImage_cfg (s : State) (kind bank : Nat) (m : Image) : (setImage s kind bank m).cfg = s.cfg := rfl
@[simp] theorem setImage_sessions (s : State) (kind bank : Nat) (m : Image) : (setImage s kind bank m).sessions = s.sessions := rfl
@[simp] theorem setImage_lease (s : State) (kind bank : Nat) (m : Image) : (setImage s kind bank m).lease = s.lease := rfl
@[simp] theorem setImage_cmds (s : State) (kind bank : Nat) (m : Image) : (setImage s kind bank m).cmds = s.cmds := rfl
@[simp] theorem setImage_admitSeq (s : State) (kind bank : Nat) (m : Image) : (setImage s kind bank m).admitSeq = s.admitSeq := rfl
@[simp] theorem setImage_shares (s : State) (kind bank : Nat) (m : Image) : (setImage s kind bank m).shares = s.shares := rfl
@[simp] theorem setImage_ras (s : State) (kind bank : Nat) (m : Image) : (setImage s kind bank m).ras = s.ras := rfl
@[simp] theorem setImage_log (s : State) (kind bank : Nat) (m : Image) : (setImage s kind bank m).log = s.log := rfl
@[simp] theorem setImage_pwr (s : State) (kind bank : Nat) (m : Image) : (setImage s kind bank m).pwr = s.pwr := rfl
@[simp] theorem setImage_xlt (s : State) (kind bank : Nat) (m : Image) : (setImage s kind bank m).xlt = s.xlt := rfl
@[simp] theorem setImage_pgk (s : State) (kind bank : Nat) (m : Image) : (setImage s kind bank m).pgk = s.pgk := rfl
@[simp] theorem setImage_spad (s : State) (kind bank : Nat) (m : Image) : (setImage s kind bank m).spad = s.spad := rfl
@[simp] theorem setImage_str (s : State) (kind bank : Nat) (m : Image) : (setImage s kind bank m).str = s.str := rfl
@[simp] theorem setImage_upd (s : State) (kind bank : Nat) (m : Image) : (setImage s kind bank m).upd = s.upd := rfl
@[simp] theorem setImage_ktl (s : State) (kind bank : Nat) (m : Image) : (setImage s kind bank m).ktl = s.ktl := rfl
@[simp] theorem setImage_ring (s : State) (kind bank : Nat) (m : Image) : (setImage s kind bank m).ring = s.ring := rfl
@[simp] theorem setImage_counters (s : State) (kind bank : Nat) (m : Image) : (setImage s kind bank m).counters = s.counters := rfl
@[simp] theorem setImage_pmem (s : State) (kind bank : Nat) (m : Image) : (setImage s kind bank m).pmem = s.pmem := rfl
@[simp] theorem setImage_hostMem (s : State) (kind bank : Nat) (m : Image) : (setImage s kind bank m).hostMem = s.hostMem := rfl
@[simp] theorem setImage_freeCtr (s : State) (kind bank : Nat) (m : Image) : (setImage s kind bank m).freeCtr = s.freeCtr := rfl
@[simp] theorem setImage_pending (s : State) (kind bank : Nat) (m : Image) : (setImage s kind bank m).pending = s.pending := rfl

/-! ### `setCluster` changes `pwr` alone -/

@[simp] theorem setCluster_now (s : State) (g : Nat) (c : ClusterPower) : (setCluster s g c).now = s.now := rfl
@[simp] theorem setCluster_dev (s : State) (g : Nat) (c : ClusterPower) : (setCluster s g c).dev = s.dev := rfl
@[simp] theorem setCluster_host (s : State) (g : Nat) (c : ClusterPower) : (setCluster s g c).host = s.host := rfl
@[simp] theorem setCluster_cfg (s : State) (g : Nat) (c : ClusterPower) : (setCluster s g c).cfg = s.cfg := rfl
@[simp] theorem setCluster_sessions (s : State) (g : Nat) (c : ClusterPower) : (setCluster s g c).sessions = s.sessions := rfl
@[simp] theorem setCluster_lease (s : State) (g : Nat) (c : ClusterPower) : (setCluster s g c).lease = s.lease := rfl
@[simp] theorem setCluster_cmds (s : State) (g : Nat) (c : ClusterPower) : (setCluster s g c).cmds = s.cmds := rfl
@[simp] theorem setCluster_admitSeq (s : State) (g : Nat) (c : ClusterPower) : (setCluster s g c).admitSeq = s.admitSeq := rfl
@[simp] theorem setCluster_shares (s : State) (g : Nat) (c : ClusterPower) : (setCluster s g c).shares = s.shares := rfl
@[simp] theorem setCluster_ras (s : State) (g : Nat) (c : ClusterPower) : (setCluster s g c).ras = s.ras := rfl
@[simp] theorem setCluster_log (s : State) (g : Nat) (c : ClusterPower) : (setCluster s g c).log = s.log := rfl
@[simp] theorem setCluster_fw (s : State) (g : Nat) (c : ClusterPower) : (setCluster s g c).fw = s.fw := rfl
@[simp] theorem setCluster_xlt (s : State) (g : Nat) (c : ClusterPower) : (setCluster s g c).xlt = s.xlt := rfl
@[simp] theorem setCluster_pgk (s : State) (g : Nat) (c : ClusterPower) : (setCluster s g c).pgk = s.pgk := rfl
@[simp] theorem setCluster_spad (s : State) (g : Nat) (c : ClusterPower) : (setCluster s g c).spad = s.spad := rfl
@[simp] theorem setCluster_str (s : State) (g : Nat) (c : ClusterPower) : (setCluster s g c).str = s.str := rfl
@[simp] theorem setCluster_upd (s : State) (g : Nat) (c : ClusterPower) : (setCluster s g c).upd = s.upd := rfl
@[simp] theorem setCluster_ktl (s : State) (g : Nat) (c : ClusterPower) : (setCluster s g c).ktl = s.ktl := rfl
@[simp] theorem setCluster_ring (s : State) (g : Nat) (c : ClusterPower) : (setCluster s g c).ring = s.ring := rfl
@[simp] theorem setCluster_counters (s : State) (g : Nat) (c : ClusterPower) : (setCluster s g c).counters = s.counters := rfl
@[simp] theorem setCluster_pmem (s : State) (g : Nat) (c : ClusterPower) : (setCluster s g c).pmem = s.pmem := rfl
@[simp] theorem setCluster_hostMem (s : State) (g : Nat) (c : ClusterPower) : (setCluster s g c).hostMem = s.hostMem := rfl
@[simp] theorem setCluster_freeCtr (s : State) (g : Nat) (c : ClusterPower) : (setCluster s g c).freeCtr = s.freeCtr := rfl
@[simp] theorem setCluster_pending (s : State) (g : Nat) (c : ClusterPower) : (setCluster s g c).pending = s.pending := rfl

/-! ### `setHint` changes `pwr` alone -/

@[simp] theorem setHint_now (s : State) (i : Nat) (h : Option Hint) : (setHint s i h).now = s.now := rfl
@[simp] theorem setHint_dev (s : State) (i : Nat) (h : Option Hint) : (setHint s i h).dev = s.dev := rfl
@[simp] theorem setHint_host (s : State) (i : Nat) (h : Option Hint) : (setHint s i h).host = s.host := rfl
@[simp] theorem setHint_cfg (s : State) (i : Nat) (h : Option Hint) : (setHint s i h).cfg = s.cfg := rfl
@[simp] theorem setHint_sessions (s : State) (i : Nat) (h : Option Hint) : (setHint s i h).sessions = s.sessions := rfl
@[simp] theorem setHint_lease (s : State) (i : Nat) (h : Option Hint) : (setHint s i h).lease = s.lease := rfl
@[simp] theorem setHint_cmds (s : State) (i : Nat) (h : Option Hint) : (setHint s i h).cmds = s.cmds := rfl
@[simp] theorem setHint_admitSeq (s : State) (i : Nat) (h : Option Hint) : (setHint s i h).admitSeq = s.admitSeq := rfl
@[simp] theorem setHint_shares (s : State) (i : Nat) (h : Option Hint) : (setHint s i h).shares = s.shares := rfl
@[simp] theorem setHint_ras (s : State) (i : Nat) (h : Option Hint) : (setHint s i h).ras = s.ras := rfl
@[simp] theorem setHint_log (s : State) (i : Nat) (h : Option Hint) : (setHint s i h).log = s.log := rfl
@[simp] theorem setHint_fw (s : State) (i : Nat) (h : Option Hint) : (setHint s i h).fw = s.fw := rfl
@[simp] theorem setHint_xlt (s : State) (i : Nat) (h : Option Hint) : (setHint s i h).xlt = s.xlt := rfl
@[simp] theorem setHint_pgk (s : State) (i : Nat) (h : Option Hint) : (setHint s i h).pgk = s.pgk := rfl
@[simp] theorem setHint_spad (s : State) (i : Nat) (h : Option Hint) : (setHint s i h).spad = s.spad := rfl
@[simp] theorem setHint_str (s : State) (i : Nat) (h : Option Hint) : (setHint s i h).str = s.str := rfl
@[simp] theorem setHint_upd (s : State) (i : Nat) (h : Option Hint) : (setHint s i h).upd = s.upd := rfl
@[simp] theorem setHint_ktl (s : State) (i : Nat) (h : Option Hint) : (setHint s i h).ktl = s.ktl := rfl
@[simp] theorem setHint_ring (s : State) (i : Nat) (h : Option Hint) : (setHint s i h).ring = s.ring := rfl
@[simp] theorem setHint_counters (s : State) (i : Nat) (h : Option Hint) : (setHint s i h).counters = s.counters := rfl
@[simp] theorem setHint_pmem (s : State) (i : Nat) (h : Option Hint) : (setHint s i h).pmem = s.pmem := rfl
@[simp] theorem setHint_hostMem (s : State) (i : Nat) (h : Option Hint) : (setHint s i h).hostMem = s.hostMem := rfl
@[simp] theorem setHint_freeCtr (s : State) (i : Nat) (h : Option Hint) : (setHint s i h).freeCtr = s.freeCtr := rfl
@[simp] theorem setHint_pending (s : State) (i : Nat) (h : Option Hint) : (setHint s i h).pending = s.pending := rfl

/-! ### `setPend` changes `xlt` alone -/

@[simp] theorem setPend_now (s : State) (die i : Nat) (p : Option PendEntry) : (setPend s die i p).now = s.now := rfl
@[simp] theorem setPend_dev (s : State) (die i : Nat) (p : Option PendEntry) : (setPend s die i p).dev = s.dev := rfl
@[simp] theorem setPend_host (s : State) (die i : Nat) (p : Option PendEntry) : (setPend s die i p).host = s.host := rfl
@[simp] theorem setPend_cfg (s : State) (die i : Nat) (p : Option PendEntry) : (setPend s die i p).cfg = s.cfg := rfl
@[simp] theorem setPend_sessions (s : State) (die i : Nat) (p : Option PendEntry) : (setPend s die i p).sessions = s.sessions := rfl
@[simp] theorem setPend_lease (s : State) (die i : Nat) (p : Option PendEntry) : (setPend s die i p).lease = s.lease := rfl
@[simp] theorem setPend_cmds (s : State) (die i : Nat) (p : Option PendEntry) : (setPend s die i p).cmds = s.cmds := rfl
@[simp] theorem setPend_admitSeq (s : State) (die i : Nat) (p : Option PendEntry) : (setPend s die i p).admitSeq = s.admitSeq := rfl
@[simp] theorem setPend_shares (s : State) (die i : Nat) (p : Option PendEntry) : (setPend s die i p).shares = s.shares := rfl
@[simp] theorem setPend_ras (s : State) (die i : Nat) (p : Option PendEntry) : (setPend s die i p).ras = s.ras := rfl
@[simp] theorem setPend_log (s : State) (die i : Nat) (p : Option PendEntry) : (setPend s die i p).log = s.log := rfl
@[simp] theorem setPend_fw (s : State) (die i : Nat) (p : Option PendEntry) : (setPend s die i p).fw = s.fw := rfl
@[simp] theorem setPend_pwr (s : State) (die i : Nat) (p : Option PendEntry) : (setPend s die i p).pwr = s.pwr := rfl
@[simp] theorem setPend_pgk (s : State) (die i : Nat) (p : Option PendEntry) : (setPend s die i p).pgk = s.pgk := rfl
@[simp] theorem setPend_spad (s : State) (die i : Nat) (p : Option PendEntry) : (setPend s die i p).spad = s.spad := rfl
@[simp] theorem setPend_str (s : State) (die i : Nat) (p : Option PendEntry) : (setPend s die i p).str = s.str := rfl
@[simp] theorem setPend_upd (s : State) (die i : Nat) (p : Option PendEntry) : (setPend s die i p).upd = s.upd := rfl
@[simp] theorem setPend_ktl (s : State) (die i : Nat) (p : Option PendEntry) : (setPend s die i p).ktl = s.ktl := rfl
@[simp] theorem setPend_ring (s : State) (die i : Nat) (p : Option PendEntry) : (setPend s die i p).ring = s.ring := rfl
@[simp] theorem setPend_counters (s : State) (die i : Nat) (p : Option PendEntry) : (setPend s die i p).counters = s.counters := rfl
@[simp] theorem setPend_pmem (s : State) (die i : Nat) (p : Option PendEntry) : (setPend s die i p).pmem = s.pmem := rfl
@[simp] theorem setPend_hostMem (s : State) (die i : Nat) (p : Option PendEntry) : (setPend s die i p).hostMem = s.hostMem := rfl
@[simp] theorem setPend_freeCtr (s : State) (die i : Nat) (p : Option PendEntry) : (setPend s die i p).freeCtr = s.freeCtr := rfl
@[simp] theorem setPend_pending (s : State) (die i : Nat) (p : Option PendEntry) : (setPend s die i p).pending = s.pending := rfl

/-! ### `setMiss` changes `xlt` alone -/

@[simp] theorem setMiss_now (s : State) (die i : Nat) (m : Option MissEntry) : (setMiss s die i m).now = s.now := rfl
@[simp] theorem setMiss_dev (s : State) (die i : Nat) (m : Option MissEntry) : (setMiss s die i m).dev = s.dev := rfl
@[simp] theorem setMiss_host (s : State) (die i : Nat) (m : Option MissEntry) : (setMiss s die i m).host = s.host := rfl
@[simp] theorem setMiss_cfg (s : State) (die i : Nat) (m : Option MissEntry) : (setMiss s die i m).cfg = s.cfg := rfl
@[simp] theorem setMiss_sessions (s : State) (die i : Nat) (m : Option MissEntry) : (setMiss s die i m).sessions = s.sessions := rfl
@[simp] theorem setMiss_lease (s : State) (die i : Nat) (m : Option MissEntry) : (setMiss s die i m).lease = s.lease := rfl
@[simp] theorem setMiss_cmds (s : State) (die i : Nat) (m : Option MissEntry) : (setMiss s die i m).cmds = s.cmds := rfl
@[simp] theorem setMiss_admitSeq (s : State) (die i : Nat) (m : Option MissEntry) : (setMiss s die i m).admitSeq = s.admitSeq := rfl
@[simp] theorem setMiss_shares (s : State) (die i : Nat) (m : Option MissEntry) : (setMiss s die i m).shares = s.shares := rfl
@[simp] theorem setMiss_ras (s : State) (die i : Nat) (m : Option MissEntry) : (setMiss s die i m).ras = s.ras := rfl
@[simp] theorem setMiss_log (s : State) (die i : Nat) (m : Option MissEntry) : (setMiss s die i m).log = s.log := rfl
@[simp] theorem setMiss_fw (s : State) (die i : Nat) (m : Option MissEntry) : (setMiss s die i m).fw = s.fw := rfl
@[simp] theorem setMiss_pwr (s : State) (die i : Nat) (m : Option MissEntry) : (setMiss s die i m).pwr = s.pwr := rfl
@[simp] theorem setMiss_pgk (s : State) (die i : Nat) (m : Option MissEntry) : (setMiss s die i m).pgk = s.pgk := rfl
@[simp] theorem setMiss_spad (s : State) (die i : Nat) (m : Option MissEntry) : (setMiss s die i m).spad = s.spad := rfl
@[simp] theorem setMiss_str (s : State) (die i : Nat) (m : Option MissEntry) : (setMiss s die i m).str = s.str := rfl
@[simp] theorem setMiss_upd (s : State) (die i : Nat) (m : Option MissEntry) : (setMiss s die i m).upd = s.upd := rfl
@[simp] theorem setMiss_ktl (s : State) (die i : Nat) (m : Option MissEntry) : (setMiss s die i m).ktl = s.ktl := rfl
@[simp] theorem setMiss_ring (s : State) (die i : Nat) (m : Option MissEntry) : (setMiss s die i m).ring = s.ring := rfl
@[simp] theorem setMiss_counters (s : State) (die i : Nat) (m : Option MissEntry) : (setMiss s die i m).counters = s.counters := rfl
@[simp] theorem setMiss_pmem (s : State) (die i : Nat) (m : Option MissEntry) : (setMiss s die i m).pmem = s.pmem := rfl
@[simp] theorem setMiss_hostMem (s : State) (die i : Nat) (m : Option MissEntry) : (setMiss s die i m).hostMem = s.hostMem := rfl
@[simp] theorem setMiss_freeCtr (s : State) (die i : Nat) (m : Option MissEntry) : (setMiss s die i m).freeCtr = s.freeCtr := rfl
@[simp] theorem setMiss_pending (s : State) (die i : Nat) (m : Option MissEntry) : (setMiss s die i m).pending = s.pending := rfl

/-! ### `setFar` changes `xlt` alone -/

@[simp] theorem setFar_now (s : State) (m : Nat) (f : FarModule) : (setFar s m f).now = s.now := rfl
@[simp] theorem setFar_dev (s : State) (m : Nat) (f : FarModule) : (setFar s m f).dev = s.dev := rfl
@[simp] theorem setFar_host (s : State) (m : Nat) (f : FarModule) : (setFar s m f).host = s.host := rfl
@[simp] theorem setFar_cfg (s : State) (m : Nat) (f : FarModule) : (setFar s m f).cfg = s.cfg := rfl
@[simp] theorem setFar_sessions (s : State) (m : Nat) (f : FarModule) : (setFar s m f).sessions = s.sessions := rfl
@[simp] theorem setFar_lease (s : State) (m : Nat) (f : FarModule) : (setFar s m f).lease = s.lease := rfl
@[simp] theorem setFar_cmds (s : State) (m : Nat) (f : FarModule) : (setFar s m f).cmds = s.cmds := rfl
@[simp] theorem setFar_admitSeq (s : State) (m : Nat) (f : FarModule) : (setFar s m f).admitSeq = s.admitSeq := rfl
@[simp] theorem setFar_shares (s : State) (m : Nat) (f : FarModule) : (setFar s m f).shares = s.shares := rfl
@[simp] theorem setFar_ras (s : State) (m : Nat) (f : FarModule) : (setFar s m f).ras = s.ras := rfl
@[simp] theorem setFar_log (s : State) (m : Nat) (f : FarModule) : (setFar s m f).log = s.log := rfl
@[simp] theorem setFar_fw (s : State) (m : Nat) (f : FarModule) : (setFar s m f).fw = s.fw := rfl
@[simp] theorem setFar_pwr (s : State) (m : Nat) (f : FarModule) : (setFar s m f).pwr = s.pwr := rfl
@[simp] theorem setFar_pgk (s : State) (m : Nat) (f : FarModule) : (setFar s m f).pgk = s.pgk := rfl
@[simp] theorem setFar_spad (s : State) (m : Nat) (f : FarModule) : (setFar s m f).spad = s.spad := rfl
@[simp] theorem setFar_str (s : State) (m : Nat) (f : FarModule) : (setFar s m f).str = s.str := rfl
@[simp] theorem setFar_upd (s : State) (m : Nat) (f : FarModule) : (setFar s m f).upd = s.upd := rfl
@[simp] theorem setFar_ktl (s : State) (m : Nat) (f : FarModule) : (setFar s m f).ktl = s.ktl := rfl
@[simp] theorem setFar_ring (s : State) (m : Nat) (f : FarModule) : (setFar s m f).ring = s.ring := rfl
@[simp] theorem setFar_counters (s : State) (m : Nat) (f : FarModule) : (setFar s m f).counters = s.counters := rfl
@[simp] theorem setFar_pmem (s : State) (m : Nat) (f : FarModule) : (setFar s m f).pmem = s.pmem := rfl
@[simp] theorem setFar_hostMem (s : State) (m : Nat) (f : FarModule) : (setFar s m f).hostMem = s.hostMem := rfl
@[simp] theorem setFar_freeCtr (s : State) (m : Nat) (f : FarModule) : (setFar s m f).freeCtr = s.freeCtr := rfl
@[simp] theorem setFar_pending (s : State) (m : Nat) (f : FarModule) : (setFar s m f).pending = s.pending := rfl

/-! ### `updPools` changes `pgk` alone -/

@[simp] theorem updPools_now (s : State) (d : Nat) (f : Pools → Pools) : (updPools s d f).now = s.now := rfl
@[simp] theorem updPools_dev (s : State) (d : Nat) (f : Pools → Pools) : (updPools s d f).dev = s.dev := rfl
@[simp] theorem updPools_host (s : State) (d : Nat) (f : Pools → Pools) : (updPools s d f).host = s.host := rfl
@[simp] theorem updPools_cfg (s : State) (d : Nat) (f : Pools → Pools) : (updPools s d f).cfg = s.cfg := rfl
@[simp] theorem updPools_sessions (s : State) (d : Nat) (f : Pools → Pools) : (updPools s d f).sessions = s.sessions := rfl
@[simp] theorem updPools_lease (s : State) (d : Nat) (f : Pools → Pools) : (updPools s d f).lease = s.lease := rfl
@[simp] theorem updPools_cmds (s : State) (d : Nat) (f : Pools → Pools) : (updPools s d f).cmds = s.cmds := rfl
@[simp] theorem updPools_admitSeq (s : State) (d : Nat) (f : Pools → Pools) : (updPools s d f).admitSeq = s.admitSeq := rfl
@[simp] theorem updPools_shares (s : State) (d : Nat) (f : Pools → Pools) : (updPools s d f).shares = s.shares := rfl
@[simp] theorem updPools_ras (s : State) (d : Nat) (f : Pools → Pools) : (updPools s d f).ras = s.ras := rfl
@[simp] theorem updPools_log (s : State) (d : Nat) (f : Pools → Pools) : (updPools s d f).log = s.log := rfl
@[simp] theorem updPools_fw (s : State) (d : Nat) (f : Pools → Pools) : (updPools s d f).fw = s.fw := rfl
@[simp] theorem updPools_pwr (s : State) (d : Nat) (f : Pools → Pools) : (updPools s d f).pwr = s.pwr := rfl
@[simp] theorem updPools_xlt (s : State) (d : Nat) (f : Pools → Pools) : (updPools s d f).xlt = s.xlt := rfl
@[simp] theorem updPools_spad (s : State) (d : Nat) (f : Pools → Pools) : (updPools s d f).spad = s.spad := rfl
@[simp] theorem updPools_str (s : State) (d : Nat) (f : Pools → Pools) : (updPools s d f).str = s.str := rfl
@[simp] theorem updPools_upd (s : State) (d : Nat) (f : Pools → Pools) : (updPools s d f).upd = s.upd := rfl
@[simp] theorem updPools_ktl (s : State) (d : Nat) (f : Pools → Pools) : (updPools s d f).ktl = s.ktl := rfl
@[simp] theorem updPools_ring (s : State) (d : Nat) (f : Pools → Pools) : (updPools s d f).ring = s.ring := rfl
@[simp] theorem updPools_counters (s : State) (d : Nat) (f : Pools → Pools) : (updPools s d f).counters = s.counters := rfl
@[simp] theorem updPools_pmem (s : State) (d : Nat) (f : Pools → Pools) : (updPools s d f).pmem = s.pmem := rfl
@[simp] theorem updPools_hostMem (s : State) (d : Nat) (f : Pools → Pools) : (updPools s d f).hostMem = s.hostMem := rfl
@[simp] theorem updPools_freeCtr (s : State) (d : Nat) (f : Pools → Pools) : (updPools s d f).freeCtr = s.freeCtr := rfl
@[simp] theorem updPools_pending (s : State) (d : Nat) (f : Pools → Pools) : (updPools s d f).pending = s.pending := rfl

/-! ### `setTags` changes `spad` alone -/

@[simp] theorem setTags_now (s : State) (core g n : Nat) (full : Bool) : (setTags s core g n full).now = s.now := rfl
@[simp] theorem setTags_dev (s : State) (core g n : Nat) (full : Bool) : (setTags s core g n full).dev = s.dev := rfl
@[simp] theorem setTags_host (s : State) (core g n : Nat) (full : Bool) : (setTags s core g n full).host = s.host := rfl
@[simp] theorem setTags_cfg (s : State) (core g n : Nat) (full : Bool) : (setTags s core g n full).cfg = s.cfg := rfl
@[simp] theorem setTags_sessions (s : State) (core g n : Nat) (full : Bool) : (setTags s core g n full).sessions = s.sessions := rfl
@[simp] theorem setTags_lease (s : State) (core g n : Nat) (full : Bool) : (setTags s core g n full).lease = s.lease := rfl
@[simp] theorem setTags_cmds (s : State) (core g n : Nat) (full : Bool) : (setTags s core g n full).cmds = s.cmds := rfl
@[simp] theorem setTags_admitSeq (s : State) (core g n : Nat) (full : Bool) : (setTags s core g n full).admitSeq = s.admitSeq := rfl
@[simp] theorem setTags_shares (s : State) (core g n : Nat) (full : Bool) : (setTags s core g n full).shares = s.shares := rfl
@[simp] theorem setTags_ras (s : State) (core g n : Nat) (full : Bool) : (setTags s core g n full).ras = s.ras := rfl
@[simp] theorem setTags_log (s : State) (core g n : Nat) (full : Bool) : (setTags s core g n full).log = s.log := rfl
@[simp] theorem setTags_fw (s : State) (core g n : Nat) (full : Bool) : (setTags s core g n full).fw = s.fw := rfl
@[simp] theorem setTags_pwr (s : State) (core g n : Nat) (full : Bool) : (setTags s core g n full).pwr = s.pwr := rfl
@[simp] theorem setTags_xlt (s : State) (core g n : Nat) (full : Bool) : (setTags s core g n full).xlt = s.xlt := rfl
@[simp] theorem setTags_pgk (s : State) (core g n : Nat) (full : Bool) : (setTags s core g n full).pgk = s.pgk := rfl
@[simp] theorem setTags_str (s : State) (core g n : Nat) (full : Bool) : (setTags s core g n full).str = s.str := rfl
@[simp] theorem setTags_upd (s : State) (core g n : Nat) (full : Bool) : (setTags s core g n full).upd = s.upd := rfl
@[simp] theorem setTags_ktl (s : State) (core g n : Nat) (full : Bool) : (setTags s core g n full).ktl = s.ktl := rfl
@[simp] theorem setTags_ring (s : State) (core g n : Nat) (full : Bool) : (setTags s core g n full).ring = s.ring := rfl
@[simp] theorem setTags_counters (s : State) (core g n : Nat) (full : Bool) : (setTags s core g n full).counters = s.counters := rfl
@[simp] theorem setTags_pmem (s : State) (core g n : Nat) (full : Bool) : (setTags s core g n full).pmem = s.pmem := rfl
@[simp] theorem setTags_hostMem (s : State) (core g n : Nat) (full : Bool) : (setTags s core g n full).hostMem = s.hostMem := rfl
@[simp] theorem setTags_freeCtr (s : State) (core g n : Nat) (full : Bool) : (setTags s core g n full).freeCtr = s.freeCtr := rfl
@[simp] theorem setTags_pending (s : State) (core g n : Nat) (full : Bool) : (setTags s core g n full).pending = s.pending := rfl

/-! ### `setArrival` changes `spad` alone -/

@[simp] theorem setArrival_now (s : State) (core c : Nat) (a : ArrivalCounter) : (setArrival s core c a).now = s.now := rfl
@[simp] theorem setArrival_dev (s : State) (core c : Nat) (a : ArrivalCounter) : (setArrival s core c a).dev = s.dev := rfl
@[simp] theorem setArrival_host (s : State) (core c : Nat) (a : ArrivalCounter) : (setArrival s core c a).host = s.host := rfl
@[simp] theorem setArrival_cfg (s : State) (core c : Nat) (a : ArrivalCounter) : (setArrival s core c a).cfg = s.cfg := rfl
@[simp] theorem setArrival_sessions (s : State) (core c : Nat) (a : ArrivalCounter) : (setArrival s core c a).sessions = s.sessions := rfl
@[simp] theorem setArrival_lease (s : State) (core c : Nat) (a : ArrivalCounter) : (setArrival s core c a).lease = s.lease := rfl
@[simp] theorem setArrival_cmds (s : State) (core c : Nat) (a : ArrivalCounter) : (setArrival s core c a).cmds = s.cmds := rfl
@[simp] theorem setArrival_admitSeq (s : State) (core c : Nat) (a : ArrivalCounter) : (setArrival s core c a).admitSeq = s.admitSeq := rfl
@[simp] theorem setArrival_shares (s : State) (core c : Nat) (a : ArrivalCounter) : (setArrival s core c a).shares = s.shares := rfl
@[simp] theorem setArrival_ras (s : State) (core c : Nat) (a : ArrivalCounter) : (setArrival s core c a).ras = s.ras := rfl
@[simp] theorem setArrival_log (s : State) (core c : Nat) (a : ArrivalCounter) : (setArrival s core c a).log = s.log := rfl
@[simp] theorem setArrival_fw (s : State) (core c : Nat) (a : ArrivalCounter) : (setArrival s core c a).fw = s.fw := rfl
@[simp] theorem setArrival_pwr (s : State) (core c : Nat) (a : ArrivalCounter) : (setArrival s core c a).pwr = s.pwr := rfl
@[simp] theorem setArrival_xlt (s : State) (core c : Nat) (a : ArrivalCounter) : (setArrival s core c a).xlt = s.xlt := rfl
@[simp] theorem setArrival_pgk (s : State) (core c : Nat) (a : ArrivalCounter) : (setArrival s core c a).pgk = s.pgk := rfl
@[simp] theorem setArrival_str (s : State) (core c : Nat) (a : ArrivalCounter) : (setArrival s core c a).str = s.str := rfl
@[simp] theorem setArrival_upd (s : State) (core c : Nat) (a : ArrivalCounter) : (setArrival s core c a).upd = s.upd := rfl
@[simp] theorem setArrival_ktl (s : State) (core c : Nat) (a : ArrivalCounter) : (setArrival s core c a).ktl = s.ktl := rfl
@[simp] theorem setArrival_ring (s : State) (core c : Nat) (a : ArrivalCounter) : (setArrival s core c a).ring = s.ring := rfl
@[simp] theorem setArrival_counters (s : State) (core c : Nat) (a : ArrivalCounter) : (setArrival s core c a).counters = s.counters := rfl
@[simp] theorem setArrival_pmem (s : State) (core c : Nat) (a : ArrivalCounter) : (setArrival s core c a).pmem = s.pmem := rfl
@[simp] theorem setArrival_hostMem (s : State) (core c : Nat) (a : ArrivalCounter) : (setArrival s core c a).hostMem = s.hostMem := rfl
@[simp] theorem setArrival_freeCtr (s : State) (core c : Nat) (a : ArrivalCounter) : (setArrival s core c a).freeCtr = s.freeCtr := rfl
@[simp] theorem setArrival_pending (s : State) (core c : Nat) (a : ArrivalCounter) : (setArrival s core c a).pending = s.pending := rfl

/-! ### `setWindow` changes `spad` alone -/

@[simp] theorem setWindow_now (s : State) (core w : Nat) (x : Window) : (setWindow s core w x).now = s.now := rfl
@[simp] theorem setWindow_dev (s : State) (core w : Nat) (x : Window) : (setWindow s core w x).dev = s.dev := rfl
@[simp] theorem setWindow_host (s : State) (core w : Nat) (x : Window) : (setWindow s core w x).host = s.host := rfl
@[simp] theorem setWindow_cfg (s : State) (core w : Nat) (x : Window) : (setWindow s core w x).cfg = s.cfg := rfl
@[simp] theorem setWindow_sessions (s : State) (core w : Nat) (x : Window) : (setWindow s core w x).sessions = s.sessions := rfl
@[simp] theorem setWindow_lease (s : State) (core w : Nat) (x : Window) : (setWindow s core w x).lease = s.lease := rfl
@[simp] theorem setWindow_cmds (s : State) (core w : Nat) (x : Window) : (setWindow s core w x).cmds = s.cmds := rfl
@[simp] theorem setWindow_admitSeq (s : State) (core w : Nat) (x : Window) : (setWindow s core w x).admitSeq = s.admitSeq := rfl
@[simp] theorem setWindow_shares (s : State) (core w : Nat) (x : Window) : (setWindow s core w x).shares = s.shares := rfl
@[simp] theorem setWindow_ras (s : State) (core w : Nat) (x : Window) : (setWindow s core w x).ras = s.ras := rfl
@[simp] theorem setWindow_log (s : State) (core w : Nat) (x : Window) : (setWindow s core w x).log = s.log := rfl
@[simp] theorem setWindow_fw (s : State) (core w : Nat) (x : Window) : (setWindow s core w x).fw = s.fw := rfl
@[simp] theorem setWindow_pwr (s : State) (core w : Nat) (x : Window) : (setWindow s core w x).pwr = s.pwr := rfl
@[simp] theorem setWindow_xlt (s : State) (core w : Nat) (x : Window) : (setWindow s core w x).xlt = s.xlt := rfl
@[simp] theorem setWindow_pgk (s : State) (core w : Nat) (x : Window) : (setWindow s core w x).pgk = s.pgk := rfl
@[simp] theorem setWindow_str (s : State) (core w : Nat) (x : Window) : (setWindow s core w x).str = s.str := rfl
@[simp] theorem setWindow_upd (s : State) (core w : Nat) (x : Window) : (setWindow s core w x).upd = s.upd := rfl
@[simp] theorem setWindow_ktl (s : State) (core w : Nat) (x : Window) : (setWindow s core w x).ktl = s.ktl := rfl
@[simp] theorem setWindow_ring (s : State) (core w : Nat) (x : Window) : (setWindow s core w x).ring = s.ring := rfl
@[simp] theorem setWindow_counters (s : State) (core w : Nat) (x : Window) : (setWindow s core w x).counters = s.counters := rfl
@[simp] theorem setWindow_pmem (s : State) (core w : Nat) (x : Window) : (setWindow s core w x).pmem = s.pmem := rfl
@[simp] theorem setWindow_hostMem (s : State) (core w : Nat) (x : Window) : (setWindow s core w x).hostMem = s.hostMem := rfl
@[simp] theorem setWindow_freeCtr (s : State) (core w : Nat) (x : Window) : (setWindow s core w x).freeCtr = s.freeCtr := rfl
@[simp] theorem setWindow_pending (s : State) (core w : Nat) (x : Window) : (setWindow s core w x).pending = s.pending := rfl

/-! ### `setSem` changes `spad` alone -/

@[simp] theorem setSem_now (s : State) (core p : Nat) (x : SemPair) : (setSem s core p x).now = s.now := rfl
@[simp] theorem setSem_dev (s : State) (core p : Nat) (x : SemPair) : (setSem s core p x).dev = s.dev := rfl
@[simp] theorem setSem_host (s : State) (core p : Nat) (x : SemPair) : (setSem s core p x).host = s.host := rfl
@[simp] theorem setSem_cfg (s : State) (core p : Nat) (x : SemPair) : (setSem s core p x).cfg = s.cfg := rfl
@[simp] theorem setSem_sessions (s : State) (core p : Nat) (x : SemPair) : (setSem s core p x).sessions = s.sessions := rfl
@[simp] theorem setSem_lease (s : State) (core p : Nat) (x : SemPair) : (setSem s core p x).lease = s.lease := rfl
@[simp] theorem setSem_cmds (s : State) (core p : Nat) (x : SemPair) : (setSem s core p x).cmds = s.cmds := rfl
@[simp] theorem setSem_admitSeq (s : State) (core p : Nat) (x : SemPair) : (setSem s core p x).admitSeq = s.admitSeq := rfl
@[simp] theorem setSem_shares (s : State) (core p : Nat) (x : SemPair) : (setSem s core p x).shares = s.shares := rfl
@[simp] theorem setSem_ras (s : State) (core p : Nat) (x : SemPair) : (setSem s core p x).ras = s.ras := rfl
@[simp] theorem setSem_log (s : State) (core p : Nat) (x : SemPair) : (setSem s core p x).log = s.log := rfl
@[simp] theorem setSem_fw (s : State) (core p : Nat) (x : SemPair) : (setSem s core p x).fw = s.fw := rfl
@[simp] theorem setSem_pwr (s : State) (core p : Nat) (x : SemPair) : (setSem s core p x).pwr = s.pwr := rfl
@[simp] theorem setSem_xlt (s : State) (core p : Nat) (x : SemPair) : (setSem s core p x).xlt = s.xlt := rfl
@[simp] theorem setSem_pgk (s : State) (core p : Nat) (x : SemPair) : (setSem s core p x).pgk = s.pgk := rfl
@[simp] theorem setSem_str (s : State) (core p : Nat) (x : SemPair) : (setSem s core p x).str = s.str := rfl
@[simp] theorem setSem_upd (s : State) (core p : Nat) (x : SemPair) : (setSem s core p x).upd = s.upd := rfl
@[simp] theorem setSem_ktl (s : State) (core p : Nat) (x : SemPair) : (setSem s core p x).ktl = s.ktl := rfl
@[simp] theorem setSem_ring (s : State) (core p : Nat) (x : SemPair) : (setSem s core p x).ring = s.ring := rfl
@[simp] theorem setSem_counters (s : State) (core p : Nat) (x : SemPair) : (setSem s core p x).counters = s.counters := rfl
@[simp] theorem setSem_pmem (s : State) (core p : Nat) (x : SemPair) : (setSem s core p x).pmem = s.pmem := rfl
@[simp] theorem setSem_hostMem (s : State) (core p : Nat) (x : SemPair) : (setSem s core p x).hostMem = s.hostMem := rfl
@[simp] theorem setSem_freeCtr (s : State) (core p : Nat) (x : SemPair) : (setSem s core p x).freeCtr = s.freeCtr := rfl
@[simp] theorem setSem_pending (s : State) (core p : Nat) (x : SemPair) : (setSem s core p x).pending = s.pending := rfl

/-! ### `setQueue` changes `str` alone -/

@[simp] theorem setQueue_now (s : State) (core q : Nat) (x : Queue) : (setQueue s core q x).now = s.now := rfl
@[simp] theorem setQueue_dev (s : State) (core q : Nat) (x : Queue) : (setQueue s core q x).dev = s.dev := rfl
@[simp] theorem setQueue_host (s : State) (core q : Nat) (x : Queue) : (setQueue s core q x).host = s.host := rfl
@[simp] theorem setQueue_cfg (s : State) (core q : Nat) (x : Queue) : (setQueue s core q x).cfg = s.cfg := rfl
@[simp] theorem setQueue_sessions (s : State) (core q : Nat) (x : Queue) : (setQueue s core q x).sessions = s.sessions := rfl
@[simp] theorem setQueue_lease (s : State) (core q : Nat) (x : Queue) : (setQueue s core q x).lease = s.lease := rfl
@[simp] theorem setQueue_cmds (s : State) (core q : Nat) (x : Queue) : (setQueue s core q x).cmds = s.cmds := rfl
@[simp] theorem setQueue_admitSeq (s : State) (core q : Nat) (x : Queue) : (setQueue s core q x).admitSeq = s.admitSeq := rfl
@[simp] theorem setQueue_shares (s : State) (core q : Nat) (x : Queue) : (setQueue s core q x).shares = s.shares := rfl
@[simp] theorem setQueue_ras (s : State) (core q : Nat) (x : Queue) : (setQueue s core q x).ras = s.ras := rfl
@[simp] theorem setQueue_log (s : State) (core q : Nat) (x : Queue) : (setQueue s core q x).log = s.log := rfl
@[simp] theorem setQueue_fw (s : State) (core q : Nat) (x : Queue) : (setQueue s core q x).fw = s.fw := rfl
@[simp] theorem setQueue_pwr (s : State) (core q : Nat) (x : Queue) : (setQueue s core q x).pwr = s.pwr := rfl
@[simp] theorem setQueue_xlt (s : State) (core q : Nat) (x : Queue) : (setQueue s core q x).xlt = s.xlt := rfl
@[simp] theorem setQueue_pgk (s : State) (core q : Nat) (x : Queue) : (setQueue s core q x).pgk = s.pgk := rfl
@[simp] theorem setQueue_spad (s : State) (core q : Nat) (x : Queue) : (setQueue s core q x).spad = s.spad := rfl
@[simp] theorem setQueue_upd (s : State) (core q : Nat) (x : Queue) : (setQueue s core q x).upd = s.upd := rfl
@[simp] theorem setQueue_ktl (s : State) (core q : Nat) (x : Queue) : (setQueue s core q x).ktl = s.ktl := rfl
@[simp] theorem setQueue_ring (s : State) (core q : Nat) (x : Queue) : (setQueue s core q x).ring = s.ring := rfl
@[simp] theorem setQueue_counters (s : State) (core q : Nat) (x : Queue) : (setQueue s core q x).counters = s.counters := rfl
@[simp] theorem setQueue_pmem (s : State) (core q : Nat) (x : Queue) : (setQueue s core q x).pmem = s.pmem := rfl
@[simp] theorem setQueue_hostMem (s : State) (core q : Nat) (x : Queue) : (setQueue s core q x).hostMem = s.hostMem := rfl
@[simp] theorem setQueue_freeCtr (s : State) (core q : Nat) (x : Queue) : (setQueue s core q x).freeCtr = s.freeCtr := rfl
@[simp] theorem setQueue_pending (s : State) (core q : Nat) (x : Queue) : (setQueue s core q x).pending = s.pending := rfl

/-! ### `setUnit` changes `upd` alone -/

@[simp] theorem setUnit_now (s : State) (stack : Nat) (u : UpdUnit) : (setUnit s stack u).now = s.now := rfl
@[simp] theorem setUnit_dev (s : State) (stack : Nat) (u : UpdUnit) : (setUnit s stack u).dev = s.dev := rfl
@[simp] theorem setUnit_host (s : State) (stack : Nat) (u : UpdUnit) : (setUnit s stack u).host = s.host := rfl
@[simp] theorem setUnit_cfg (s : State) (stack : Nat) (u : UpdUnit) : (setUnit s stack u).cfg = s.cfg := rfl
@[simp] theorem setUnit_sessions (s : State) (stack : Nat) (u : UpdUnit) : (setUnit s stack u).sessions = s.sessions := rfl
@[simp] theorem setUnit_lease (s : State) (stack : Nat) (u : UpdUnit) : (setUnit s stack u).lease = s.lease := rfl
@[simp] theorem setUnit_cmds (s : State) (stack : Nat) (u : UpdUnit) : (setUnit s stack u).cmds = s.cmds := rfl
@[simp] theorem setUnit_admitSeq (s : State) (stack : Nat) (u : UpdUnit) : (setUnit s stack u).admitSeq = s.admitSeq := rfl
@[simp] theorem setUnit_shares (s : State) (stack : Nat) (u : UpdUnit) : (setUnit s stack u).shares = s.shares := rfl
@[simp] theorem setUnit_ras (s : State) (stack : Nat) (u : UpdUnit) : (setUnit s stack u).ras = s.ras := rfl
@[simp] theorem setUnit_log (s : State) (stack : Nat) (u : UpdUnit) : (setUnit s stack u).log = s.log := rfl
@[simp] theorem setUnit_fw (s : State) (stack : Nat) (u : UpdUnit) : (setUnit s stack u).fw = s.fw := rfl
@[simp] theorem setUnit_pwr (s : State) (stack : Nat) (u : UpdUnit) : (setUnit s stack u).pwr = s.pwr := rfl
@[simp] theorem setUnit_xlt (s : State) (stack : Nat) (u : UpdUnit) : (setUnit s stack u).xlt = s.xlt := rfl
@[simp] theorem setUnit_pgk (s : State) (stack : Nat) (u : UpdUnit) : (setUnit s stack u).pgk = s.pgk := rfl
@[simp] theorem setUnit_spad (s : State) (stack : Nat) (u : UpdUnit) : (setUnit s stack u).spad = s.spad := rfl
@[simp] theorem setUnit_str (s : State) (stack : Nat) (u : UpdUnit) : (setUnit s stack u).str = s.str := rfl
@[simp] theorem setUnit_ktl (s : State) (stack : Nat) (u : UpdUnit) : (setUnit s stack u).ktl = s.ktl := rfl
@[simp] theorem setUnit_ring (s : State) (stack : Nat) (u : UpdUnit) : (setUnit s stack u).ring = s.ring := rfl
@[simp] theorem setUnit_counters (s : State) (stack : Nat) (u : UpdUnit) : (setUnit s stack u).counters = s.counters := rfl
@[simp] theorem setUnit_pmem (s : State) (stack : Nat) (u : UpdUnit) : (setUnit s stack u).pmem = s.pmem := rfl
@[simp] theorem setUnit_hostMem (s : State) (stack : Nat) (u : UpdUnit) : (setUnit s stack u).hostMem = s.hostMem := rfl
@[simp] theorem setUnit_freeCtr (s : State) (stack : Nat) (u : UpdUnit) : (setUnit s stack u).freeCtr = s.freeCtr := rfl
@[simp] theorem setUnit_pending (s : State) (stack : Nat) (u : UpdUnit) : (setUnit s stack u).pending = s.pending := rfl

/-! ### `setPort` changes `ktl` alone -/

@[simp] theorem setPort_now (s : State) (k : Nat) (p : KtlPort) : (setPort s k p).now = s.now := rfl
@[simp] theorem setPort_dev (s : State) (k : Nat) (p : KtlPort) : (setPort s k p).dev = s.dev := rfl
@[simp] theorem setPort_host (s : State) (k : Nat) (p : KtlPort) : (setPort s k p).host = s.host := rfl
@[simp] theorem setPort_cfg (s : State) (k : Nat) (p : KtlPort) : (setPort s k p).cfg = s.cfg := rfl
@[simp] theorem setPort_sessions (s : State) (k : Nat) (p : KtlPort) : (setPort s k p).sessions = s.sessions := rfl
@[simp] theorem setPort_lease (s : State) (k : Nat) (p : KtlPort) : (setPort s k p).lease = s.lease := rfl
@[simp] theorem setPort_cmds (s : State) (k : Nat) (p : KtlPort) : (setPort s k p).cmds = s.cmds := rfl
@[simp] theorem setPort_admitSeq (s : State) (k : Nat) (p : KtlPort) : (setPort s k p).admitSeq = s.admitSeq := rfl
@[simp] theorem setPort_shares (s : State) (k : Nat) (p : KtlPort) : (setPort s k p).shares = s.shares := rfl
@[simp] theorem setPort_ras (s : State) (k : Nat) (p : KtlPort) : (setPort s k p).ras = s.ras := rfl
@[simp] theorem setPort_log (s : State) (k : Nat) (p : KtlPort) : (setPort s k p).log = s.log := rfl
@[simp] theorem setPort_fw (s : State) (k : Nat) (p : KtlPort) : (setPort s k p).fw = s.fw := rfl
@[simp] theorem setPort_pwr (s : State) (k : Nat) (p : KtlPort) : (setPort s k p).pwr = s.pwr := rfl
@[simp] theorem setPort_xlt (s : State) (k : Nat) (p : KtlPort) : (setPort s k p).xlt = s.xlt := rfl
@[simp] theorem setPort_pgk (s : State) (k : Nat) (p : KtlPort) : (setPort s k p).pgk = s.pgk := rfl
@[simp] theorem setPort_spad (s : State) (k : Nat) (p : KtlPort) : (setPort s k p).spad = s.spad := rfl
@[simp] theorem setPort_str (s : State) (k : Nat) (p : KtlPort) : (setPort s k p).str = s.str := rfl
@[simp] theorem setPort_upd (s : State) (k : Nat) (p : KtlPort) : (setPort s k p).upd = s.upd := rfl
@[simp] theorem setPort_ring (s : State) (k : Nat) (p : KtlPort) : (setPort s k p).ring = s.ring := rfl
@[simp] theorem setPort_counters (s : State) (k : Nat) (p : KtlPort) : (setPort s k p).counters = s.counters := rfl
@[simp] theorem setPort_pmem (s : State) (k : Nat) (p : KtlPort) : (setPort s k p).pmem = s.pmem := rfl
@[simp] theorem setPort_hostMem (s : State) (k : Nat) (p : KtlPort) : (setPort s k p).hostMem = s.hostMem := rfl
@[simp] theorem setPort_freeCtr (s : State) (k : Nat) (p : KtlPort) : (setPort s k p).freeCtr = s.freeCtr := rfl
@[simp] theorem setPort_pending (s : State) (k : Nat) (p : KtlPort) : (setPort s k p).pending = s.pending := rfl

/-! ### `setRing` changes `ring` alone -/

@[simp] theorem setRing_now (s : State) (e : Nat) (l : RingLink) : (setRing s e l).now = s.now := rfl
@[simp] theorem setRing_dev (s : State) (e : Nat) (l : RingLink) : (setRing s e l).dev = s.dev := rfl
@[simp] theorem setRing_host (s : State) (e : Nat) (l : RingLink) : (setRing s e l).host = s.host := rfl
@[simp] theorem setRing_cfg (s : State) (e : Nat) (l : RingLink) : (setRing s e l).cfg = s.cfg := rfl
@[simp] theorem setRing_sessions (s : State) (e : Nat) (l : RingLink) : (setRing s e l).sessions = s.sessions := rfl
@[simp] theorem setRing_lease (s : State) (e : Nat) (l : RingLink) : (setRing s e l).lease = s.lease := rfl
@[simp] theorem setRing_cmds (s : State) (e : Nat) (l : RingLink) : (setRing s e l).cmds = s.cmds := rfl
@[simp] theorem setRing_admitSeq (s : State) (e : Nat) (l : RingLink) : (setRing s e l).admitSeq = s.admitSeq := rfl
@[simp] theorem setRing_shares (s : State) (e : Nat) (l : RingLink) : (setRing s e l).shares = s.shares := rfl
@[simp] theorem setRing_ras (s : State) (e : Nat) (l : RingLink) : (setRing s e l).ras = s.ras := rfl
@[simp] theorem setRing_log (s : State) (e : Nat) (l : RingLink) : (setRing s e l).log = s.log := rfl
@[simp] theorem setRing_fw (s : State) (e : Nat) (l : RingLink) : (setRing s e l).fw = s.fw := rfl
@[simp] theorem setRing_pwr (s : State) (e : Nat) (l : RingLink) : (setRing s e l).pwr = s.pwr := rfl
@[simp] theorem setRing_xlt (s : State) (e : Nat) (l : RingLink) : (setRing s e l).xlt = s.xlt := rfl
@[simp] theorem setRing_pgk (s : State) (e : Nat) (l : RingLink) : (setRing s e l).pgk = s.pgk := rfl
@[simp] theorem setRing_spad (s : State) (e : Nat) (l : RingLink) : (setRing s e l).spad = s.spad := rfl
@[simp] theorem setRing_str (s : State) (e : Nat) (l : RingLink) : (setRing s e l).str = s.str := rfl
@[simp] theorem setRing_upd (s : State) (e : Nat) (l : RingLink) : (setRing s e l).upd = s.upd := rfl
@[simp] theorem setRing_ktl (s : State) (e : Nat) (l : RingLink) : (setRing s e l).ktl = s.ktl := rfl
@[simp] theorem setRing_counters (s : State) (e : Nat) (l : RingLink) : (setRing s e l).counters = s.counters := rfl
@[simp] theorem setRing_pmem (s : State) (e : Nat) (l : RingLink) : (setRing s e l).pmem = s.pmem := rfl
@[simp] theorem setRing_hostMem (s : State) (e : Nat) (l : RingLink) : (setRing s e l).hostMem = s.hostMem := rfl
@[simp] theorem setRing_freeCtr (s : State) (e : Nat) (l : RingLink) : (setRing s e l).freeCtr = s.freeCtr := rfl
@[simp] theorem setRing_pending (s : State) (e : Nat) (l : RingLink) : (setRing s e l).pending = s.pending := rfl

/-! ### `emitFlit` changes `ring` alone -/

@[simp] theorem emitFlit_now (s : State) (e : Nat) (h : BitVec 32) (gs : List Granule) : (emitFlit s e h gs).now = s.now := rfl
@[simp] theorem emitFlit_dev (s : State) (e : Nat) (h : BitVec 32) (gs : List Granule) : (emitFlit s e h gs).dev = s.dev := rfl
@[simp] theorem emitFlit_host (s : State) (e : Nat) (h : BitVec 32) (gs : List Granule) : (emitFlit s e h gs).host = s.host := rfl
@[simp] theorem emitFlit_cfg (s : State) (e : Nat) (h : BitVec 32) (gs : List Granule) : (emitFlit s e h gs).cfg = s.cfg := rfl
@[simp] theorem emitFlit_sessions (s : State) (e : Nat) (h : BitVec 32) (gs : List Granule) : (emitFlit s e h gs).sessions = s.sessions := rfl
@[simp] theorem emitFlit_lease (s : State) (e : Nat) (h : BitVec 32) (gs : List Granule) : (emitFlit s e h gs).lease = s.lease := rfl
@[simp] theorem emitFlit_cmds (s : State) (e : Nat) (h : BitVec 32) (gs : List Granule) : (emitFlit s e h gs).cmds = s.cmds := rfl
@[simp] theorem emitFlit_admitSeq (s : State) (e : Nat) (h : BitVec 32) (gs : List Granule) : (emitFlit s e h gs).admitSeq = s.admitSeq := rfl
@[simp] theorem emitFlit_shares (s : State) (e : Nat) (h : BitVec 32) (gs : List Granule) : (emitFlit s e h gs).shares = s.shares := rfl
@[simp] theorem emitFlit_ras (s : State) (e : Nat) (h : BitVec 32) (gs : List Granule) : (emitFlit s e h gs).ras = s.ras := rfl
@[simp] theorem emitFlit_log (s : State) (e : Nat) (h : BitVec 32) (gs : List Granule) : (emitFlit s e h gs).log = s.log := rfl
@[simp] theorem emitFlit_fw (s : State) (e : Nat) (h : BitVec 32) (gs : List Granule) : (emitFlit s e h gs).fw = s.fw := rfl
@[simp] theorem emitFlit_pwr (s : State) (e : Nat) (h : BitVec 32) (gs : List Granule) : (emitFlit s e h gs).pwr = s.pwr := rfl
@[simp] theorem emitFlit_xlt (s : State) (e : Nat) (h : BitVec 32) (gs : List Granule) : (emitFlit s e h gs).xlt = s.xlt := rfl
@[simp] theorem emitFlit_pgk (s : State) (e : Nat) (h : BitVec 32) (gs : List Granule) : (emitFlit s e h gs).pgk = s.pgk := rfl
@[simp] theorem emitFlit_spad (s : State) (e : Nat) (h : BitVec 32) (gs : List Granule) : (emitFlit s e h gs).spad = s.spad := rfl
@[simp] theorem emitFlit_str (s : State) (e : Nat) (h : BitVec 32) (gs : List Granule) : (emitFlit s e h gs).str = s.str := rfl
@[simp] theorem emitFlit_upd (s : State) (e : Nat) (h : BitVec 32) (gs : List Granule) : (emitFlit s e h gs).upd = s.upd := rfl
@[simp] theorem emitFlit_ktl (s : State) (e : Nat) (h : BitVec 32) (gs : List Granule) : (emitFlit s e h gs).ktl = s.ktl := rfl
@[simp] theorem emitFlit_counters (s : State) (e : Nat) (h : BitVec 32) (gs : List Granule) : (emitFlit s e h gs).counters = s.counters := rfl
@[simp] theorem emitFlit_pmem (s : State) (e : Nat) (h : BitVec 32) (gs : List Granule) : (emitFlit s e h gs).pmem = s.pmem := rfl
@[simp] theorem emitFlit_hostMem (s : State) (e : Nat) (h : BitVec 32) (gs : List Granule) : (emitFlit s e h gs).hostMem = s.hostMem := rfl
@[simp] theorem emitFlit_freeCtr (s : State) (e : Nat) (h : BitVec 32) (gs : List Granule) : (emitFlit s e h gs).freeCtr = s.freeCtr := rfl
@[simp] theorem emitFlit_pending (s : State) (e : Nat) (h : BitVec 32) (gs : List Granule) : (emitFlit s e h gs).pending = s.pending := rfl

end Sys2Proof.Laws
end

