-- ==== Sys2Proof/Tests/Slice0.lean ====
section
/-! SUPPORT. Tests of the model, and for each statement with hypotheses a state and operands that meet them. Every test is one step on a small
state; expected values are from the manual's tables and examples. -/
namespace Sys2Proof.Tests

-- One theorem at a time: many kernel evaluations side by side ask for more threads than the memory limit gives stacks.
set_option Elab.async false

open Sys2Proof.Machine Sys2Proof.Safety Sys2Proof.Laws

/-! ### Helpers: packets and small states -/

/-- A packet whose parameter area has the given fields: byte offset, bits, value (R309). -/
def params (fs : List (Nat × Nat × Nat)) : SlotWord := fs.foldl (fun p f => setBits p (8 * (0x40 + f.1)) f.2.1 f.2.2) 0

/-- A packet that asks for a long reply of `n` bytes at host address 0x10000 (R309). -/
def long (p : SlotWord) (n : Nat) : SlotWord := setBits (setBits p (8 * 0x10) 64 0x10000) (8 * 0x18) 32 n

/-- A header with version 1 that names a session (R309). -/
def hdr (session : Nat) : BitVec 64 := BitVec.ofNat 64 (session * 2 ^ 16 + 2 ^ 56)

/-- A cached leaf that maps the first GiB of an address space to itself, readable and writable (R243). -/
def leaf (asid : Nat) : XltEntry := ⟨asid, 0, 2 ^ 30, 1, 0xF000000000000000⟩

/-- A running processor that has kicked its watchdog. -/
def alive : Proc := ⟨.running, 0, 0, [], 0, 0, 0, true, false⟩

/-- A powered cluster in K0. -/
def awake : ClusterPower := ⟨0, 0, 0, false, none, none, true⟩

/-- A READY device: processors running, clusters awake, the lease held, session 0x0100 open on address space 1, pools and translation
configured for die 0. -/
def ready : State :=
  { State.reset with
    dev := .ready
    fw := { State.reset.fw with procs := (List.range 35).map (fun i => (i, alive)) }
    lease := { Lease.reset with state := .held, expiry := 3840000 }
    sessions := [(0, ⟨.opened, 1, 1, false, false, false, 0, 0⟩)]
    pwr := { State.reset.pwr with clusters := (List.range 32).map (fun g => (g, awake)) }
    cfg := { State.reset.cfg with committed :=
      [(0x1001 * 256, 7 * 2 ^ 25 + 1), (0x1010 * 256, 2 ^ 26 + 1), (0x1011 * 256, 524289), (0x1012 * 256, 2 ^ 25 + 1), (0x1013 * 256, 8193),
        (0x4000 * 256, 4 * 2 ^ 25 + 1), (0x4001 * 256, 2 ^ 25 + 1), (0x5001 * 256, 4097), (0x5002 * 256, 32769),
        (0x7000 * 256, 1 + 1 + 2 * 256)] }
    xlt := { State.reset.xlt with dieCache := (List.range 8).map (fun d => (d, [leaf 1, leaf 0])) } }

/-- An ACTIVE sequence of one layer and one KV head with 256 tokens, on die 0 (R112). -/
def seqA : SeqDesc := ⟨1, 0, 1, 0, 1, 1, 7, 3, 0, 0, 0x100, 0, 256, 0, 0, 0, 0, 0⟩

/-- A state with that sequence as number 3. -/
def withSeq (s : State) : State :=
  { s with
    pmem := s.pmem.write (7 * 2 ^ 25 + 512 * 3) ((seqBytes seqA).take 48) false
    pgk := { s.pgk with pools := [(0, { Pools.reset with nodes := [0] })] } }

/-- A state with spine pools configured (R137). -/
def withSpine (s : State) : State :=
  let spine :=
    s.cfg.committed.take 5 ++ (List.range 8).map (fun d => (0x2010 * 256 + d, 5 * 2 ^ 25 + d * 65536 + 1)) ++
      (List.range 8).map (fun d => (0x2011 * 256 + d, 65537)) ++
      (List.range 8).map (fun d => (0x2012 * 256 + d, 6 * 2 ^ 25 + d * 2 ^ 21 + 1)) ++ s.cfg.committed.drop 5
  { s with cfg := { s.cfg with committed := spine } }

/-- A LIVE spine node without children for that sequence's format (R140). -/
def spineA : SpineNode := ⟨5, 0, 2, 0, 0, false, 1, 0, 0, 0, 0, 0, paramWord seqA false, 0, 0⟩

/-- A byte string from its fields: offset and value. -/
def image (n : Nat) (fs : List (Nat × Nat)) : List Byte := natBytes n ((fs.map (fun f => f.2 * 2 ^ (8 * f.1))).sum)

/-- A plan image of one queue with one descriptor and one loop table, that R209 to R212 accept. -/
def planA : List Byte :=
  image 576 ([(0, 1), (4, 576), (8, 64), (0xC, 384), (0x10, 1), (0x18, 320), (0x1C, 1), (0x20, 512), (0x24, 1)] ++
    [(64 + 4, 1), (64 + 0x11, 1), (320 + 0x10, 7 * 2 ^ 32 + 7 * 2 ^ 29), (320 + 0x20, 1), (320 + 0x22, 16), (512, 0xFFFF * 2 ^ 19), (384, 1)] ++
    (List.range 6).flatMap (fun l => [(384 + 16 + 16 * l + 11, l), (384 + 16 + 16 * l + 12, 1)]))

/-- A state with plan 1 in the plan store. -/
def withPlan (s : State) : State :=
  { s with pmem := s.pmem.write (4 * 2 ^ 25) planA false, str := { s.str with plans := [(1, some ⟨0, 576⟩)] } }

/-- A state with one stream queue: queue 0 of core 0. -/
def withQueue (q : Queue) (s : State) : State := { s with str := { s.str with queues := [(0, q)] } }

/-- A command's hold on cluster 0, between plan steps. -/
def holdA : Hold :=
  { cluster := 0, paused := false, rslot := 0, lane := 0, unit := none, staged := [], recState := 0, ckptSeq := 0, steps := 0
    pins := [], walk := [], locked := none, faulted := false, noMap := [], noMapRec := [], parityErrors := 0, nodes := [], conflict := false
    slots := [], streamed := [], emptied := [], saved := [], cores := [], ran := [], running := [], extra := 0, replaying := false }

/-- A state with one running command of an opcode, in slot 5, that holds cluster 0. -/
def holding (op : Nat) (h : Hold) (s : State) : State :=
  { s with cmds := [{ newCmd 5 op 0 with stage := .running, holds := [h] }] }

/-- Whether a row with packet `p` in slot 5 meets the hypotheses of AdmittedCommandCompletes (Safety.mayRun): it passes every check of R319 and
its command runs at once; and its body ends, or leaves it waiting. -/
def completes (i : Instr) (p : SlotWord) (s : State) : Bool :=
  let s := setSlot s 5 p
  (handed i).any (fun h => mayRun h 5 s && !(opDef h.op).placed && match ((opDef h.op).body 5).run (working h 5 s) with
    | .ok _ _ => true
    | .error (.park _) _ => true
    | .error _ _ => false)

/-- Whether a row with packet `p` in slot 5 meets the hypotheses of PlacedCommandWaits (Safety.mayQueue). -/
def waits (i : Instr) (p : SlotWord) (s : State) : Bool :=
  let s := setSlot s 5 p
  (handed i).any (fun h => mayQueue h 5 s && (opDef h.op).placed)

/-- Whether a row with packet `p` in slot 5 is accepted (Safety.accepted). -/
def accepts (i : Instr) (p : SlotWord) (s : State) : Bool :=
  let s := setSlot s 5 p
  match handed i with
  | none => false
  | some h =>
    mayOffer h 5 s && passes h.op 5 (offered h 5 s) &&
      match ((opDef h.op).check 5).run (taken 5 (offered h 5 s)) with
      | .error _ _ => false
      | .ok cl t => decide (t = taken 5 (offered h 5 s)) && runsNow 5 (atWork h 5 cl s)

/-! ### Witnesses: the rows of an opcode are admitted (AdmittedCommandCompletes, PlacedCommandWaits). FW_LOAD and FW_HANDOVER have none
here: the digests of the keys in the fuses are free (log 6), so no packet that passes their check can be written out. SEQ_FORK, and a KV_DEMOTE
that finds a page to move, have none either: their walks of a page table node by node take the kernel of the check too much memory. -/

theorem witness_nop : completes (.nop .host 5 (hdr 0)) 0 ready = true := by decide +kernel
theorem witness_cfgRead : completes (.cfgRead .host 5 (hdr 0)) (params [(0, 8, 1), (8, 16, 0x3000)]) ready = true := by decide +kernel
theorem witness_cfgWrite :
    completes (.cfgWrite .host 5 (hdr 0)) (params [(0, 8, 1), (8, 16, 0x3000), (16, 64, 20000)]) ready = true := by decide +kernel
theorem witness_cfgCommit : completes (.cfgCommit .host 5 (hdr 0)) 0 ready = true := by decide +kernel
theorem witness_cfgDiscard : completes (.cfgDiscard .host 5 (hdr 0)) 0 ready = true := by decide +kernel
theorem witness_cfgStatus : completes (.cfgStatus .host 5 (hdr 0)) 0 ready = true := by decide +kernel
theorem witness_seqCreate :
    completes (.seqCreate .host 5 (hdr 0x100)) (params [(0x10, 16, 7), (0x12, 16, 1), (0x14, 8, 1), (0x16, 16, 1)]) ready = true := by
  decide +kernel
theorem witness_seqFree : completes (.seqFree .host 5 (hdr 0x100)) (params [(0, 16, 3)]) (withSeq ready) = true := by decide +kernel
theorem witness_seqTruncate :
    completes (.seqTruncate .host 5 (hdr 0x100)) (params [(8, 16, 3), (0xC, 27, 5)]) (withSeq ready) = true := by decide +kernel
theorem witness_prefixLookup : completes (.prefixLookup .host 5 (hdr 0x100))
    (long (params [(0x1C, 32, 1), (0x20, 16, 3), (0x10, 64, rootHandle)]) 64) (withSeq ready) = true := by decide +kernel
theorem witness_prefixPublish : completes (.prefixPublish .host 5 (hdr 0x100))
    (long (params [(0x1C, 32, 1), (0x20, 16, 3), (0x10, 64, rootHandle)]) 64) (withSpine (withSeq ready)) = true := by decide +kernel
theorem witness_prefixWithdraw : completes (.prefixWithdraw .host 5 (hdr 0x100))
    (long (params [(0x20, 16, 3), (0x10, 64, handleOf 2 0)]) 64)
    { withSpine (withSeq ready) with
      pmem := (withSeq ready).pmem.write (5 * 2 ^ 25) (spineBytes spineA) false
      pgk := { ready.pgk with pools := [(0, { Pools.reset with spineNodes := [0] })] } } = true := by decide +kernel
theorem witness_kvDemote : completes (.kvDemote .host 5 (hdr 0x100)) (params [(0, 16, 3)]) (withSeq ready) = true := by decide +kernel
theorem witness_kvPromote : completes (.kvPromote .host 5 (hdr 0x100)) (params [(0, 16, 3)]) (withSeq ready) = true := by decide +kernel
theorem witness_kvRecomputeList :
    completes (.kvRecomputeList .host 5 (hdr 0x100)) (long (params [(0, 16, 3), (8, 16, 1)]) 64) (withSeq ready) = true := by decide +kernel
theorem witness_planLoad : completes (.planLoad .host 5 (hdr 0x100)) (params [(8, 32, 576), (0xC, 16, 1)])
    { ready with pmem := ready.pmem.write 0 planA false } = true := by decide +kernel
theorem witness_planUnload : completes (.planUnload .host 5 (hdr 0x100)) (params [(0xC, 16, 1)]) (withPlan ready) = true := by decide +kernel
theorem witness_streamHalt :
    completes (.streamHalt .host 5 (hdr 0x100)) 0 (withQueue { Queue.reset with state := .parked } ready) = true := by decide +kernel
theorem witness_streamHalt_report :
    completes (.streamHalt .host 5 (hdr 0x100)) (long 0 64) (withQueue { Queue.reset with state := .parked } ready) = true := by decide +kernel
theorem witness_updProgramLoad : completes (.updProgramLoad .host 5 (hdr 0))
    (params [(0, 32, (updWord 1 16 1 1 0).toNat), (0x41, 8, 1)]) ready = true := by decide +kernel
theorem witness_linkStatus : completes (.linkStatus .host 5 (hdr 0)) (long (params [(0, 8, 1)]) 64) ready = true := by decide +kernel
theorem witness_linkAttach : completes (.linkAttach .host 5 (hdr 0)) 0 ready = true := by decide +kernel
theorem witness_linkDetach : completes (.linkDetach .host 5 (hdr 0)) 0 ready = true := by decide +kernel
theorem witness_fwStart : completes (.fwStart .host 5 (hdr 0)) 0
    { ready with dev := .load, fw := { ready.fw with images := (List.range 4).map (fun i => (i, ⟨1, 1, 1, 1, 512, 0⟩)) } } = true := by
  decide +kernel
theorem witness_logRead : completes (.logRead .host 5 (hdr 0)) (long (params [(8, 32, 1)]) 64) ready = true := by decide +kernel
theorem witness_logStatus : completes (.logStatus .host 5 (hdr 0)) (long 0 576) ready = true := by decide +kernel
theorem witness_traceCtlEnable :
    completes (.traceCtlEnable .host 5 (hdr 0)) (params [(1, 8, 1), (8, 32, 0x40004)]) ready = true := by decide +kernel
theorem witness_traceCtlDisable :
    completes (.traceCtlDisable .host 5 (hdr 0)) (params [(1, 8, 1), (8, 32, 0x40004)]) ready = true := by decide +kernel
theorem witness_traceCtlDisableAll : completes (.traceCtlDisableAll .host 5 (hdr 0)) 0 ready = true := by decide +kernel
theorem witness_traceCtlCount : completes (.traceCtlCount .host 5 (hdr 0)) 0 ready = true := by decide +kernel
theorem witness_pwrModeQuery : completes (.pwrModeQuery .host 5 (hdr 0)) (params [(1, 8, 0xFF)]) ready = true := by decide +kernel
theorem witness_pwrModeSet : completes (.pwrModeSet .host 5 (hdr 0)) (params [(1, 8, 0xFF)]) ready = true := by decide +kernel
theorem witness_pwrHintSet :
    completes (.pwrHintSet .host 5 (hdr 0)) (params [(0, 64, 2000000), (0xA, 8, 1)]) ready = true := by decide +kernel
theorem witness_pwrHintClear : completes (.pwrHintClear .host 5 (hdr 0)) 0 ready = true := by decide +kernel
theorem witness_pwrHintClearAll : completes (.pwrHintClearAll .host 5 (hdr 0)) 0 ready = true := by decide +kernel
theorem witness_faultFetch : completes (.faultFetch .host 5 (hdr 0)) (long (params [(0, 16, 1)]) 64) ready = true := by decide +kernel
theorem witness_faultResolve : completes (.faultResolve .host 5 (hdr 0)) 0 ready = true := by decide +kernel
theorem witness_errFetch : completes (.errFetch .host 5 (hdr 0)) (long (params [(0, 16, 1)]) 64) ready = true := by decide +kernel
theorem witness_errFetchCounters : completes (.errFetchCounters .host 5 (hdr 0)) (long 0 2240) ready = true := by decide +kernel
theorem witness_errClear : completes (.errClear .host 5 (hdr 0)) 0 ready = true := by decide +kernel
theorem witness_sessionOpen : completes (.sessionOpen .host 5 (hdr 0)) (params [(0x10, 8, 1)])
    { ready with pmem := ready.pmem.write 4119 [0x80] false } = true := by decide +kernel
theorem witness_sessionAdopt : completes (.sessionAdopt .host 5 (hdr 0)) (params [(0x10, 8, 1), (0x16, 16, 0x100)])
    { ready with
      sessions := [(0, ⟨.adoptable, 1, 1, false, false, false, 0, 0⟩)]
      pmem := ready.pmem.write 4119 [0x80] false } = true := by decide +kernel
theorem witness_sessionClose : completes (.sessionClose .host 5 (hdr 0x100)) 0 ready = true := by decide +kernel
theorem witness_leaseRenew : completes (.leaseRenew .host 5 (hdr 0)) 0 ready = true := by decide +kernel
theorem witness_attach :
    completes (.attach .host 5 (hdr 0)) (long 0 256) { ready with lease := { ready.lease with state := .lapsed } } = true := by decide +kernel
theorem witness_attnFwd : waits (.attnFwd .host 5 (hdr 0x100))
    (params [(0x4C, 32, 0x3F800000), (0x54, 32, 1), (0x58, 27, 16), (0x5C, 16, 3), (0x61, 2, 1), (0x62, 8, 1), (0x63, 8, 1),
      (0x64, 16, 1), (0x70, 16, 1), (0x72, 16, 1)]) (withSeq ready) = true := by decide +kernel
theorem witness_attnBwd : waits (.attnBwd .host 5 (hdr 0x100))
    (params [(0x18, 64, 64), (0x4C, 32, 0x3F800000), (0x54, 32, 1), (0x58, 27, 16), (0x5C, 16, 3), (0x61, 2, 1), (0x62, 8, 1),
      (0x63, 8, 1), (0x64, 16, 1), (0x70, 16, 1), (0x72, 16, 1)]) (withSeq ready) = true := by decide +kernel
theorem witness_proj : waits (.proj .host 5 (hdr 0x100))
    (params [(0x38, 32, 1), (0x40, 32, 128), (0x49, 2, 1), (0x4A, 8, 1), (0x4B, 8, 1), (0x4C, 16, 1), (0x58, 16, 1), (0x5A, 16, 1)])
    ready = true := by decide +kernel
theorem witness_matmul : waits (.matmul .host 5 (hdr 0x100))
    (params [(0x48, 32, 1), (0x4C, 32, 1), (0x50, 32, 1), (0x54, 16, 1), (0x5E, 16, 16)]) ready = true := by decide +kernel
theorem witness_streamArm : waits (.streamArm .host 5 (hdr 0x100)) (params [(0x30, 16, 1)]) (withPlan ready) = true := by decide +kernel
theorem witness_streamRearm :
    waits (.streamRearm .host 5 (hdr 0x100)) 0 (withQueue { Queue.reset with state := .parked } ready) = true := by decide +kernel
theorem witness_updStep : waits (.updStep .host 5 (hdr 0x100)) (params [(0x50, 32, 1), (0x54, 32, 4), (0x58, 32, 1)])
    { ready with upd := { ready.upd with programs := [(0, [updWord 1 16 1 1 0])] } } = true := by decide +kernel

/-! ### Witnesses: the step, handovers and admission -/

theorem witness_StepRunsFrontCommand :
    ({ State.reset with pending := [.idcode] } : State).pending = .idcode :: [] ∧ State.reset.pending = [] ∧
      State.reset.fw.starting = none := by decide +kernel

theorem witness_QuietStateStands : quiet ready = true := by decide +kernel

theorem witness_HandoversThatDoNotReach :
    slotKey .host 5 = some 5 ∧ slotOwned (setSlot ready 5 (setBits 0 63 1 1)) 5 = true ∧ ready.host.debugUnlocked = false ∧
      (handed (.nop .debug 0 0)).any (fun h => decide (h.port = .debug)) = true := by decide +kernel

/-- A header without a version fails step 2 of R319, and a NOP with a parameter fails step 6. -/
theorem witness_ChecksRejectInOrder :
    (let h : Handed := ⟨.host, 5, 0, 0x0A05, id⟩
     mayOffer h 5 ready = true ∧ queueReady (offered h 5 ready) = false ∧ (earlyCheck (offered h 5 ready) 5).isSome = true) ∧
    (let h : Handed := ⟨.host, 5, hdr 0, 0x0A05, id⟩
     let s := setSlot ready 5 (params [(0, 8, 1)])
     mayOffer h 5 s = true ∧ passes h.op 5 (offered h 5 s) = true ∧
       (match ((opDef h.op).check 5).run (taken 5 (offered h 5 s)) with
        | .error (.reject r) _ => !r.keep
        | _ => false) = true) := by decide +kernel

/-- CFG_READ in LOAD is turned away, in STARTING it waits, and a packet that waited is taken in READY (R322). -/
theorem witness_DeviceStatesAdmitOpcodes :
    (let h : Handed := ⟨.host, 5, hdr 0, 0x0101, id⟩
     let load := { ready with dev := .load }
     let starting := { ready with dev := .starting }
     mayOffer h 5 load = true ∧ reachesGate 5 (offered h 5 load) = true ∧
       gate .load (slotBits (slotAt (offered h 5 load) 5) 0 16) = .busy ∧
       reachesGate 5 (offered h 5 starting) = true ∧ gate .starting (slotBits (slotAt (offered h 5 starting) 5) 0 16) = .wait ∧
       mayOffer h 5 { ready with dev := .restarting } = true) ∧
    (let s := setSlot { ready with host := { ready.host with handovers := [5] } } 5 (setBits 0 0 64 (0x0A05 + 2 ^ 56 + 2 ^ 63))
     s.host.handovers = [] ++ 5 :: [] ∧ gate s.dev (slotBits (slotAt s 5) 0 16) = .accept ∧ (earlyCheck s 5).isNone = true) := by
  decide +kernel

theorem witness_NopAndLeaseRenewAnswer :
    accepts (.nop .host 5 (hdr 0)) 0 ready = true ∧ accepts (.leaseRenew .host 5 (hdr 0)) 0 ready = true := by decide +kernel

theorem witness_ConfigurationReadsAndCommits :
    accepts (.cfgRead .host 5 (hdr 0)) (params [(0, 8, 11)] ||| params ((List.range 11).map (fun i => (8 + 16 * i, 16, 0x3000)))) ready = true ∧
      accepts (.cfgStatus .host 5 (hdr 0)) (params [(0, 8, 0)]) ready = true ∧
      accepts (.cfgStatus .host 5 (hdr 0)) (params [(0, 8, 4)]) ready = true ∧
      accepts (.cfgDiscard .host 5 (hdr 0)) 0 ready = true ∧ accepts (.cfgCommit .host 5 (hdr 0)) 0 ready = true ∧
      accepts (.cfgCommit .host 5 (hdr 0)) 0
        { ready with cfg := { ready.cfg with stagedHost := [(0x3000 * 256, 20001)] } } = true := by decide +kernel

/-- QUERY, and SET on the host port and as a ceiling on the management port (R397, R398). -/
theorem witness_PowerModesAndHints :
    accepts (.pwrModeQuery .host 5 (hdr 0)) (params [(1, 8, 0xFF)]) ready = true ∧
      accepts (.pwrModeSet .host 5 (hdr 0)) (params [(1, 8, 0xFF), (2, 8, 100)]) ready = true ∧
      accepts (.pwrModeSet .host 5 (hdr 0)) (params [(1, 8, 0), (2, 8, 70)]) ready = true ∧
      accepts (.pwrHintSet .host 5 (hdr 0)) (params [(0, 64, 2000000), (8, 8, 7), (0xA, 8, 32)]) ready = true ∧
      accepts (.pwrHintClear .host 5 (hdr 0)) 0 ready = true ∧ accepts (.pwrHintClearAll .host 5 (hdr 0)) 0 ready = true := by
  decide +kernel

theorem witness_ErrorRecordsAreFetchedAndCleared :
    accepts (.errFetch .host 5 (hdr 0)) (long (params [(0, 16, 1)]) 64) ready = true ∧
      accepts (.errFetchCounters .host 5 (hdr 0)) (long 0 2240) ready = true ∧
      accepts (.errClear .host 5 (hdr 0)) (params [(0, 48, 9), (8, 2, 3)]) ready = true := by decide +kernel

theorem witness_LogAndTraceCommands :
    accepts (.logRead .host 5 (hdr 0)) (long (params [(8, 32, 1)]) 64) ready = true ∧
      accepts (.logStatus .host 5 (hdr 0)) (long 0 576) ready = true ∧
      accepts (.traceCtlEnable .host 5 (hdr 0)) (params [(1, 8, 1), (8, 32, 0xFFFFFFFF)]) ready = true ∧
      accepts (.traceCtlDisable .host 5 (hdr 0)) (params [(1, 8, 1), (8, 32, 0)]) ready = true ∧
      accepts (.traceCtlDisableAll .host 5 (hdr 0)) 0 ready = true ∧ accepts (.traceCtlCount .host 5 (hdr 0)) 0 ready = true := by
  decide +kernel

/-- The rows of SessionsOpenAndAdopt: `witness_sessionOpen` and `witness_sessionAdopt`; entry 1 is the lowest FREE one. -/
theorem witness_SessionsOpenAndAdopt :
    (List.range 256).find? (fun j => (tget Session.reset ready.sessions j).state == .free) = some 1 := by decide +kernel

theorem witness_FirmwareStartsAndHandsOver : accepts (.fwStart .host 5 (hdr 0)) 0
    { ready with dev := .load, fw := { ready.fw with images := (List.range 4).map (fun i => (i, ⟨1, 1, 1, 1, 512, 0⟩)) } } = true := by
  decide +kernel

/-! ### Witnesses: stream code and stream queues -/

/-- A queue of plan 1 in slot 5's command, at the first instruction of its program. -/
def queueA : Queue := { Queue.reset with state := .running, wait := .program, plan := 1, key := 5, regs := List.replicate 16 7 }

/-- Queue 0 of core 0, its program the one word `w`. -/
def atWord (w : Nat) (s : State) : State :=
  withQueue queueA { s with
    pmem := s.pmem.write (4 * 2 ^ 25) (image 320 [(0x14, 64), (64, w)]) false
    str := { s.str with plans := [(1, some ⟨0, 320⟩)] } }

/-- A queue stands at an instruction of two registers, and at one with an immediate at its largest (R200, R201); the other words differ in
their op alone. -/
theorem witness_stream_words :
    [icA 0x1 1 2 3, icB 0x16 0 2 0x1FFFF].all (fun w => decide (atInstr (atWord w ready) 0 0 w = some queueA)) = true := by decide +kernel

/-- Word 7 of core 0 clean, and poisoned. -/
theorem witness_StreamBranchesAndLoads :
    branchOperands 0 1 = true ∧ branchOperands 0 63 = true ∧ (spadRead ready (some 5) 0 7).1 = (0, false) ∧
      (let bad := { ready with spad := { ready.spad with mem := ready.spad.mem.setWord 112 3 true } }
       (spadRead bad (some 5) 0 7).1 = (3, true)) := by decide +kernel

/-- A stream that goes on, and one that is told to stop, at a tile that its program skips. -/
theorem witness_StreamTileDecisions :
    (let s (code : Option Nat) : State := { ready with cmds := [{ newCmd 5 0x0401 0 with stage := .running, stop := code }] }
     stopsHere (s none) queueA.key = none ∧ stopsHere (s (some 0x22)) queueA.key = some 0x22) := by decide +kernel

theorem witness_StreamArithmeticFrame : Table.wf Queue.reset (atWord (icA 1 1 2 3) ready).str.queues = true := by decide +kernel

/-- Register 2 holds 7: a counter at 7 lets CWAIT go on, one at 6 makes it wait; a waiting queue; CARM's limits at their bounds. -/
theorem witness_StreamCounters :
    (let c (n : Nat) : ArrivalCounter := ⟨false, false, false, false, 0, 0, 0, BitVec.ofNat 32 n⟩
     let s (n : Nat) : State := setArrival ready 0 63 (c n)
     (selReg queueA 2).toNat ≤ (arrivalOf (s 7) 0 63).count.toNat ∧ (arrivalOf (s 6) 0 63).count.toNat < (selReg queueA 2).toNat ∧
       queueAt (withQueue { queueA with wait := .counter 63 7 } (s 7)) 0 0 = { queueA with wait := .counter 63 7 }) ∧
    (let x : Nat := 1 + 2047 * 2 ^ 32 + 1 * 2 ^ 43 + 2 ^ 56
     x % 2 ^ 32 ≠ 0 ∧ x / 2 ^ 32 % 2048 + x / 2 ^ 43 % 4096 ≤ 2048 ∧ x / 2 ^ 57 = 0 ∧ x.testBit 55 = false) := by decide +kernel

/-- A window OPEN, one that may open at tick 39, one CLOSING, one in state 3; queues that wait for it. -/
theorem witness_StreamWindows :
    (let w (st : Nat) : Window := { windowOf ready 0 7 with state := st }
     let s : State := { ready with now := 39 }
     let v := opened (windowOf s 0 7) 0 5
     (windowOf (setWindow ready 0 7 (w 1)) 0 7).state = 1 ∧ (windowOf s 0 7).state ≠ 1 ∧ mayOpen s (windowOf s 0 7) = true ∧
       (windowOf (setWindow ready 0 7 (w 3)) 0 7).state = 3 ∧ mayOpen ready (windowOf (setWindow ready 0 7 (w 2)) 0 7) = false ∧
       v.base.toNat ≤ v.limit.toNat ∧ (windowOf (setWindow ready 0 7 (w 2)) 0 7).state ≠ 0 ∧
       (let q := { queueA with wait := .window 7 }
        queueAt (withQueue q s) 0 0 = q ∧ q.state = .running ∧ (windowOf (withQueue q s) 0 7).state = 0) ∧
       (let q := { queueA with wait := .reopen 7 0 }
        queueAt (withQueue q s) 0 0 = q ∧ mayOpen (withQueue q s) (windowOf (withQueue q s) 0 7) = true)) := by decide +kernel

/-- A pair of capacity 1 with its one count full, or taken: a take goes on, a take waits, a post fits, a post is above capacity. -/
theorem witness_StreamSemaphores :
    (let full := setSem ready 0 15 ⟨1, 1, 0⟩
     let gone := setSem ready 0 15 ⟨1, 0, 0⟩
     semCount (semAt full 0 15) true ≠ 0 ∧ semCount (semAt gone 0 15) true = 0 ∧ semPost (semAt gone 0 15) true = some ⟨1, 1, 0⟩ ∧
       semPost (semAt full 0 15) true = none ∧
       (let q := { queueA with wait := .semaphore 15 true false }
        queueAt (withQueue q full) 0 0 = q ∧ q.state = .running ∧ semCount (semAt (withQueue q full) 0 15) true ≠ 0 ∧
          semCount (semAt (withQueue q gone) 0 15) true = 0) ∧
       (let q := { queueA with wait := .semaphore 15 true true }
        queueAt (withQueue q full) 0 0 = q ∧ q.state = .running)) := by decide +kernel

/-- Credit of one granule, with and without a handoff store before it, and credit of none; a unit that is whole; a tagged read of a FULL
and a write of an EMPTY granule, and of those the other way; a timer one tick past its budget, and at it. -/
theorem witness_StreamNoticesTagsAndHangs :
    (let q := { queueA with regs := [0, 0, 2 ^ 19 - 1, 1] }
     let a := (selReg q 2).toNat
     let b := (selReg q 3).toNat
     a.testBit 25 = false ∧ a / 2 ^ 40 = 0 ∧ b % 2 ^ 32 ≠ 0 ∧ a % 2 ^ 19 + b % 2 ^ 32 ≤ 2 ^ 19 ∧ handoffOpen q = false ∧
       handoffOpen { q with unitDone := true } = true ∧ (selReg { q with regs := [0, 0, 0, 0] } 3).toNat % 2 ^ 32 = 0) ∧
    (let q := { queueA with unitDone := true }
     queueAt (withQueue q ready) 0 0 = q ∧ queueRuns (withQueue q ready) 0 q = true) ∧
    (let q (write : Bool) := { queueA with tagWait := some (2047, write, ⟨21, 20⟩) }
     let full := setTags ready 0 2047 1 true
     let empty := setTags ready 0 2047 1 false
     queueAt (withQueue (q false) full) 0 0 = q false ∧ (q false).state = .running ∧
       tagFull (withQueue (q false) full) 0 2047 ≠ false ∧ tagFull (withQueue (q true) empty) 0 2047 ≠ true ∧
       tagFull (withQueue (q false) empty) 0 2047 = false ∧ 20 < (⟨21, 20⟩ : Stall).ran ∧
       hangPlace (withQueue (q true) full) 0 (q true) = some (2047 * 256, 1)) ∧
    (let q (ran : Nat) := { queueA with wait := .window 0, stall := ⟨ran, 20⟩ }
     hangPlace ready 0 (q 21) = some (gaddrOf 0 0, 0) ∧ hangPlace ready 0 (q 20) = none ∧ (q 21).tagWait = none) := by decide +kernel

/-- A tile without transfers, and one with one of two in flight; a queue that has issued nothing; a fenced translation unit. -/
theorem witness_TransfersComplete :
    (let t (done : Bool) : Transfer := { row := 0, byte := 0, bytes := 16, sent := true, done := done }
     let q (l : List Transfer) : Queue := { queueA with issued := [⟨0, 0, List.replicate 6 0, 0, 0, .emit 0 0, l, false⟩] }
     let s (l : List Transfer) := withQueue (q l) (withPlan ready)
     let f : State := { s [] with ras := { ready.ras with fenced := [xltSource 0] } }
     queueRuns (s []) 0 (q []) = true ∧ (queueAt (s []) 0 0).issued ≠ [] ∧ streamFenced (s []) 0 = false ∧ inFlight (q []) = [] ∧
       inFlight (q [t true, t false]) = [(0, 1)] ∧ streamFenced f 0 = true ∧ queueAt f 0 0 = q [] ∧ queueA.issued = []) := by decide +kernel

/-- The one descriptor of plan 1 arrives. -/
theorem witness_BasketsArrive :
    (let q := { queueA with wait := .basket }
     let s := withQueue q (withPlan ready)
     let img := streamImage s q
     let va := cfgVal s 0x4000 0 + (planOf s q.plan).elim 0 (fun p => p.offset) + (planHeader img).descOff + 64 * (streamEntry img 0).first
     queueRuns s 0 q = true ∧ q.basket.length ≤ 8 ∧ q.desc + q.basket.length = 0 ∧ (streamEntry img 0).count = 1 ∧
       (ends (readBasket { whoStream q 0 0 0 with origin := 1 } va 1) s).any
         (fun e => (basketInvalid img ((chunksOf 64 1 e.1).map (fun c => BitVec.ofNat 512 (bytesNat c)))).isNone) = true) := by decide +kernel

/-- A group with a receiver that has held it since tick 0, its budget of 20 µs (768 ticks) over, and a tick before; a group of a loaded
plan of which no receiver stands at its next tile. -/
theorem witness_MulticastGroups :
    (let r : Receiver := ⟨0, 0, 0, true, some 0, 768⟩
     let x (q : Option Nat) : Group := ⟨5, 1, [r], 0, q, 0, 1, 8, [], []⟩
     let s (q : Option Nat) (now : Nat) : State := { ready with now := now, str := { ready.str with groups := [(3, some (x q))] } }
     tget none (s none 768).str.groups (4 * 0 + 3) = some (x none) ∧ 0 + r.budget ≤ (s none 768).now ∧
       (s none 767).now < 0 + r.budget ∧ sourceFaulted (s (some 2) 0) 5 0 2 = false ∧ r.attached = true ∧ r.holdSince = some 0 ∧
       tget none (s (some 2) 0).str.groups (4 * 0 + 3) = some (x (some 2)) ∧ (queueAt (s (some 2) 0) 0 2).wait ≠ .group) := by
  decide +kernel

/-! ### Witnesses: remote writes -/

/-- An ordinary request of core 0 for the last word of core 1, one beyond it, and one for a cluster in K3. -/
theorem witness_OrdinaryWritesAndAcknowledgements :
    (let r (gaddr : Nat) : Word128 := makeRequest 0 0 0 false 0 63 1 false 0xFFFF gaddr
     let off := setCluster ready 0 { awake with k := 3 }
     requestMalformed 0 (r (2 ^ 20 - 1)) = false ∧ targetGone ready 1 = false ∧
       requestMalformed 0 (makeRequest 0 0 0 false 0 63 2 false 0xFFFF (2 ^ 20 - 1)) = true ∧ targetGone off 1 = true ∧
       (0 : BitVec 16).toNat < 0x8000) ∧
    (let ack : AckMsg := ⟨0, ackWord 0 0 1 0 0⟩
     let nak : AckMsg := ⟨0, nakWord 3 0 0 0 0⟩
     ready.spad.admitted = [] ∧ ackCode ack = 0 ∧ ackCode nak ≠ 0 ∧ [nak, ack] = [nak] ++ ack :: [] ∧
       [ack, nak] = [ack] ++ nak :: []) := by decide +kernel

/-- A privileged request of the kettle unit 0xC010 for one word: at the age limit of 3,840 ticks and within [0, 0], one tick too old, and
one beyond the limit (R183). -/
theorem witness_WindowsAdmitPrivilegedWrites :
    (let r (gaddr : Nat) : Word128 := makeRequest 0 9 2 true 0xC010 0 1 false 0xFFFF gaddr
     let w : Window := ⟨1, 9, false, true, false, 0, 0, 0, 0, 0, 6⟩
     let s (now : Nat) : State := setWindow { ready with now := now } 0 2 w
     requestMalformed 0xC010 (r 0) = false ∧ targetGone (s 3840) 0 = false ∧ (3840 % 65536 + 65536 - rqStamp (r 0)) % 65536 ≤ 3840 ∧
       (windowOf (s 3840) 0 2).state = 1 ∧ rqGen (r 0) = (windowOf (s 3840) 0 2).gen ∧ windowAdmits (windowOf (s 3840) 0 2) 0xC010 = true ∧
       0 + rqWords (r 0) ≤ (windowOf (s 3840) 0 2).limit.toNat + 1 ∧ 3840 < (3841 % 65536 + 65536 - rqStamp (r 0)) % 65536 ∧
       (windowOf (s 0) 0 2).limit.toNat + 1 < 1 + rqWords (r 1)) ∧
    (let w (n : Nat) : Window := ⟨2, 9, false, true, false, n, 0, 0, 0, 0, 6⟩
     (windowOf (setWindow ready 0 2 (w 0)) 0 2).state = 2 ∧ (windowOf (setWindow ready 0 2 (w 0)) 0 2).inFlight = 0 ∧
       (windowOf (setWindow ready 0 2 (w 1)) 0 2).inFlight ≠ 0 ∧
       (let e : BitVec 16 × Word128 × List (Word128 × Bool) := (0xC010, makeRequest 0 9 2 true 0xC010 0 1 false 0xFFFF 0, [(1, false)])
        rqGaddr e.2.1 / 2 ^ 19 = 0 ∧ rqWin e.2.1 = 2 ∧ ready.spad.acks = [])) := by decide +kernel

/-- Counters at their targets: with RELOAD at 7 of 3, without at 3 of 3, and one below. -/
theorem witness_ArrivalCountersFire :
    (let c (reload : Bool) (n : Nat) : ArrivalCounter := ⟨true, reload, false, false, 0, 0, 3, BitVec.ofNat 32 n⟩
     (c true 7).target ≠ 0 ∧ (c true 7).target.toNat ≤ (c true 7).count.toNat ∧ (c false 3).target.toNat ≤ (c false 3).count.toNat ∧
       (c true 2).count.toNat < (c true 2).target.toNat) := by decide +kernel

/-! ### Witnesses: memories -/

theorem witness_WordReadsBack : (Mem.setWord Mem.reset 16 5 true).wf = true ∧ 16 % 16 = 0 ∧ 32 % 16 = 0 := by decide +kernel

theorem witness_WriteStoresExactlyItsBytes :
    (Mem.write Mem.reset 15 [1, 2] false).wf = true ∧ (Mem.write Mem.reset 15 [1, 2] false).chk = [] := by decide +kernel


/-! ### Witnesses: placement and plan steps -/

/-- The state after a row, or the state itself where the row stops. -/
def after (i : Instr) (s : State) : State := match exec i s with
  | .next t => t
  | _ => s

/-- A MATMUL of one output tile and one split handed over in slot 5, then placed, and its plan step started. -/
def mmQueued : State := after (.matmul .host 5 (hdr 0x100)) (setSlot ready 5
  (params [(0x48, 32, 1), (0x4C, 32, 1), (0x50, 32, 1), (0x54, 16, 1), (0x5E, 16, 16)]))

def mmPlaced : State := after .commandPlace mmQueued

def mmStarted : State := after (.planStepStart 0) mmPlaced

/-- A command that waits first and cannot be placed, and one that can; and a first command that takes the lowest cluster. -/
theorem witness_CommandsArePlaced :
    (let b : Cmd := { newCmd 4 0x0304 0 with stage := .queued, stop := some 0x22 }
     let s : State := { mmQueued with cmds := { b with order := 0 } :: mmQueued.cmds.map (fun c => { c with order := 1 }) }
     (match placeQueue s with
      | b :: c :: [] => decide (placeOne [] s b = none ∧ (placeOne ([] ++ waitsFor [] s b) s c).isSome = true ∧ procRunning s 2 = true ∧ s.dev = .ready)
      | _ => false) = true) ∧
    (let s := mmQueued
     (match placeQueue s with
      | c :: [] => decide (
       procRunning s 2 = true ∧ s.dev = .ready ∧ stepsHeld s c.key = false ∧ c.stop = none ∧ c.placedAt = none ∧
         isCompute c.opcode = true ∧
         ((List.range 32).filter (fun g => couldTake s c g && !clusterBusy s g)).take (max 1 (octets s c).length) = [0] ∧
         clusterAsleep s 0 = false ∧ s.cmds.all (fun v => v.holds.isEmpty) = true)
      | _ => false) = true) ∧
    procRunning { ready with fw := State.reset.fw } 2 = false ∧ { ready with dev := .load }.dev ≠ .ready := by decide +kernel

/-- A plan step that may start, and one that may not while it is under way; one that is ready to commit. -/
theorem witness_PlanStepsStartAndCommit :
    (match runningOn mmPlaced 0 with
     | some (c, h) => mayStart mmPlaced c h && (match nextStep mmPlaced c h with
       | some x => (!finishesTiles mmPlaced c x || finishReady mmPlaced c x) && ringReady mmPlaced c x && slotsFree mmPlaced c x &&
         queuesFree mmPlaced c 0 x
       | none => false)
     | none => false) = true ∧
    (match runningOn mmStarted 0 with
     | some (c, h) => !mayStart mmStarted c h
     | none => false) = true ∧
    runningOn ready 31 = none ∧ steppingOn ready 31 = none ∧
    (match steppingOn mmStarted 0 with
     | some (c, h) => !h.faulted && clusterUsable mmStarted 0 && !clusterAsleep mmStarted 0 && (match nextStep mmStarted c h with
       | some x => queuesReady mmStarted c 0 x
       | none => false)
     | none => false) = true := by decide +kernel

/-- The step queue of plan 1 has begun its descriptor and holds the plan step's commit back. -/
theorem witness_step_queue :
    (let s := holding 0x0304 { holdA with unit := some 0 } (withQueue queueA (setSlot (withPlan ready) 5
       (params [(0x48, 32, 1), (0x4C, 32, 1), (0x50, 32, 1), (0x54, 16, 1), (0x56, 16, 1), (0x5E, 16, 16)])))
     (match steppingOn s 0 with
      | some (c, h) => (match nextStep s c h with
        | some x => !queuesReady s c 0 x
        | none => false)
      | none => false)) = true := by decide +kernel

/-- Slot 5's command on cluster 0 with one staged tile, with the cluster's control core running and down. -/
def staged : State :=
  holding 0x0304 { holdA with
    recState := 1, staged := [{ kind := 0, asid := 1, dest := 4096, stride := 16, rows := [[(7, false)]] }] } ready

theorem witness_DrainsStoreAndCount :
    [staged, setProc staged 3 { alive with state := .crashed }].all (fun s =>
      match s.cmds with
      | [c] => match c.holds with
        | [h] => h.cluster == 0 && h.rslot == 0 && midStep h && h.unit.isNone && !h.faulted && h.recState == 1 &&
          (match (drainAll (jobOf s c h) h.staged).run s with
           | .ok () u =>
             let v := updHold u c.key 0 (fun h => { h with recState := 3, staged := [] })
             procRunning v 3 == procRunning s 3 && (holdOf v c.key 0).any (fun h => h.recState == 3)
           | .error _ _ => false)
        | _ => false
      | _ => false) = true ∧
      procRunning staged 3 = true := by decide +kernel

/-! ### Witnesses: combining, parity, KV pages -/

/-- Slot 5's MATMUL of one output tile in two splits, with its finishing step under way on cluster 0. -/
def finishing (errors : Nat) : State :=
  holding 0x0304 { holdA with unit := some 1, steps := 1, parityErrors := errors }
    (setSlot ready 5 (params [(0x48, 32, 1), (0x4C, 32, 1), (0x50, 32, 1), (0x54, 16, 2), (0x5E, 16, 16)]))

/-- Two splits whose partials are done, with the node over them formed and not; a partial on another cluster; a range that is not aligned. -/
theorem witness_CombineTree :
    (let row : List RowAcc := [⟨0, 0, false, [(f32One, false)]⟩]
     let s := holding 0x0304 { holdA with steps := 1 }
       (setSlot ready 5 (params [(0x48, 32, 1), (0x4C, 32, 64), (0x50, 32, 1), (0x54, 16, 2), (0x5E, 16, 16)]))
     let t : State := { s with cmds := s.cmds.map (fun c : Cmd => ({ c with parts := [(0, row), (1, row)] } : Cmd)) }
     (match t.cmds with
      | [c] => isCompute c.opcode && splitsOf c.opcode (slotAt t c.key) == 2 && partialCluster t c (splitTask t c 0 0) == some 0 &&
        childReady t c 0 0 0 && childReady t c 0 0 1 && (formedOf c.parts (allNodes c) 0 1 0).isNone &&
        (nodeOf c.opcode (slotAt t c.key) c.parts (allNodes c) 0 1 0).isSome &&
        (formedOf c.parts [(nodeKey 0 1 0, row)] 0 1 0).isSome && partialCluster t c (splitTask t c 0 0) != some 1
      | _ => false) = true) ∧ 1 % 2 ^ 1 ≠ 0 ∧ 2 < 2 + 2 ^ 1 := by decide +kernel

theorem witness_ArrayParityReplays :
    [1, 2].all (fun n => (steppingOn (bumpArr (finishing n) 0 0x68 1) 0).any (fun e => e.2.parityErrors == n) &&
      !isFenced (finishing n) 7) = true ∧ steppingOn (bumpArr ready 0 0x68 1) 0 = none ∧
      isFenced { ready with ras := { ready.ras with fenced := [7] } } 7 = true := by decide +kernel

/-- An allocation for which a page is kept; one that has waited one tick more than PGK_ALLOC_WAIT, and one just as long; one of a
restoration. -/
theorem witness_AllocationWaitsEnd :
    (let a (kept : Bool) (r : Option Nat) : AllocWait := ⟨5, 0, 0, false, none, r, if kept then some (0, 1, 1) else none, false⟩
     let s (x : AllocWait) (now : Nat) : State := { ready with now := now, pgk := { ready.pgk with allocWaits := [x] } }
     let b := allocBudget ready (a false none)
     (s (a true none) 0).pgk.allocWaits = [] ++ a true none :: [] ∧ (a true none).held.isSome = true ∧
       0 + allocBudget (s (a false none) (b + 1)) (a false none) < (s (a false none) (b + 1)).now ∧
       (s (a false none) b).now ≤ 0 + allocBudget (s (a false none) b) (a false none) ∧
       (let t : State := { s (a false (some 7)) (b + 1) with
          pgk := { (s (a false (some 7)) (b + 1)).pgk with restores := [⟨7, 3, 5, 0, []⟩] } }
        t.pgk.restores.find? (fun y => y.page == 7) = some ⟨7, 3, 5, 0, []⟩)) := by decide +kernel

/-- Page 0, of one token, in near frame 0, moving to far frame 0 and back. -/
def hdrA (tier : Nat) : PageHdr := ⟨1, 1, 0, false, false, true, tier, if tier = 1 then 3 else 1, 0, 0, 3, 0, 0, 0, 1, 0, 0, 0, 0, 1⟩

theorem witness_MovesAndRestoresEnd :
    moveOf ready 0 = none ∧
    [false, true].all (fun far =>
      let s : State :=
        { ready with
          pmem := ready.pmem.write (2 ^ 26) (hdrBytes (hdrA (bit (!far)))) false
          pgk := { ready.pgk with moves := [⟨0, far, 0, .automatic, true⟩] } }
      (moveOf s 0).any (fun m => m.toFar == far) &&
      (match (readHdr { die := 0 } 0).run s with
       | .ok h s₁ => h == hdrA (bit (!far)) &&
         (match (copyFrames { die := 0 } (hdrForm h) 0 h.tier h.frame 0 (bit far) 0).run s₁ with
          | .ok () s₂ => (match (writeHdr { die := 0 } 0 { h with frame := 0, tier := bit far, moving := false }).run s₂ with
            | .ok () _ => true
            | .error _ _ => false)
          | .error _ _ => false)
       | .error _ _ => false)) = true := by decide +kernel

/-- A restoration for a sequence without a recipe table fails; one that runs to its end takes the kernel too long to show here. -/
theorem witness_restorations :
    (let s : State :=
       holding 0x0301 holdA { withSeq ready with pgk := { (withSeq ready).pgk with restores := [⟨0, 3, 5, 0, []⟩] } }
     (holdOf s 5 0).any (fun h => !h.faulted) && !stepsHeld s 5 && !stillWaits s 5 0 && (match (runRestore 5 0 0 3).run s with
       | .error (.reject _) _ => true
       | _ => false)) = true := by decide +kernel

/-! ### Witnesses: the code, the scrub -/

/-- A clean and a poisoned word, one wrong symbol at the ends of the ranges, two wrong symbols, a poisoned word with one wrong symbol. -/
theorem witness_CodeGuarantees :
    syndromeOver (encodeGranule 5 false) (List.range 36) = (0, 0, 0, 0) ∧ syndromeOver (encodeGranule 5 true) (List.range 36) = (0, 0, 1, 0) ∧
      syndromeOver (correctSymbol (encodeGranule 5 false) 35 15) (List.range 36) = gfScale 15 (column 35) ∧
      syndromeOver (correctSymbol (encodeGranule 5 false) 0 1) (List.range 36) = gfScale 1 (column 0) ∧
      decodeOutcome (correctSymbol (correctSymbol (encodeGranule 5 false) 0 1) 35 15) = .uncorrectable ∧
      decodeOutcome (correctSymbol (encodeGranule 5 true) 35 15) = .uncorrectable := by decide +kernel

/-- The first and the last granule of a stack, one past the end, and each outcome of the decoder. -/
theorem witness_ScrubWritesBack :
    stackGranule 0 0 = true ∧ stackGranule 31 (BitVec.ofNat 48 (7 * 2 ^ 39 + 0x5FFFFFFFF0)) = true ∧
      stackGranule 28 (BitVec.ofNat 48 (7 * 2 ^ 39 + 0x6000000000)) = false ∧ stackGranule 0 (BitVec.ofNat 48 (2 ^ 42)) = false ∧
      dieCommonOn ready = true ∧ isFenced ready 0xC080 = false ∧
      (match decodeOutcome (ready.pmem.granule 0 ^^^ 1) with
        | .corrected n e => decide (n = 0 ∧ e = 1)
        | _ => false) = true ∧
      decodeOutcome (ready.pmem.granule 0 ^^^ 0x11) = .uncorrectable ∧ decodeOutcome (ready.pmem.granule 0 ^^^ 0) = .clean := by
  decide +kernel

/-! ### Witnesses: far modules, walks, the window, the other ports -/

/-- Events of modules 0 and 15: legal at 1 and 1,024 GiB, reserved at 1,025; every slot state; the die-common domains on and off. -/
theorem witness_FarModules :
    (let e (cap : Nat) : BitVec 64 := BitVec.ofNat 64 (cap * 2 ^ 32 + 16 * 0 + 4 * 2 ^ 48 + 15 * 2 ^ 52)
     enumeratedOk (withEvent 1 (e 1)).toNat = true ∧ enumeratedOk (withEvent 1 (e 1024)).toNat = true ∧
       enumeratedOk (withEvent 1 (e 1025)).toNat = false ∧ eventReserved (withEvent 4 (e 1)).toNat = true ∧
       (farModule ready 15).state = 0 ∧ (farModule ready 15).reported = false) ∧
    (let s (st : Nat) : State := setFar { ready with now := 10 ^ 12 } 15 { FarModule.reset with state := st, reported := true }
     (farModule (s 1) 15).state = 1 ∧ (farModule (s 2) 15).state = 2 ∧ noPagesOn (s 2) 15 = true ∧ (farModule (s 1) 15).reported = true ∧
       (farModule (s 2) 15).evacStart + ticksCeil (scopeVal (s 2) 0x5004 0) ≤ (s 2).now) ∧
    dieCommonOn ready = true ∧ dieCommonOn { ready with pwr := { ready.pwr with device := 5 } } = false := by decide +kernel

/-- A walk of address space 1 for its first address with a leaf at level 1, and without an entry. -/
theorem witness_WalksEnd :
    (let m : MissEntry := ⟨63, 1, 0, [⟨2, 5, 0xFF, 0xFF, 0, 0, 0, 0, 1⟩], none, 0⟩
     let s : State := setMiss { ready with
       pmem := ((ready.pmem.write 4112 (natBytes 8 (2 ^ 63)) false).write 0 (natBytes 8 (2 ^ 63 + 65536)) false).write 65536
         (natBytes 8 (15 * 2 ^ 60)) false } 0 63 (some m)
     let t : State := setMiss ready 0 63 (some m)
     (missAt s 0 63).any (fun m => m.waiters.length == 1) = true ∧ isFenced s (xltSource 0) = false ∧ hasWalker s 0 m = true ∧
       (match (walk { die := 0, key := some 5, cluster := 0xFF } false 1 0 s).1 with
        | .leaf _ => true
        | _ => false) = true ∧
       (walk { die := 0, key := some 5, cluster := 0xFF } false 1 0 t).1 = .fault 4 3) := by decide +kernel

/-- Sizes and offsets at their bounds; a slot of the host and one of firmware; a frozen block. -/
theorem witness_WindowAndCounterBlocks :
    (8 ≠ 4 ∧ 12 % 8 ≠ 0 ∧ 0xBFF8 % 8 = 0 ∧ 0x8000 ≤ 0xBFF8 ∧ slotOwned ready 63 = false ∧
      slotOwned (setSlot ready 63 (setBits 0 63 1 1)) 63 = true ∧ 8 ≤ 0xBFF8 % 256 ∧ 0x1F8 < 0x200) ∧
    Table.wf 0 ready.counters = true ∧
    (match exec (.counterFreeze (.array 0) true) ready with
     | .next t => ctrFrozen t (blockBase (.array 0)) && decide (t.log.traceOn = 0)
     | _ => false) = true := by decide +kernel

/-- The target with and without an address; the debug port asked to unlock, and to lock; the security core running and not. -/
theorem witness_ManagementAndDebugPorts :
    ready.host.i3cAddress = none ∧ { ready.host with i3cAddress := some 8 }.i3cAddress.isSome = true ∧ (0xFC : Byte).toNat % 4 = 0 ∧
      slotOwned ready 68 = false ∧ (0 : SlotWord).getLsbD 63 = false ∧ ready.host.debugUnlocked = false ∧
      (let s (v : Nat) (on : Bool) : State :=
         { ready with
           cfg := { ready.cfg with committed := tset 0 ready.cfg.committed (0xB000 * 256) (v + 1) }
           host := { ready.host with debugUnlocked := on } }
       cfgVal (s 1 false) 0xB000 0 = 1 ∧ cfgVal (s 2 true) 0xB000 0 = 2 ∧ procRunning (s 1 false) 0 = true ∧
         (s 1 false).host.debugUnlocked = false ∧ (s 2 true).host.debugUnlocked = true) ∧
      procRunning State.reset 0 = false := by decide +kernel

/-- An opcode that the table does not have; an interim status 10 µs old; a drain that is quiescent; a hint at its time and before. -/
theorem witness_SlotEventsAct :
    (slotKey .host 63 = some 63 ∧ slotOwned ready 63 = false ∧ ready.host.handovers = [] ∧ nothingAnswers ready = false ∧
      opcodeTable.any (fun e => e.1 == (hdr 0).toNat % 65536) = false ∧
      (let t := setSlot ready 63 (setBits (setBits (slotAt ready 63) 0 64 (hdr 0).toNat) 63 1 1)
       slotBits (slotAt t 63) 56 4 = 1 ∧ slotBits (slotAt t 63) 32 8 = 0 ∧ slotBits (slotAt t 63) 49 7 = 0 ∧ slotBits (slotAt t 63) 60 3 = 0 ∧
         hdrField (slotAt t 63) 0x1C 32 = 0 ∧ hdrField (slotAt t 63) 0x20 64 = 0 ∧ hdrField (slotAt t 63) 0x28 64 = 0 ∧
         hdrField (slotAt t 63) 0x30 64 = 0 ∧ hdrField (slotAt t 63) 0x38 64 = 0)) ∧
    (let c : Cmd := { newCmd 5 0x0304 0 with stage := .queued, lastInterim := some 0 }
     let s : State := { ready with now := 384, cmds := [c] }
     cmdOf s 5 = some c ∧ 0 + ticksCeil 10000 ≤ s.now ∧ BitVec.ofNat 32 (statusWord s (interimCode c) (slotSeq s 5)) ≠ c.lastStatus) ∧
    (let c : Cmd := { newCmd 5 0x0103 0 with stage := .draining }
     let s : State := { ready with dev := .draining, cmds := [c] }
     drainingCommit s = some c ∧ s.dev = .draining ∧ quiescent s 5 = true ∧ (match (finishCommit 5).run { s with dev := .ready } with
       | .ok _ _ => true
       | .error _ _ => false) = true) ∧
    (let s (now : Nat) : State := { setHint ready 7 (some ⟨100, 1, 0⟩) with now := now }
     tget none (s 100).pwr.hints 7 = some ⟨100, 1, 0⟩ ∧ 100 ≤ (s 100).now ∧ (s 99).now < 100) := by decide +kernel

/-- Registers that R263 takes, and refuses; a unit without a command; the last row of four, its unit fenced and not; a row that meets a
translation fault, and one on a die whose unit is fenced. -/
theorem witness_UpdateUnits :
    ((23 : BitVec 5).toNat ∈ [1, 2, 3, 16, 17, 18, 19, 20, 21, 22, 23] ∧ (0 : BitVec 5).toNat ∉ [1, 2, 3, 16, 17, 18, 19, 20, 21, 22, 23] ∧
      (23 : BitVec 5).toNat < 24 ∧ ¬ (24 : BitVec 5).toNat < 24) ∧
    (let s : State :=
       { setSlot ready 5 (params [(0x50, 32, 1), (0x54, 32, 4), (0x58, 32, 1)]) with
         cmds := [{ newCmd 5 0x0502 0 with stage := .running }]
         xlt := { ready.xlt with dieCache := [(0, [{ leaf 1 with entry := 0xF800000000000000 }])] }
         upd := ⟨[(0, { UpdUnit.reset with key := some 5 })], [(0, [updWord 1 16 1 1 0])]⟩ }
     (unitAt ready 0).key = none ∧ (unitAt s 0).key = some 5 ∧ (unitAt s 0).faulted = false ∧ stepsHeld s 5 = false ∧ dieCommonOn s = true ∧
       (unitAt s 0).cursor < (updArgs (slotAt s 5)).rows ∧ isFenced s 0xC080 = false ∧
       isFenced { s with ras := { s.ras with fenced := [0xC080] } } 0xC080 = true ∧
       (match (updRow 5 0 0).run s with
        | .ok _ _ => true
        | .error _ _ => false) = true ∧
       (match (updRow 5 0 0).run { s with xlt := { s.xlt with dieCache := [] } } with
        | .error (.fault _) _ => true
        | _ => false) = true ∧
       (match (updRow 5 0 0).run { s with ras := { s.ras with fenced := [xltSource 0] } } with
        | .error (.fault _) _ => false
        | .error _ _ => true
        | _ => false) = true) := by decide +kernel


/-! ### Witnesses: deadlines, the lease, processors -/

/-- A deadline of 1,000 µs, 38,400 ticks: one tick late, and at its tick; the lease at its expiry, a tick before, and after its grace. -/
theorem witness_DeadlinesAndLease :
    (let c : Cmd := { newCmd 5 0x0304 0 with stage := .running, steps := 1, stepsPlanned := 1, placedAt := some 0 }
     let s (now : Nat) : State :=
       { setSlot ready 5 (setBits (setBits 0 (8 * 8) 64 1000000) 0 64 (hdr 0x100).toNat) with now := now, cmds := [c] }
     cmdOf (s 38401) 5 = some c ∧ c.stage ≠ .checking ∧ procRunning (s 38401) 2 = true ∧ isLate (s 38401) 5 = true ∧ c.missed = false ∧
       deadlineRuns (s 38401) 5 = true ∧ isLate (s 38400) 5 = false ∧ deadlineTicks (slotAt (s 38400) 5) = some 38400 ∧
       slackTicks (s 38400) c 38400 * 10000 < (cmdVal (s 38400) c 0xA001 0 : Int) * 384 ∧ c.atRisk = false) ∧
    (let l (st : LeaseState) : Lease := { Lease.reset with state := st, expiry := 100, grace := 10, adoptBy := some 100 }
     let s (st : LeaseState) (now : Nat) : State := { ready with lease := l st, now := now }
     (s .held 100).lease.expiry ≤ (s .held 100).now ∧ (s .held 99).now < (s .held 99).lease.expiry ∧
       (s .lapsed 110).lease.expiry + (s .lapsed 110).lease.grace ≤ (s .lapsed 110).now ∧ drainingCommit (s .lapsed 110) = none ∧
       (s .lapsed 109).now < 100 + 10 ∧ leaseNear (s .held 99) = true ∧ procRunning (s .held 99) 2 = true ∧ (s .held 99).dev = .ready) := by
  decide +kernel

/-- A live processor at its watchdog's time and a tick before; a crashed one; processors 0 and 34. -/
theorem witness_ProcessorCrashes :
    (procOf ready 34).state = .running ∧ (procOf (setProc ready 34 { alive with state := .frozen }) 34).state = .frozen ∧
      (let s (now : Nat) : State := { ready with now := now }
       (procOf ready 34).lastKick + ticksCeil (watchdogNs 34) ≤ (s (ticksCeil (watchdogNs 34))).now ∧
         (s (ticksCeil (watchdogNs 34) - 1)).now < (procOf ready 34).lastKick + ticksCeil (watchdogNs 34)) ∧
      (procOf (setProc ready 0 { alive with state := .crashed }) 0).state = .crashed ∧ Table.wf Proc.reset ready.fw.procs = true ∧
      ready.dev = .ready ∧ tget 0 ready.fw.probation (kindOf 0) ≤ ready.now := by decide +kernel

/-- Crashed processors 34, 2, 1 and 0; the third crash in 1 s; an image of no bytes with its digest, and with another; a probation. -/
theorem witness_ProcessorRestarts :
    (let s (i : Nat) : State := setProc ready i { alive with state := .crashed }
     mayRestart (s 34) 34 = true ∧ (procOf (s 34) 33).state ≠ .crashed ∧ mayRestart (s 2) 2 = true ∧ mayRestart (s 1) 1 = true ∧
       mayRestart (s 0) 0 = true ∧ procRunning (restartProc (s 0) 0) 0 = false ∧ mayRestart ready 34 = false ∧ mayRestart ready 2 = false ∧
       mayRestart ready 1 = false ∧ mayRestart ready 0 = false) ∧
    (let p : Proc := { alive with state := .crashed, crashTimes := [38400000 * 10, 5, 0] }
     thirdCrash { p with crashTimes := [384000, 5, 0] } = true ∧ thirdCrash p = false) ∧
    (let s (d : Nat) : State := { ready with fw := { ready.fw with images := [(0, ⟨1, 1, 1, 1, 0, d⟩)], probation := [(3, 7)] } }
     retainedGood (moveProc (s (sha384 [])) 0 .restarting 0 0) 0 = true ∧ retainedGood (moveProc (s 1) 0 .restarting 0 0) 0 = false ∧
       tget 0 (s 1).fw.probation 3 = 7 ∧ tget 0 (s 1).fw.probation 0 = 0 ∧ Table.wf Proc.reset (s 1).fw.procs = true ∧
       (let u := restartProc { setProc (s (sha384 [])) 0 { alive with state := .crashed } with
          lease := { ready.lease with suspendedAt := some 1 } } 0
        procRunning u 0 = true ∧ u.lease.suspendedAt = some 1 ∧ u.ras.fatals = 0 ∧ (procOf u 2).state = .running)) := by decide +kernel

/-! ### Witnesses: power -/

/-- A cluster in K0 with nothing to run; entries under way of a cluster that may go on, that is fenced, and of the device, which may and may
not; power-management firmware running and not. -/
theorem witness_PowerStatesAreEntered :
    (clusterPower ready 31).powered = true ∧ (clusterPower ready 31).k = 0 ∧ ready.pwr.device = 0 ∧ clusterIdleNow ready 31 = true ∧
      (clusterPower (setCluster ready 31 { awake with k := 1 }) 31).k ≠ 0 ∧
      (let s (l : Table (Nat × Nat)) : State := { ready with pwr := { ready.pwr with entering := l } }
       let e := tget (0, 0) (s [(31, (2, 1))]).pwr.entering 31
       e ≠ (0, 0) ∧ clusterHeld (s [(31, (2, 1))]) 31 = false ∧ clusterFenced (s [(31, (2, 1))]) 31 = false ∧
         (clusterPower ready 31).k + 1 < e.1 ∧ (tget (0, 0) (s [(31, (1, 0))]).pwr.entering 31).1 ≤ (clusterPower ready 31).k + 1 ∧
         clusterFenced { s [(31, (2, 1))] with ras := { ready.ras with fenced := [0xC040 + 31] } } 31 = true ∧
         tget (0, 0) (s [(32, (4, 0))]).pwr.entering 31 = (0, 0) ∧ mayK4 (s [(32, (4, 0))]) = false ∧
         (tget (0, 0) (s [(32, (5, 4))]).pwr.entering 32) = (5, 4) ∧ (s [(32, (5, 4))]).pwr.selfRefresh = false ∧
         (s [(32, (5, 4))]).cmds.all (letsSleep (s [(32, (5, 4))])) = true) ∧
      mayK4 { ready with
        cfg := { ready.cfg with committed := ready.cfg.committed ++ (List.range 8).map (fun d => (0x8010 * 256 + d, 2)) }
        pwr := { ready.pwr with clusters := (List.range 32).map (fun g => (g, { awake with k := 3 })) } } = true ∧
      mayK5 { ready with pwr := { ready.pwr with device := 4 } } = true ∧
      procRunning ready 1 = true ∧ tget (0, 0) ready.pwr.entering 32 = (0, 0) ∧ ready.pwr.wakeDevice = false ∧
      procRunning State.reset 1 = false := by decide +kernel

/-- No cluster fenced, and one that is; an armed wake at its tick and before; wakes of nothing, of the die-common domains, of clusters. -/
theorem witness_WakesComplete :
    (List.range 32).all (fun g => !clusterFenced ready g) = true ∧
      clusterFenced { ready with ras := { ready.ras with fenced := [0xC040 + 31] } } 31 = true ∧
      (let s : State := { ready with pwr := { ready.pwr with wakeStart := some 10 } }
       s.pwr.wakeStart = some 10 ∧ { s with now := 9 }.now < 10 ∧ 10 ≤ { s with now := 10 }.now) ∧
      ready.pwr.waking = 0 ∧ ready.pwr.wakeDevice = false ∧
      (let s (d : Nat) (full : Bool) (w : BitVec 32) : State :=
         { ready with pwr := { ready.pwr with device := d, waking := w, wakeDevice := true, wakeFull := full } }
       (s 5 false 0).pwr.wakeDevice = true ∧ 4 ≤ (s 5 false 0).pwr.device ∧ (s 5 false 0).pwr.wakeFull = false ∧
         4 ≤ (s 4 true 1).pwr.device ∧ (s 4 true 1).pwr.wakeFull = true ∧ (s 3 false 1).pwr.device < 4 ∧ (s 3 false 1).pwr.waking ≠ 0) := by
  decide +kernel

/-- The Deskside envelope of 700 W: averages of 686 W and 687 W, projections of 630 W and 629 W; sensors at and below the limits. -/
theorem witness_ClocksFollowSamplesAndLimits :
    procRunning ready 1 = true ∧ procRunning State.reset 1 = false ∧ envelopeWatts ready.pwr.envEff = 700 ∧ 700 * 98 < 687 * 100 ∧
      686 * 100 ≤ 700 * 98 ∧ 700 * 90 ≤ 630 * 100 ∧ 629 * 100 < 700 * 90 ∧
      (let s : State := { ready with cfg := { ready.cfg with committed := tset 0 ready.cfg.committed (0x8002 * 256) 4 } }
       (cfgVal s 0x8002 0).testBit 2 = false ∧ (cfgVal s 0x8002 0).testBit 3 = false ∧ (cfgVal s 0x8002 0).testBit 0 = true) ∧
      tget (0, 0, 0) ready.pwr.demoteBase 7 = (0, 0, 0) ∧ ready.pwr.tjEff ≤ 100 ∧ (clusterPower ready 0).hotSince = none ∧
      (clusterPower ready 31).stopped = false := by decide +kernel

/-! ### Witnesses: the die ring -/

/-- Fourteen granules of zeros under valid codes. -/
def gsZero : List Granule := List.replicate 14 (encodeGranule 0 false)

/-- A flit kept for replay, `n` times. -/
def withFlit (n : Nat) (s : State) : State :=
  setRing s 15 { RingLink.reset with txSeq := 1, replayBuf := [(bareFlit 7 0 1 0, gsZero)], frontReplays := n }

/-- Every type, in order, out of order and under a wrong hcrc, for the last die and for another; a NAK of the oldest flit at 7 and 8
replays; a link end with nothing kept, and one with more than eight replays. -/
theorem witness_RingFlitsAndReplay :
    gsZero.length = 14 ∧ (ringAt ready 15).down = false ∧ dieCommonOn ready = true ∧ ringEnd 7 true = 15 ∧
      [1, 2, 3, 4, 5, 6].all (fun t => flitType (bareFlit 0 7 t 0) == t &&
        headerCrc (bareFlit 0 7 t 0) == (bareFlit 0 7 t 0).toNat % 256) = true ∧
      gsZero.any granuleBroken = false ∧ flitSeq (bareFlit 0 7 1 0) = (ringAt ready 15).rxSeq ∧
      flitSeq (bareFlit 0 7 1 4095) ≠ (ringAt ready 15).rxSeq ∧
      headerCrc (bareFlit 0 7 1 0 ^^^ 1) ≠ (bareFlit 0 7 1 0 ^^^ 1).toNat % 256 ∧ ¬ flitType (bareFlit 0 7 7 0) < 7 ∧
      gsZero.all (fun g => decodeOutcome g == .clean || decodeOutcome g == .poison) = true ∧ (ringAt ready 15).nakSent = false ∧
      (ringAt (setRing ready 15 { RingLink.reset with nakSent := true }) 15).nakSent = true ∧ flitDst (bareFlit 0 7 1 0) = 7 ∧
      flitDst (bareFlit 7 0 1 0) = 0 ∧ (ringAt ready 15).replayBuf = [] ∧
      [7, 8, 9].all (fun n => (ringAt (withFlit n ready) 15).frontReplays == n && !(ringAt (withFlit n ready) 15).down &&
        (ringAt (withFlit n ready) 15).replayBuf.map (fun f => flitSeq f.1) == [flitSeq (bareFlit 0 7 5 0)]) = true := by decide +kernel

theorem witness_RingReplayStaysInOrder :
    ringInOrder (withFlit 0 ready) = true ∧
      (match step { withFlit 0 ready with pending := [.ringNak 7 true (bareFlit 0 7 5 0) gsZero] } with
       | .next t => ringInOrder t
       | _ => false) = true := by decide +kernel

/-! ### Witnesses: kettle links -/

/-- Port 3 of this package in a state. -/
def withPort (st : Nat) (s : State) : State := setPort s 3 { KtlPort.reset with state := st, routed := true, changedAt := 0 }

/-- A frame from package 1 to a package, with its first payload word. -/
def frameOf (type dst addr seq : Nat) (w : Word128) : List Granule :=
  buildFrame { type := type, dst := dst, src := 1, vc := 0, len := 1, addr := addr } seq 0 [(w, false)]

/-- A control message of a type (R284). -/
def ctrl (n : Nat) : Word128 := BitVec.ofNat 128 (n * 2 ^ 112)

/-- Whether port 3 takes a frame for this package of a type (KettleFramesAreCarried). -/
def takes (s : State) (f : List Granule) (type : Nat) : Bool :=
  let h := frameHead f
  f.length == 33 && ((portAt s 3).state == 4 || (portAt s 3).state == 6) && !frameBroken f && h.dst == ownPkg s &&
    headSeq (frameTop f) == (portAt s 3).rxSeq && h.type == type

/-- A frame of each row, by its type and message; one out of order, one for package 1, one at a port in DETECT; a unit that is down. -/
theorem witness_KettleFramesAreCarried :
    [(1, 0), (2, 0), (3, 0), (4, 0), (5, 0), (6, 1), (6, 2), (6, 3), (9, 0)].all (fun e =>
      let f := frameOf e.1 0 0 0 (ctrl e.2)
      takes (withPort 4 ready) f e.1 && ((frameWord f 1).1.extractLsb' 112 16).toNat == e.2) = true ∧
      takes (withPort 4 ready) (frameOf 1 0 0 1 0) 1 = false ∧ takes (withPort 4 ready) (frameOf 1 1 0 0 0) 1 = false ∧
      takes (withPort 1 ready) (frameOf 1 0 0 0 0) 1 = false ∧
      mustHold (linkTakeOwn (withPort 4 ready) 3 (frameOf 2 0 0 0 0) true) (frameOf 2 0 0 0 0) = false ∧
      mustHold { withPort 4 ready with pwr := { ready.pwr with device := 5 } } (frameOf 2 0 0 0 0) = true := by decide +kernel

/-- Each frame of the link level, by type and subtype, in and out of order; IDENTs that agree and do not, in IDENT and in RETRAIN; a frame for
package 1 by port 0 after 14 and 13 hops. -/
theorem witness_KettleLinkFramesAct :
    (let f (type sub seq : Nat) := frameOf type 0 sub seq (ctrl 4)
     let r (type sub seq : Nat) :=
       ((frameHead (f type sub seq)).type, (frameHead (f type sub seq)).addr % 256, headSeq (frameTop (f type sub seq)))
     (f 0 0 0).length = 33 ∧ (portAt (withPort 4 ready) 3).rxSeq = 0 ∧ ownPkg ready = 0 ∧ r 0 0 0 = (0, 0, 0) ∧ r 7 0 4095 = (7, 0, 4095) ∧
       r 15 0 0 = (15, 0, 0) ∧ r 7 3 0 = (7, 3, 0) ∧ r 1 0 1 = (1, 0, 1) ∧ r 6 0 0 = (6, 0, 0) ∧ r 7 2 0 = (7, 2, 0) ∧ r 7 1 0 = (7, 1, 0) ∧
       frameBroken (f 6 0 0) = false ∧ ((frameWord (f 6 0 0) 1).1.extractLsb' 112 16).toNat = 4 ∧
       frameBroken ((f 6 0 0).set 32 (encodeGranule 0 false ^^^ 0x11)) = true) ∧
      (portAt (linkTakeOwn (withPort 6 ready) 3 (frameOf 7 0 2 0 0) true) 3).state = 6 ∧
      (portAt (linkTakeOwn (withPort 4 ready) 3 (frameOf 7 0 1 0 0) true) 3).state = 4 ∧
      (let w : Word128 := BitVec.ofNat 128 (2 + 1 * 16 + 2 * 2 ^ 11 + 1 * 2 ^ 16 + identMember * 2 ^ 32)
       let s (st : Nat) : State := setPort ready 3 { KtlPort.reset with state := st, lanesLocked := 0xFF }
       let t (st : Nat) := noteIdent (linkTakeOwn (s st) 3 (frameOf 8 0 0 0 w) false) 3 w
       (frameHead (frameOf 8 0 0 0 w)).type = 8 ∧ (portAt (s 5) 3).state = 5 ∧ (portAt (s 5) 3).lanesLocked ≠ 0 ∧
         identAgrees (t 5) 3 w = true ∧ identAgrees (t 3) 3 w = true ∧ (portAt (s 3) 3).state = 3 ∧ identAgrees (s 3) 3 0 = false) ∧
      (let s := setPort (withPort 4 ready) 0 { KtlPort.reset with state := 4, routed := true }
       let f := frameOf 1 1 0 0 0
       (frameHead f).dst ≠ ownPkg s ∧ (frameHead f).type < 10 ∧ (forwardPort (linkTake s 3 f true) (frameHead f)).1.isSome = true ∧
         (frameHead f).hops = 0 ∧ (forwardPort (linkTake (setPort ready 3 { KtlPort.reset with state := 6 }) 3 f true) (frameHead f)).1 = none ∧
         (frameHead (buildFrame { frameHead f with hops := 14 } 0 0 [])).hops = 14) := by decide +kernel

/-- Each state at its time and a tick before; 7 and 8 lanes; all 16 lanes locked, and 8 of them. -/
theorem witness_KettlePortsChangeState :
    laneCount 0xFF = 8 ∧ laneCount 0x7F = 7 ∧ lockWidth { KtlPort.reset with state := 2 } 0xFFFF = 16 ∧
      lockWidth { KtlPort.reset with width8 := true } 0xFF00 = 8 ∧ lockWidth KtlPort.reset 0xFF = 0 ∧
      (let s (st now : Nat) : State := { withPort st ready with now := now }
       (List.range 9).all (fun st => (portAt (s st 0) 3).state == st) = true ∧
         (portAt (s 3 0) 3).identSentAt + ticksCeil 1000 ≤ (s 3 (ticksCeil 1000)).now ∧
         0 + ticksCeil 50000000 ≤ (s 2 1920000).now ∧ 0 + ticksCeil 100000 ≤ (s 3 3840).now ∧ 0 + ticksCeil 5000000 ≤ (s 5 192000).now ∧
         0 + ticksCeil 1000000 ≤ (s 6 38400).now ∧ (portAt (s 5 0) 3).routed = true) ∧
      (let c : Cmd := { newCmd 5 0x0301 0 with stage := .running, ringWaits := [(.done 1, 0)] }
       let s : State := { ready with cmds := [c] }
       cmdOf s 5 = some c ∧ s.now < 0 + ticksCeil (cmdVal s c 0x700C 0)) := by decide +kernel

/-! ### Witnesses: the clauses of AdmittedCommandCompletes, ConfigurationReadsAndCommits, WalksEnd and KettlePortsChangeState -/

/-- A CFG_WRITE whose entries are all in range, and one with a long reply whose value is clamped. -/
theorem witness_cfgWrite_entries :
    [(params [(0, 8, 1), (8, 16, 0x3000), (16, 64, 20000)], false), (long (params [(0, 8, 1), (8, 16, 0x5003), (16, 64, 0x50)]) 64, true)].all
      (fun e =>
        let s := setSlot ready 5 e.1
        (handed (.cfgWrite .host 5 (hdr 0))).any (fun h => mayRun h 5 s &&
          (let a := working h 5 s
           let p := slotAt a 5
           match ends (stageEntries p (param p 0 8) a.cfg.committed (staging a (portOf 5))) a with
           | some ((_, cl, _), _) => (cl != []) == e.2 && (hdrField p 0x10 64 != 0) == e.2
           | none => false))) = true := by decide +kernel

/-- The moves of slot 5's KV_DEMOTE have all ended. -/
theorem witness_moves_ended :
    (let c : Cmd := { newCmd 5 0x0208 0 with stage := .moving }
     let s : State := { ready with cmds := [c] }
     s.cmds = [c] ∧ c.stage = .moving ∧ c.opcode = 0x0208 ∧ s.pgk.moves.any (fun m => m.reason == .command c.key) = false) := by decide +kernel

/-- Slot 5's FAULT_RESOLVE of no answers, with no walk of it under way. -/
theorem witness_WalksEnd_resolve :
    (let c : Cmd := { newCmd 5 0x0902 0 with stage := .inProgress }
     let s : State := { ready with cmds := [c] }
     cmdOf s 5 = some c ∧ param (slotAt s 5) 0xD 8 ≤ c.round ∧ s.xlt.miss = []) := by decide +kernel

/-- LINK_DETACH of port 3 in TRAIN, and in ACTIVE with and without FORCE. -/
theorem witness_linkDetach_states :
    [(2, 0), (4, 0), (4, 1), (5, 1)].all (fun e =>
      let s := setPort ready 3 { KtlPort.reset with state := e.1 }
      let s := setSlot s 5 (params [(0, 8, 3), (1, 8, e.2)])
      (handed (.linkDetach .host 5 (hdr 0))).any (fun h => mayRun h 5 s &&
        (let a := working h 5 s
         (portAt a (param (slotAt a 5) 0 8)).state == e.1 && paramBit (slotAt a 5) 1 0 == (e.2 == 1)))) = true := by decide +kernel

/-- FW_LOAD of an image of 512 bytes of kind 0: its checks before R362's pass, and its command runs. -/
theorem witness_fwLoad :
    (let s := setSlot { ready with dev := .load } 5 (params [(8, 32, 512)])
     (handed (.fwLoad .host 5 (hdr 0))).any (fun h => mayOffer h 5 s && passes h.op 5 (offered h 5 s) &&
       (let x := taken 5 (offered h 5 s)
        let p := slotAt x 5
        param p 0 64 % 64 == 0 && param p 8 32 == 512 && param p 0xC 8 == 0 && param p 0xD 24 == 0 && (ends (reservedFrom p 0x10) x).isSome &&
          runsNow 5 (admitted 5 [] x)))) = true := by decide +kernel

/-! ### The manual's own examples -/

/-- spec/02_number_formats.md R39, R40: the case of seed 0x0123456789ABCDEF, its counter words, and the two roundings of 1.00390625. -/
theorem test_stochastic_store :
    (37 * 128 + 90) / 8 = 0x25B ∧ srC0 3 + 0x25B = 0x0003025B ∧ srC2 2 0 5 = 0x00020005 ∧
      narrowCode fmtBf16 (.stoch 0x9C40) (f32Num 0x3F808000) = 0x3F81 ∧ narrowCode fmtBf16 (.stoch 0x1234) (f32Num 0x3F808000) = 0x3F80 := by
  decide +kernel

/-- spec/02_number_formats.md R43: six splits padded to eight; the tree's root and the sum in order of arrival. -/
theorem test_combine_tree :
    let p : F32 := 0x33800000
    padSplits 6 = 8 ∧ fAdd p p = 0x34000000 ∧ fAdd f32One 0 = f32One ∧ fAdd (fAdd p p) (fAdd f32One 0) = 0x3F800001 ∧
      fAdd (fAdd (fAdd 0 f32One) p) p = 0x3F800000 := by decide +kernel

/-- spec/04_attention_dataflow.md R75, R76: the weights of the traced tile as BF16, the stored output, and the logsumexp
3.7740228, which the manual shows as 3.774022. -/
theorem test_attention_row :
    let c := fMul 0x3E000000 f32Log2E
    let m := fMul c 0x41C00000
    let p := fun x : F32 => BitVec.ofNat 32 (narrowCode fmtBf16 .rne (f32Num (fExp2 (fSub (fMul c x) m))) * 65536)
    let pf := [p 0x41C00000, p 0x41800000, p 0x41000000, p 0xC1000000]
    let alpha := fExp2 (fSub 0x40000000 m)
    let l := fAdd (fMul alpha 0x40500000) (pf.foldl fAdd 0)
    let o := fFma (pf.getD 3 0) 0x40800000 (fFma (pf.getD 2 0) 0x3F000000 (fFma (pf.getD 1 0) 0xBF800000
      (fFma (pf.getD 0 0) 0x40000000 (fMul 0x3FC00000 alpha))))
    pf = [0x3F800000, 0x3EBC0000, 0x3E0B0000, 0x3C960000] ∧ narrowCode fmtBf16 .rne (f32Num (fMul o (fRcp l))) = 0x3F75 ∧
      fMul (fAdd m (fLog2 l)) f32Ln2 = 0x40718997 := by decide +kernel

/-- spec/08_streams.md R202: the first word of the gather program, its immediate −0x1000 in 17 bits. -/
theorem test_stream_word : icB 0x16 2 16 0x1F000 = 0x58A1F000 := by decide +kernel

/-- The program of spec/10_update_units.md, word for word. -/
def moments : List (BitVec 32) :=
  [0x0C00F000, 0x0C449000, 0x18A0B880, 0x0CA10000, 0x0CC6A000, 0x18E4C980, 0x35044000, 0x35465000, 0x256A0000, 0x156AD000, 0x35295000,
    0x0D82E000, 0x18688B00]

/-- spec/10_update_units.md: the program on the traced element, step 2. -/
theorem test_update_program :
    let start : Lane := [(0, 0x43000000), (1, 0x3F401234), (2, 0x3E800000), (3, 0x3D800000), (4, biasTerm 0x3F600000 2),
      (5, biasTerm 0x3F7E0000 2), (6, f32OfNat 2), (7, f32One), (8, 0xBA800000), (9, 0x3F600000), (10, 0x3F7E0000), (11, 0x3E000000),
      (12, 0x3C000000), (13, 0x35800000), (14, 0x3F7FFF80), (15, 0x3B800000)]
    let lane := moments.foldl (laneStep id) start
    biasTerm 0x3F600000 2 = 0x3E700000 ∧ laneGet lane 1 = 0x3F3FEBF2 ∧ laneGet lane 2 = 0x3E900000 ∧ laneGet lane 3 = 0x3D830000 ∧
      laneGet lane 22 = 0x3F4011D4 := by decide +kernel

/-- spec/16_errors.md R407: the granule of the encoded case, its error in symbol 7, and the same error in the poisoned granule. -/
theorem test_code_case :
    checkBits 5 = 0xD0AF ∧ (encodeGranule 5 true).extractLsb' 128 16 = 0x51AE#16 ∧
      decodeOutcome (correctSymbol (encodeGranule 5 false) 7 3) = .corrected 7 3 ∧
      decodeOutcome (correctSymbol (encodeGranule 5 true) 7 3) = .uncorrectable := by decide +kernel

/-- spec/00_scope.md: 1,000,000 ns are 38,400 ticks, 1,000 ns round up to 39. -/
theorem test_ticks : ticksFloor 1000000 = 38400 ∧ ticksCeil 1000 = 39 := by decide +kernel

/-- The four entries of the case of spec/12_host_interface.md R328, in slot 9 with seq 0x5C and the newest epoch 0x17. -/
def stagingCase : State :=
  { setSlot ready 9 (params [(0, 8, 4), (8, 16, 0x5003), (16, 64, 0x50), (24, 16, 0x4010), (26, 8, 2), (32, 64, 0x000A1450),
      (40, 16, 0x4002), (48, 64, 0x1F4), (56, 16, 0x3000), (64, 64, 2000000)]) with
    cfg := { ready.cfg with epoch := 0x17, history := [(0x17, ready.cfg.committed)] } }

/-- spec/12_host_interface.md R328: hdr, result, detail kind and count, status and state of the reply, and its first two clamps. -/
theorem test_staging_reply :
    (match exec (.cfgWrite .host 9 0x01005C0000000000) stagingCase with
     | .next t =>
       let p := slotAt t 9
       [hdrField p 0 64, hdrField p 8 64, hdrField p 0x14 8, hdrField p 0x15 8, hdrField p 0x16 8, hdrField p 0x20 32, hdrField p 0x24 32] ==
           [0x01005C0000000102, 0x00030004, 2, 3, 0, 0x0017015C, 0x00001702] &&
         [hdrField p 0x40 32, hdrField p 0x58 32] == [0x20005003, 0x20024010]
     | _ => false) = true := by decide +kernel

/-! ### Well-formed and ill-formed commands, one ill-formed term for each check -/

theorem test_wf_refuses :
    [Instr.windowWrite .debug 0 4 0, .nop .mgmt 4 0, .nop .debug 1 0, .updMul 0 4 16 16 0, .updMul 0 16 24 16 0, .updMul 0 16 16 24 0,
      .updFma 0 16 16 16 24, .updSqrt 0 16 16 1 0, .combineNode 0 0 0, .combineNode 0 11 0, .combineNode 0 1 1, .enumerated 0, .linkDown 0,
      .removed 0, .ordinaryRemoteWrite 0x8000 0 [(0, false)], .ordinaryRemoteWrite 0 0 [],
      .ordinaryRemoteWrite 0 0 (List.replicate 17 (0, false)),
      .privilegedRemoteWrite 0x7FFF 0 [(0, false)], .shli 0 0 0 0 64, .bz 0 0 0 0 0, .bz 0 0 0 0 64, .bz 0 0 1 0 1, .emit 0 0 1 0 0,
      .empty 0 0 1 0 0, .empty 0 0 0 1 0, .skip 0 0 0 0 1, .cwait 0 0 0 0 64, .wopen 0 0 0 0 8, .wclose 0 0 0 1 0, .swait 0 0 0 0 32,
      .spost 0 0 1 0 0, .vcred 0 0 1 0 0, .ringReq 0 true 0 [], .ktlIdle 0 [], .watchdogKick 35, .scrub 0 1 0,
      .scrub 1 0 0].all (fun i => !i.wf) = true := by decide +kernel

theorem test_wf_accepts :
    [Instr.windowWrite .host 0 4 0, .nop .mgmt 3 0, .nop .debug 0 0, .updMul 0 3 16 16 0, .updFma 0 23 23 23 23, .updSqrt 0 1 0 0 0,
      .combineNode 0 10 0, .enumerated (BitVec.ofNat 64 (2 ^ 56)), .ordinaryRemoteWrite 0x7FFF 0 (List.replicate 16 (0, false)),
      .privilegedRemoteWrite 0x8000 0 [(0, false)], .shli 0 0 0 0 63, .bz 0 0 0 0 63, .emit 0 0 0 31 31, .empty 0 0 0 0 0, .cwait 0 0 0 0 63,
      .wopen 0 0 0 0 7, .swait 0 0 0 0 31, .watchdogKick 34, .scrub 1 4096 0].all Instr.wf = true := by decide +kernel

end Sys2Proof.Tests
end

section
/-! How a run of bytes reaches memory: a byte lane of a word, the bytes of one granule merged, and the shares of a run one after the
other. Each lemma speaks of one operation of the model; the last gives `Mem.write`. -/
namespace Sys2Proof.Proofs

open Sys2Proof.Machine Sys2Proof.Laws

/-! ### Byte lanes of a word -/

/-- Byte lane `i` of a word (R7). -/
def lane (w : Word128) (i : Nat) : Byte := w.extractLsb' (8 * i) 8

/-- A word with the lane of an offset replaced: one step of the merge of `Mem.mergeGranule`. -/
def setLane (w : Word128) (e : Nat × Byte) : Word128 :=
  (w &&& ~~~(BitVec.ofNat 128 255 <<< (8 * e.1))) ||| (e.2.setWidth 128 <<< (8 * e.1))

/-- The bytes of a run with their offsets in a granule, from offset `o`. -/
def atOffsets (o : Nat) (c : List Byte) : List (Nat × Byte) := c.mapIdx (fun k b => (o + k, b))

@[simp] theorem atOffsets_nil (o : Nat) : atOffsets o [] = [] := rfl

@[simp] theorem atOffsets_cons (o : Nat) (b : Byte) (c : List Byte) : atOffsets o (b :: c) = (o, b) :: atOffsets (o + 1) c := by
  simp only [atOffsets, List.mapIdx_cons, Nat.add_zero, Nat.add_assoc, Nat.add_comm 1]

/-- The mask of a merge has the bits of the first lane set. -/
theorem getLsbD_laneMask (k : Nat) : (BitVec.ofNat 128 255).getLsbD k = decide (k < 8) := by
  rw [BitVec.getLsbD_ofNat, show 255 = 2 ^ 8 - 1 from rfl, Nat.testBit_two_pow_sub_one, ← Bool.decide_and]
  exact decide_eq_decide.2 (by omega)

/-- What a lane holds after one lane is set. -/
theorem lane_setLane (w : Word128) (e : Nat × Byte) {i : Nat} (hi : i < 16) :
    lane (setLane w e) i = if i = e.1 then e.2 else lane w i := by
  apply BitVec.eq_of_getLsbD_eq
  intro j hj
  have hbit : 8 * i + j < 128 := by omega
  simp only [lane, setLane, BitVec.getLsbD_extractLsb', BitVec.getLsbD_or, BitVec.getLsbD_and, BitVec.getLsbD_not,
    BitVec.getLsbD_shiftLeft, getLsbD_laneMask, BitVec.getLsbD_setWidth, hj, hbit, decide_true, Bool.true_and]
  rcases Nat.lt_trichotomy i e.1 with h | h | h
  · have before : 8 * i + j < 8 * e.1 := by omega
    simp only [before, if_neg (Nat.ne_of_lt h), decide_true, Bool.not_true, Bool.false_and, Bool.not_false, Bool.and_true,
      Bool.or_false, BitVec.getLsbD_extractLsb', hj, Bool.true_and]
  · have here : ¬ 8 * i + j < 8 * e.1 := by omega
    have offset : 8 * i + j - 8 * e.1 = j := by omega
    have low : j < 128 := by omega
    simp only [here, offset, hj, low, if_pos h, decide_true, decide_false, Bool.not_false, Bool.not_true, Bool.and_true, Bool.and_false,
      Bool.true_and, Bool.false_or]
  · have past : ¬ 8 * i + j < 8 * e.1 := by omega
    have out : 8 ≤ 8 * i + j - 8 * e.1 := by omega
    simp only [past, if_neg (Nat.ne_of_gt h), Nat.not_lt.2 out, BitVec.getLsbD_of_ge e.2 _ out, decide_false, Bool.not_false, Bool.and_false,
      Bool.and_true, Bool.or_false, BitVec.getLsbD_extractLsb', hj, decide_true, Bool.true_and]

/-- What a lane holds after a run of lanes is set. -/
theorem lane_setLanes (c : List Byte) (o : Nat) (w : Word128) {i : Nat} (hi : i < 16) :
    lane ((atOffsets o c).foldl setLane w) i = if o ≤ i ∧ i < o + c.length then c.getD (i - o) 0 else lane w i := by
  induction c generalizing o w with
  | nil => rw [if_neg (by simp)]; rfl
  | cons b c ih =>
    rw [atOffsets_cons, List.foldl_cons, ih, lane_setLane w (o, b) hi, List.length_cons]
    rcases Nat.lt_trichotomy i o with h | h | h
    · rw [if_neg (by omega), if_neg (by simp only; omega), if_neg (by omega)]
    · subst h
      rw [if_neg (by omega), if_pos rfl, if_pos (by omega), Nat.sub_self, List.getD_cons_zero]
    · rw [if_neg (c := i = (o, b).1) (Nat.ne_of_gt h), show i - o = i - (o + 1) + 1 by omega, List.getD_cons_succ]
      exact ite_congr (propext (by omega)) (fun _ => rfl) (fun _ => rfl)

/-- The bytes of a number spelled little-endian are the ones it was spelled with (R7). -/
theorem bytesNat_byte (l : List Byte) (i : Nat) : BitVec.ofNat 8 (bytesNat l / 256 ^ i) = l.getD i 0 := by
  induction l generalizing i with
  | nil => simp [bytesNat]
  | cons b l ih =>
    have hb : b.toNat < 256 := b.isLt
    cases i with
    | zero =>
      apply BitVec.eq_of_toNat_eq
      simp only [bytesNat, Nat.pow_zero, Nat.div_one, BitVec.toNat_ofNat, List.getD_cons_zero]
      omega
    | succ i =>
      rw [List.getD_cons_succ, ← ih i, bytesNat, Nat.pow_succ', ← Nat.div_div_eq_div_mul]
      congr 2
      omega

/-- A lane of a granule's word is the byte stored at that offset. -/
theorem lane_word (m : Mem) (g : Nat) {i : Nat} (hi : i < 16) : lane (m.word g) i = m.byte (g + i) := by
  have spelled := bytesNat_byte ((List.range 16).map (fun i => m.byte (g + i))) i
  simp only [List.getD_eq_getElem?_getD, List.getElem?_map, List.getElem?_range hi, Option.map_some, Option.getD_some] at spelled
  rw [← spelled, Mem.word]
  apply BitVec.eq_of_getLsbD_eq
  intro j hj
  have hbit : 8 * i + j < 128 := by omega
  simp only [lane, BitVec.getLsbD_extractLsb', BitVec.getLsbD_ofNat, hj, hbit, decide_true, Bool.true_and]
  rw [show 256 ^ i = 2 ^ (8 * i) by rw [Nat.pow_mul], Nat.testBit_div_two_pow, Nat.add_comm]

/-! ### Runs stored in a memory -/

/-- `m'` is `m` with the bytes `bs` stored from `a`: canonical, with valid codes, and changed in no other byte. -/
structure StoresRun (m m' : Mem) (a : Nat) (bs : List Byte) : Prop where
  wf : m'.wf = true
  chk : m'.chk = []
  byte : ∀ x, m'.byte x = if a ≤ x ∧ x < a + bs.length then bs.getD (x - a) 0 else m.byte x

/-- A memory in canonical form with valid codes stands as it is when no byte is stored. -/
theorem StoresRun.nil {m : Mem} (h : m.wf = true) (hc : m.chk = []) (a : Nat) : StoresRun m m a [] :=
  ⟨h, hc, fun x => by rw [if_neg (by simp)]⟩

/-- One run stored after another that ends where it begins. -/
theorem StoresRun.append {m m₁ m₂ : Mem} {a b : Nat} {bs cs : List Byte} (h₁ : StoresRun m m₁ a bs) (h₂ : StoresRun m₁ m₂ b cs)
    (hb : cs ≠ [] → b = a + bs.length) : StoresRun m m₂ a (bs ++ cs) := by
  refine ⟨h₂.wf, h₂.chk, fun x => ?_⟩
  rw [h₂.byte, h₁.byte]
  rcases Classical.em (cs = []) with rfl | hne
  · rw [List.append_nil, if_neg (by simp)]
  · obtain rfl := hb hne
    rw [List.length_append]
    by_cases first : x < a + bs.length
    · rw [if_neg (by omega)]
      by_cases below : x < a
      · rw [if_neg (by omega), if_neg (by omega)]
      · rw [if_pos (by omega), if_pos (by omega), List.getD_eq_getElem?_getD, List.getD_eq_getElem?_getD,
          List.getElem?_append_left (by omega)]
    · have later : cs.getD (x - (a + bs.length)) 0 = (bs ++ cs).getD (x - a) 0 := by
        rw [List.getD_eq_getElem?_getD, List.getD_eq_getElem?_getD, List.getElem?_append_right (by omega), Nat.sub_sub]
      rw [if_neg (c := a ≤ x ∧ x < a + bs.length) (by omega), later]
      exact ite_congr (propext (by omega)) (fun _ => rfl) (fun _ => rfl)

/-- A word stored clean in a memory with valid codes leaves every code valid (R406). -/
theorem setWord_chk_clean {m : Mem} (hc : m.chk = []) (g : Nat) (w : Word128) : (m.setWord g w false).chk = [] := by
  simp only [Mem.setWord, setBytes_chk, hc, Bool.false_eq_true, if_false, tset, if_true]

/-- In a memory with valid codes a clean merge stores the granule's own word with the lanes replaced (R165). -/
theorem mergeGranule_clean {m : Mem} (hc : m.chk = []) (g : Nat) (es : List (Nat × Byte)) :
    m.mergeGranule g es false = m.setWord g (es.foldl setLane (m.word g)) false := by
  have clean : m.deliver g = (m.word g, false) := by rw [Mem.deliver, hc]; exact if_pos rfl
  simp only [Mem.mergeGranule, clean, Bool.false_and, Bool.or_false]
  rfl

/-- Bytes merged into one granule are stored from their offset, and the granule's other bytes stay (R165). -/
theorem mergeGranule_stores {m : Mem} (h : m.wf = true) (hc : m.chk = []) (g o : Nat) (c : List Byte) (hfit : o + c.length ≤ 16) :
    StoresRun m (m.mergeGranule g (atOffsets o c) false) (g + o) c := by
  refine ⟨mergeGranule_wf h _ _ _, by rw [mergeGranule_clean hc, setWord_chk_clean hc], fun x => ?_⟩
  rw [mergeGranule_clean hc, byte_setWord h]
  by_cases inside : g ≤ x ∧ x < g + 16
  · have merged := lane_setLanes c o (m.word g) (show x - g < 16 by omega)
    rw [lane_word m g (by omega), lane, Nat.add_sub_cancel' inside.1, Nat.sub_sub] at merged
    rw [if_pos inside, merged]
    exact ite_congr (propext (by omega)) (fun _ => rfl) (fun _ => rfl)
  · rw [if_neg inside, if_neg (by omega)]

/-! ### The shares of a run -/

/-- The granules of a list of shares merged clean, in order: the fold of `Mem.write`. -/
def mergeShares (m : Mem) (l : List (Nat × List (Nat × Byte))) : Mem := l.foldl (fun m e => m.mergeGranule e.1 e.2 false) m

/-- The shares of bytes that begin with granule number `g`: the shares after the first of `granuleShares`. -/
def alignedShares (g fuel : Nat) (xs : List Byte) : List (Nat × List (Nat × Byte)) :=
  (chunksOf 16 fuel xs).mapIdx (fun i c => ((g + i) * 16, atOffsets 0 c))

/-- A list that is not empty is cut into its first piece and the pieces of what follows. -/
theorem chunksOf_succ {α : Type} (n fuel : Nat) {xs : List α} (hne : xs ≠ []) :
    chunksOf n (fuel + 1) xs = xs.take n :: chunksOf n fuel (xs.drop n) := by
  cases xs with
  | nil => exact absurd rfl hne
  | cons x xs => rfl

/-- One granule's share in front of those of the next granules. -/
theorem alignedShares_succ (g fuel : Nat) {xs : List Byte} (hne : xs ≠ []) :
    alignedShares g (fuel + 1) xs = (g * 16, atOffsets 0 (xs.take 16)) :: alignedShares (g + 1) fuel (xs.drop 16) := by
  rw [alignedShares, chunksOf_succ 16 fuel hne, List.mapIdx_cons]
  simp only [alignedShares, Nat.add_zero, Nat.add_assoc, Nat.add_comm 1]

/-- A run's shares: what fits in its first granule, then the rest from the next granule on. -/
theorem granuleShares_eq (a : Nat) (bs : List Byte) :
    granuleShares a bs = (a / 16 * 16, atOffsets (a % 16) (bs.take (16 - a % 16))) ::
      alignedShares (a / 16 + 1) bs.length (bs.drop (16 - a % 16)) := by
  simp [granuleShares, alignedShares, atOffsets, List.mapIdx_cons, Nat.add_assoc, Nat.add_comm 1]

/-- The first share merged, which ends at a granule's end unless it is the last, and then the others. -/
theorem mergeShares_cons {m : Mem} (h : m.wf = true) (hc : m.chk = []) (g o : Nat) (xs : List Byte) (ho : o < 16)
    {l : List (Nat × List (Nat × Byte))}
    (rest : ∀ m₁ : Mem, m₁.wf = true → m₁.chk = [] → StoresRun m₁ (mergeShares m₁ l) ((g + 1) * 16) (xs.drop (16 - o))) :
    StoresRun m (mergeShares m ((g * 16, atOffsets o (xs.take (16 - o))) :: l)) (g * 16 + o) xs := by
  have first := mergeGranule_stores h hc (g * 16) o (xs.take (16 - o)) (by rw [List.length_take]; omega)
  have both := first.append (rest _ first.wf first.chk) (fun hne => by
    rw [Ne, List.drop_eq_nil_iff] at hne
    rw [List.length_take]
    omega)
  rwa [List.take_append_drop] at both

/-- The shares of bytes that begin at a granule's start store those bytes. -/
theorem alignedShares_store (fuel : Nat) {m : Mem} (h : m.wf = true) (hc : m.chk = []) (g : Nat) (xs : List Byte)
    (hfuel : xs.length ≤ fuel) : StoresRun m (mergeShares m (alignedShares g fuel xs)) (g * 16) xs := by
  induction fuel generalizing m g xs with
  | zero =>
    obtain rfl := List.length_eq_zero_iff.1 (Nat.le_zero.1 hfuel)
    exact StoresRun.nil h hc _
  | succ fuel ih =>
    rcases Classical.em (xs = []) with rfl | hne
    · exact StoresRun.nil h hc _
    · rw [alignedShares_succ g fuel hne]
      have := List.length_pos_iff.2 hne
      exact mergeShares_cons h hc g 0 xs (by omega) (fun m₁ h₁ hc₁ => ih h₁ hc₁ _ _ (by rw [List.length_drop]; omega))

/-- A clean write to a memory with valid codes stores its run (R165, R409). -/
theorem write_stores {m : Mem} (h : m.wf = true) (hc : m.chk = []) (a : Nat) (bs : List Byte) :
    StoresRun m (m.write a bs false) a bs := by
  rcases Classical.em (bs = []) with rfl | hne
  · exact StoresRun.nil h hc a
  · have merged := mergeShares_cons h hc (a / 16) (a % 16) bs (Nat.mod_lt a (by decide)) (fun m₁ h₁ hc₁ =>
      alignedShares_store bs.length h₁ hc₁ (a / 16 + 1) (bs.drop (16 - a % 16)) (by rw [List.length_drop]; omega))
    rw [← granuleShares_eq, Nat.div_add_mod' a 16] at merged
    rwa [Mem.write, if_neg (by simpa using hne)]

/-- Settles O33: a write merges the shares of its run granule by granule, and each merge stores its share. -/
theorem writeStoresExactlyItsBytes : Obligations.WriteStoresExactlyItsBytes := by
  intro m a bs x h hc
  have stored := write_stores h hc a bs
  exact ⟨stored.wf, stored.chk, stored.byte x⟩

end Sys2Proof.Proofs
end

section
/-! The die ring: what a sealed header is, what a link end's replay buffer holds, when a received flit is taken, and what keeps every
replay buffer in order (R16, R17). -/
namespace Sys2Proof.Proofs

open Sys2Proof.Machine Sys2Proof.Laws Sys2Proof.Safety

/-! ### Sealed headers -/

/-- Each bit keeps the CRC within a byte. -/
theorem crc8Bit_lt (c : Nat) (b : Bool) : crc8Bit c b < 256 := by
  unfold crc8Bit
  have := Nat.mod_lt (c * 2) (show 256 > 0 by decide)
  dsimp only
  split
  · exact Nat.xor_lt_two_pow (n := 8) this (by decide)
  · exact this

theorem headerCrc_lt (h : BitVec 32) : headerCrc h < 256 := by
  rw [headerCrc, List.range_succ, List.foldl_append]
  exact crc8Bit_lt _ _

/-- The header CRC reads bits [31:8] alone (R16). -/
theorem headerCrc_congr {g h : BitVec 32} (same : ∀ i, 8 ≤ i → g.getLsbD i = h.getLsbD i) : headerCrc g = headerCrc h := by
  refine List.foldl_rel (r := Eq) rfl (fun i hi c c' hc => ?_)
  rw [hc, same (31 - i) (by have := List.mem_range.1 hi; omega)]

/-- A header with a byte in its clear low bits: its CRC is as before, and the byte is its hcrc. -/
theorem headerCrc_or_byte (h : BitVec 32) {c : Nat} (hc : c < 256) : headerCrc (h ||| BitVec.ofNat 32 c) = headerCrc h := by
  refine headerCrc_congr (fun i hi => ?_)
  have clear : c.testBit i = false := Nat.testBit_lt_two_pow (Nat.lt_of_lt_of_le hc (Nat.pow_le_pow_right (n := 2) (by decide) hi))
  rw [BitVec.getLsbD_or, BitVec.getLsbD_ofNat, clear, Bool.and_false, Bool.or_false]

/-- A header's fields above its seq, with the seq in place: what `sealFlit` computes the hcrc of. -/
def seqHeader (h : BitVec 32) (seq : Nat) : BitVec 32 := (h &&& 0xFFF00000) ||| BitVec.ofNat 32 (seq % 4096 * 256)

theorem sealFlit_eq (h : BitVec 32) (seq : Nat) :
    sealFlit h seq = seqHeader h seq ||| BitVec.ofNat 32 (headerCrc (seqHeader h seq)) := rfl

theorem seqHeader_toNat (h : BitVec 32) (seq : Nat) : (seqHeader h seq).toNat = (h.toNat &&& 0xFFF00000) ||| seq % 4096 * 256 := by
  have fits : seq % 4096 * 256 < 2 ^ 32 := by omega
  rw [seqHeader, BitVec.toNat_or, BitVec.toNat_and, BitVec.toNat_ofNat, Nat.mod_eq_of_lt fits]
  rfl

theorem sealFlit_toNat (h : BitVec 32) (seq : Nat) :
    (sealFlit h seq).toNat = ((h.toNat &&& 0xFFF00000) ||| seq % 4096 * 256) ||| headerCrc (seqHeader h seq) := by
  have fits : headerCrc (seqHeader h seq) < 2 ^ 32 := Nat.lt_of_lt_of_le (headerCrc_lt _) (by decide)
  rw [sealFlit_eq, BitVec.toNat_or, seqHeader_toNat, BitVec.toNat_ofNat, Nat.mod_eq_of_lt fits]

/-- A sealed header carries a good hcrc. -/
theorem headerCrc_sealFlit (h : BitVec 32) (seq : Nat) : headerCrc (sealFlit h seq) = (sealFlit h seq).toNat % 256 := by
  have hc := headerCrc_lt (seqHeader h seq)
  have crc : headerCrc (seqHeader h seq) % 2 ^ 8 = headerCrc (seqHeader h seq) := Nat.mod_eq_of_lt hc
  have mid : seq % 4096 * 256 % 2 ^ 8 = 0 := by omega
  have low : (sealFlit h seq).toNat % 2 ^ 8 = headerCrc (seqHeader h seq) := by
    rw [sealFlit_toNat, Nat.or_mod_two_pow, Nat.or_mod_two_pow, Nat.and_mod_two_pow, crc, mid]
    simp
  rw [sealFlit_eq, headerCrc_or_byte _ hc, ← sealFlit_eq]
  exact low.symm

/-- A sealed header carries its seq, modulo 4096. -/
theorem flitSeq_sealFlit (h : BitVec 32) (seq : Nat) : flitSeq (sealFlit h seq) = seq % 4096 := by
  have hc := headerCrc_lt (seqHeader h seq)
  have crc : headerCrc (seqHeader h seq) >>> 8 = 0 := by rw [Nat.shiftRight_eq_div_pow]; omega
  have mid : (seq % 4096 * 256) >>> 8 = seq % 4096 := by rw [Nat.shiftRight_eq_div_pow]; omega
  rw [flitSeq, BitVec.extractLsb'_toNat, sealFlit_toNat, Nat.shiftRight_or_distrib, Nat.shiftRight_or_distrib, crc, mid,
    Nat.shiftRight_and_distrib, Nat.or_mod_two_pow, Nat.or_mod_two_pow, Nat.and_mod_two_pow]
  simp

/-! ### Link ends -/

/-- The `n` seqs before the next one to be sent. -/
def seqsBefore (next n : Nat) : List Nat := (List.range n).map (fun i => (next + 4095 * n + i) % 4096)

/-- One more seq sent. -/
theorem seqsBefore_succ (next n : Nat) : seqsBefore ((next + 1) % 4096) (n + 1) = seqsBefore next n ++ [next % 4096] := by
  rw [seqsBefore, List.range_succ, List.map_append]
  congr 1
  · exact List.map_congr_left (fun i _ => by omega)
  · rw [List.map_singleton]
    congr 1
    omega

/-- The newest of the seqs before the next one. -/
theorem seqsBefore_drop (next n k : Nat) : (seqsBefore next n).drop k = seqsBefore next (n - k) := by
  refine List.ext_getElem (by simp [seqsBefore]) (fun i hi _ => ?_)
  simp only [seqsBefore, List.length_drop, List.length_map, List.length_range] at hi
  simp only [seqsBefore, List.getElem_drop, List.getElem_map, List.getElem_range]
  omega

theorem linkInOrder_iff (l : RingLink) : linkInOrder l = true ↔
    l.replayBuf.map (fun f => flitSeq f.1) = seqsBefore l.txSeq l.replayBuf.length ∧
      ∀ f ∈ l.replayBuf, headerCrc f.1 = f.1.toNat % 256 := by
  simp [linkInOrder, seqsBefore]

/-- A link end that keeps nothing is in order. -/
theorem linkInOrder_empty {l : RingLink} (h : l.replayBuf = []) : linkInOrder l = true := by
  simp [linkInOrder, h]

/-- A flit sealed with the next seq and kept leaves its link end in order. -/
theorem linkInOrder_keep {l : RingLink} (ordered : linkInOrder l = true) (h : BitVec 32) (gs : List Granule) :
    linkInOrder { l with txSeq := (l.txSeq + 1) % 4096, replayBuf := l.replayBuf ++ [(sealFlit h l.txSeq, gs)] } = true := by
  obtain ⟨seqs, crcs⟩ := (linkInOrder_iff l).1 ordered
  refine (linkInOrder_iff _).2 ⟨?_, fun f hf => ?_⟩
  · simp only [List.map_append, List.map_singleton, List.length_append, List.length_singleton, seqsBefore_succ, seqs, flitSeq_sealFlit]
  · rcases List.mem_append.1 hf with hf | hf
    · exact crcs f hf
    · rw [List.mem_singleton.1 hf]
      exact headerCrc_sealFlit h l.txSeq

/-- A link end whose oldest flits have been acknowledged is still in order. -/
theorem linkInOrder_release {l : RingLink} (ordered : linkInOrder l = true) {rest : List (BitVec 32 × List Granule)}
    (newest : rest <:+ l.replayBuf) (n : Nat) : linkInOrder { l with replayBuf := rest, frontReplays := n } = true := by
  obtain ⟨seqs, crcs⟩ := (linkInOrder_iff l).1 ordered
  refine (linkInOrder_iff _).2 ⟨?_, fun f hf => crcs f (newest.subset hf)⟩
  have shorter := newest.length_le
  calc rest.map (fun f => flitSeq f.1)
      = (l.replayBuf.map (fun f => flitSeq f.1)).drop (l.replayBuf.length - rest.length) := by
        rw [← List.map_drop, ← List.suffix_iff_eq_drop.1 newest]
    _ = seqsBefore l.txSeq rest.length := by rw [seqs, seqsBefore_drop, Nat.sub_sub_self shorter]

/-- What a table reads is its default or one of its entries. -/
theorem tget_mem {α : Type} (d : α) (t : Table α) (k : Nat) : tget d t k = d ∨ (k, tget d t k) ∈ t := by
  induction t with
  | nil => exact .inl rfl
  | cons e r ih =>
    obtain ⟨k', v⟩ := e
    simp only [tget]
    split
    · subst_vars
      exact .inr (List.mem_cons_self ..)
    · split
      · exact .inl rfl
      · exact ih.imp_right (List.mem_cons_of_mem _)

/-- What a table lists after a write is the entry written or was listed before. -/
theorem eq_or_mem_of_mem_tset {α : Type} [DecidableEq α] {d : α} {t : Table α} {k : Nat} {v : α} {x : Nat × α}
    (h : x ∈ tset d t k v) : x = (k, v) ∨ x ∈ t := by
  induction t with
  | nil =>
    simp only [tset] at h
    split at h
    · exact .inr h
    · exact .inl (List.mem_singleton.1 h)
  | cons e r ih =>
    obtain ⟨k', v'⟩ := e
    simp only [tset] at h
    split at h
    · split at h
      · exact .inr h
      · exact List.mem_cons.1 h
    · split at h
      · split at h
        · exact .inr (List.mem_cons_of_mem _ h)
        · exact (List.mem_cons.1 h).imp_right (List.mem_cons_of_mem _)
      · rcases List.mem_cons.1 h with rfl | h
        · exact .inr (List.mem_cons_self ..)
        · exact (ih h).imp_right (List.mem_cons_of_mem _)

theorem ringInOrder_iff (s : State) : ringInOrder s = true ↔ ∀ e ∈ s.ring.links, linkInOrder e.2 = true := List.all_eq_true

/-- In a ring in order, every link end is, listed or not. -/
theorem linkInOrder_ringAt {s : State} (ordered : ringInOrder s = true) (e : Nat) : linkInOrder (ringAt s e) = true := by
  rcases tget_mem RingLink.reset s.ring.links e with h | h
  · exact linkInOrder_empty (by rw [ringAt, h]; rfl)
  · exact (ringInOrder_iff s).1 ordered _ h

/-! ### What keeps the ring in order -/

/-- From `s` to `t` the replay buffers stay in order, and no command leaves or joins the queue. -/
structure RingKept (s t : State) : Prop where
  ordered : ringInOrder s = true → ringInOrder t = true
  pending : t.pending = s.pending

theorem RingKept.refl (s : State) : RingKept s s := ⟨id, rfl⟩

theorem RingKept.trans {r s t : State} (h : RingKept r s) (g : RingKept s t) : RingKept r t :=
  ⟨g.ordered ∘ h.ordered, g.pending.trans h.pending⟩

/-- A run over a list keeps the ring when each of its steps does. -/
theorem foldl_ringKept {α : Type} {f : State → α → State} (step : ∀ s x, RingKept s (f s x)) (xs : List α) (s : State) :
    RingKept s (xs.foldl f s) := by
  induction xs generalizing s with
  | nil => exact .refl s
  | cons x xs ih => exact (step s x).trans (ih (f s x))

/-- A link end set to a value that is in order wherever the ring is. -/
theorem setRing_ringKept {s : State} {e : Nat} {l : RingLink} (h : ringInOrder s = true → linkInOrder l = true) :
    RingKept s (setRing s e l) where
  ordered ordered := (ringInOrder_iff _).2 (fun x hx => by
    rcases eq_or_mem_of_mem_tset hx with rfl | hx
    · exact h ordered
    · exact (ringInOrder_iff s).1 ordered x hx)
  pending := rfl

/-- A link end changed in what its order does not speak of. -/
theorem setRing_ringKept_of_same {s : State} {e : Nat} {l : RingLink} (h : linkInOrder l = linkInOrder (ringAt s e)) :
    RingKept s (setRing s e l) :=
  setRing_ringKept (fun ordered => h ▸ linkInOrder_ringAt ordered e)

theorem emitFlit_ringKept (s : State) (e : Nat) (h : BitVec 32) (gs : List Granule) : RingKept s (emitFlit s e h gs) := ⟨id, rfl⟩

/-- Kept flits sent again from a link end. -/
theorem emitFlits_ringKept (s : State) (e : Nat) (fs : List (BitVec 32 × List Granule)) :
    RingKept s (fs.foldl (fun s f => emitFlit s e f.1 f.2) s) := by
  have each (s : State) (f : BitVec 32 × List Granule) : RingKept s (emitFlit s e f.1 f.2) := emitFlit_ringKept s e f.1 f.2
  exact foldl_ringKept each fs s

theorem report_ringKept (s : State) (a : ErrArgs) : RingKept s (report s a) := by
  obtain ⟨r, d, l, h, -⟩ := report_frame s a
  rw [h]
  exact ⟨id, rfl⟩

theorem codeRecord_ringKept (s : State) (w : Who) (source structure_ addr : Nat) (o : CodeOutcome) (scrub : Bool) :
    RingKept s (codeRecord s w source structure_ addr o scrub) := by
  cases o with
  | clean => exact .refl s
  | poison => exact .refl s
  | corrected i e => exact report_ringKept s _
  | uncorrectable => exact report_ringKept s _

theorem sendFlit_ringKept (s : State) (e : Nat) (h : BitVec 32) (gs : List Granule) : RingKept s (sendFlit s e h gs) :=
  (setRing_ringKept (fun ordered => linkInOrder_keep (linkInOrder_ringAt ordered e) h gs)).trans (emitFlit_ringKept _ _ _ _)

theorem routeFlit_ringKept (s : State) (die : Nat) (h : BitVec 32) (gs : List Granule) : RingKept s (routeFlit s die h gs) := by
  unfold routeFlit
  split
  · exact sendFlit_ringKept _ _ _ _
  · exact .refl s

theorem acceptFlit_ringKept (s : State) (die : Nat) (up : Bool) (h : BitVec 32) (gs : List Granule) :
    RingKept s (acceptFlit s die up h gs) := by
  refine .trans (foldl_ringKept (fun s o => codeRecord_ringKept s _ _ _ _ o _) _ s) (.trans (setRing_ringKept_of_same ?_)
    (emitFlit_ringKept _ _ _ _))
  rfl

theorem carryFlit_ringKept (s : State) (die : Nat) (up : Bool) (h : BitVec 32) (gs : List Granule) :
    RingKept s (carryFlit s die up h gs) := by
  refine (acceptFlit_ringKept s die up h gs).trans ?_
  unfold carryFlit
  dsimp only
  split
  · exact ⟨id, rfl⟩
  · exact routeFlit_ringKept _ _ _ _

theorem ringAcked_ringKept (s : State) (die : Nat) (up : Bool) (covers : Nat → Bool) : RingKept s (ringAcked s die up covers) := by
  have released := setRing_ringKept (s := s) (e := ringEnd die up) (fun ordered =>
    linkInOrder_release (linkInOrder_ringAt ordered (ringEnd die up)) (List.dropWhile_suffix (fun f => covers (flitSeq f.1))) 0)
  unfold ringAcked
  dsimp only
  split
  · exact .refl s
  · split
    · split
      · exact released.trans (report_ringKept _ _)
      · exact released
    · exact released

/-- A link end taken out of service keeps nothing. -/
theorem setRing_down_ringKept (s : State) (e : Nat) (l : RingLink) :
    RingKept s (setRing s e { l with down := true, replayBuf := [], frontReplays := 0 }) :=
  setRing_ringKept (fun _ => linkInOrder_empty rfl)

/-- What a link end kept sent on the other way. -/
theorem routeFlits_ringKept (s : State) (die : Nat) (fs : List (BitVec 32 × List Granule)) :
    RingKept s (fs.foldl (fun s f => routeFlit s die f.1 f.2) s) := by
  have each (s : State) (f : BitVec 32 × List Granule) : RingKept s (routeFlit s die f.1 f.2) := routeFlit_ringKept s die f.1 f.2
  exact foldl_ringKept each fs s

theorem takeLinkDown_ringKept (s : State) (d : Nat) (up : Bool) : RingKept s (takeLinkDown s d up) :=
  (setRing_down_ringKept s (ringEnd d up) (ringAt s (ringEnd d up))).trans <|
    (setRing_down_ringKept _ (ringEnd (ringPeer d up) (!up)) (ringAt s (ringEnd (ringPeer d up) (!up)))).trans <|
      (routeFlits_ringKept _ d _).trans (routeFlits_ringKept _ (ringPeer d up) _)

/-! ### Received flits -/

/-- A flit reaches a link end: it has its 14 granules, and the link end is in service on a powered die. -/
def FlitReaches (s : State) (e : Nat) (gs : List Granule) : Prop := gs.length = 14 ∧ (ringAt s e).down = false ∧ dieCommonOn s = true

/-- A flit's hcrc holds, its type is not reserved, and its granules can all be decoded. -/
def FlitSound (h : BitVec 32) (gs : List Granule) : Prop :=
  headerCrc h = h.toNat % 256 ∧ flitType h < 7 ∧ gs.any granuleBroken = false

/-- The flits that `flitKind` does not pass over are those that reach their link end. -/
theorem flitReaches_iff {s : State} {e : Nat} {gs : List Granule} :
    FlitReaches s e gs ↔ ¬ (gs.length ≠ 14 ∨ (ringAt s e).down = true ∨ (!dieCommonOn s) = true) := by
  simp only [FlitReaches, ne_eq, not_or, Classical.not_not, Bool.not_eq_true, Bool.not_eq_false']

/-- The flits that `flitKind` does not discard are the sound ones. -/
theorem flitSound_iff {h : BitVec 32} {gs : List Granule} :
    FlitSound h gs ↔ ¬ (headerCrc h ≠ h.toNat % 256 ∨ flitType h ≥ 7 ∨ gs.any granuleBroken = true) := by
  simp only [FlitSound, ne_eq, not_or, Classical.not_not, Bool.not_eq_true, ge_iff_le, Nat.not_le]

/-- A flit takes a seq of its link, and not the one expected next. -/
def FlitLate (s : State) (e : Nat) (h : BitVec 32) : Prop := flitType h ∈ [1, 2, 3, 6] ∧ flitSeq h ≠ (ringAt s e).rxSeq

/-- A flit of a type that takes no seq is never late. -/
theorem not_flitLate {s : State} {e : Nat} {h : BitVec 32} (bare : flitType h ∉ [1, 2, 3, 6]) : ¬ FlitLate s e h :=
  fun late => bare late.1

/-- A NAK of the seq expected next sent from a link end: `nak` of `execRingReservedFlit`. -/
def nakFlit (s : State) (d : Nat) (up : Bool) : State :=
  emitFlit (setRing s (ringEnd d up) { ringAt s (ringEnd d up) with nakSent := true }) (ringEnd d up)
    (bareFlit d (ringPeer d up) 5 (ringAt s (ringEnd d up)).rxSeq) noGranules

section
variable {s : State} {die : Nat} {up : Bool} {h : BitVec 32} {gs : List Granule}

theorem flitKind_notHere (away : ¬ FlitReaches s (ringEnd die up) gs) : flitKind s die up h gs = .notHere := by
  exact if_pos (Decidable.of_not_not (mt flitReaches_iff.2 away))

theorem flitKind_discard (here : FlitReaches s (ringEnd die up) gs) (bad : ¬ FlitSound h gs) : flitKind s die up h gs = .discard := by
  rw [flitKind, if_neg (flitReaches_iff.1 here), if_pos (Decidable.of_not_not (mt flitSound_iff.2 bad))]

theorem flitKind_sound (here : FlitReaches s (ringEnd die up) gs) (sound : FlitSound h gs) :
    flitKind s die up h gs =
      if flitType h ∈ [1, 2, 3, 6] ∧ flitSeq h ≠ (ringAt s (ringEnd die up)).rxSeq then .outOfOrder else .of (flitType h) := by
  rw [flitKind, if_neg (flitReaches_iff.1 here), if_neg (flitSound_iff.1 sound)]

theorem flitKind_outOfOrder (here : FlitReaches s (ringEnd die up) gs) (sound : FlitSound h gs)
    (late : FlitLate s (ringEnd die up) h) : flitKind s die up h gs = .outOfOrder := by
  rw [flitKind_sound here sound]
  exact if_pos late

theorem flitKind_next (here : FlitReaches s (ringEnd die up) gs) (sound : FlitSound h gs)
    (next : ¬ FlitLate s (ringEnd die up) h) : flitKind s die up h gs = .of (flitType h) := by
  rw [flitKind_sound here sound]
  exact if_neg next

/-- A flit is taken as its type exactly where it reaches its link end, is sound, and is not late (R16, R17). -/
theorem flitKind_of_iff (type : Nat) : flitKind s die up h gs = .of type ↔
    FlitReaches s (ringEnd die up) gs ∧ FlitSound h gs ∧ ¬ FlitLate s (ringEnd die up) h ∧ flitType h = type := by
  by_cases here : FlitReaches s (ringEnd die up) gs
  · by_cases sound : FlitSound h gs
    · by_cases late : FlitLate s (ringEnd die up) h
      · simp [flitKind_outOfOrder here sound late, late]
      · simp [flitKind_next here sound late, here, sound, late]
    · simp [flitKind_discard here sound, sound]
  · simp [flitKind_notHere here, here]

/-- A row acts on the flits of its type that are taken. -/
theorem onFlit_taken {type : Nat} {d : BitVec 3} {act : State → State} (here : FlitReaches s (ringEnd d.toNat up) gs)
    (sound : FlitSound h gs) (next : ¬ FlitLate s (ringEnd d.toNat up) h) (typed : flitType h = type) :
    onFlit type d up h gs s act = .next (act s) := by
  rw [onFlit, if_pos ((flitKind_of_iff type).2 ⟨here, sound, next, typed⟩)]

/-- A row leaves every other flit alone. -/
theorem onFlit_ignored {type : Nat} {d : BitVec 3} {act : State → State}
    (other : ¬ (FlitReaches s (ringEnd d.toNat up) gs ∧ FlitSound h gs ∧ ¬ FlitLate s (ringEnd d.toNat up) h ∧ flitType h = type)) :
    onFlit type d up h gs s act = .next s := by
  rw [onFlit, if_neg (mt (flitKind_of_iff type).1 other)]

end

/-! ### The rows of the die ring keep it in order -/

/-- A row ends in a state to which the ring is kept. -/
def EndsRingKept (s : State) (o : Host.Outcome State Fault Refusal) : Prop := ∃ t, o = .next t ∧ RingKept s t

theorem onFlit_ringKept {type : Nat} {die : BitVec 3} {up : Bool} {h : BitVec 32} {gs : List Granule} {s : State} {act : State → State}
    (kept : RingKept s (act s)) : EndsRingKept s (onFlit type die up h gs s act) := by
  refine ⟨_, rfl, ?_⟩
  split
  · exact kept
  · exact .refl s

theorem execRingNak_ringKept (die : BitVec 3) (up : Bool) (h : BitVec 32) (gs : List Granule) (s : State) :
    EndsRingKept s (execRingNak die up h gs s) := by
  unfold execRingNak
  refine onFlit_ringKept (RingKept.trans
    (ringAcked_ringKept s die.toNat up (fun q => decide ((q + 4096 - flitSeq h) % 4096 ≥ 2048))) ?_)
  generalize ringAcked s die.toNat up _ = u
  have counted := setRing_ringKept_of_same (s := u) (e := ringEnd die.toNat up)
    (l := { ringAt u (ringEnd die.toNat up) with frontReplays := (ringAt u (ringEnd die.toNat up)).frontReplays + 1 }) rfl
  dsimp only
  split
  · exact .refl _
  · split
    · exact counted
    · exact counted.trans (emitFlits_ringKept _ _ _)

theorem execRingCredit_ringKept (die : BitVec 3) (up : Bool) (h : BitVec 32) (gs : List Granule) (s : State) :
    EndsRingKept s (execRingCredit die up h gs s) := by
  unfold execRingCredit
  refine onFlit_ringKept (.trans (acceptFlit_ringKept s die.toNat up h gs) (setRing_ringKept_of_same ?_))
  rfl

theorem nakFlit_ringKept (s : State) (d : Nat) (up : Bool) : RingKept s (nakFlit s d up) :=
  (setRing_ringKept_of_same (l := { ringAt s (ringEnd d up) with nakSent := true }) rfl).trans (emitFlit_ringKept _ _ _ _)

theorem execRingReservedFlit_ringKept (die : BitVec 3) (up : Bool) (h : BitVec 32) (gs : List Granule) (s : State) :
    EndsRingKept s (execRingReservedFlit die up h gs s) := by
  have nak := nakFlit_ringKept s die.toNat up
  unfold execRingReservedFlit
  dsimp only
  split
  · exact ⟨_, rfl, nak⟩
  · refine ⟨_, rfl, ?_⟩
    split
    · exact .refl s
    · exact nak
  · exact ⟨_, rfl, .refl s⟩

theorem execRingLinkDown_ringKept (die : BitVec 3) (up : Bool) (s : State) : EndsRingKept s (execRingLinkDown die up s) := by
  unfold execRingLinkDown
  dsimp only
  split
  · exact ⟨_, rfl, .refl s⟩
  · refine ⟨_, rfl, ?_⟩
    split
    · exact .refl s
    · exact (report_ringKept s _).trans (takeLinkDown_ringKept _ _ _)

theorem execRingIdle_eq (die : BitVec 3) (up : Bool) (h : BitVec 32) (gs : List Granule) (s : State) :
    execRingIdle die up h gs s = .next s :=
  congrArg Host.Outcome.next (ite_self s)

/-- Every row of the die ring keeps the replay buffers in order, and the queue. -/
theorem exec_ringKept (die : BitVec 3) (up : Bool) (hdr : BitVec 32) (gs : List Granule) (c : Instr) (s : State)
    (row : c ∈ [Instr.ringReq die up hdr gs, .ringData die up hdr gs, .ringWrite die up hdr gs, .ringAck die up hdr gs,
      .ringNak die up hdr gs, .ringCredit die up hdr gs, .ringIdle die up hdr gs, .ringReservedFlit die up hdr gs,
      .ringLinkDown die up]) : EndsRingKept s (exec c s) := by
  have carried (type : Nat) : EndsRingKept s (onFlit type die up hdr gs s (fun s => carryFlit s die.toNat up hdr gs)) :=
    onFlit_ringKept (carryFlit_ringKept s die.toNat up hdr gs)
  simp only [List.mem_cons, List.not_mem_nil, or_false] at row
  rcases row with rfl | rfl | rfl | rfl | rfl | rfl | rfl | rfl | rfl
  · exact carried 1
  · exact carried 2
  · exact carried 3
  · rw [exec_ringAck, execRingAck]
    exact onFlit_ringKept (ringAcked_ringKept s die.toNat up _)
  · exact execRingNak_ringKept die up hdr gs s
  · exact execRingCredit_ringKept die up hdr gs s
  · exact ⟨s, execRingIdle_eq die up hdr gs s, .refl s⟩
  · exact execRingReservedFlit_ringKept die up hdr gs s
  · exact execRingLinkDown_ringKept die up s

/-- Settles O57: each row is made of operations that keep the ring, and sealing gives a kept flit its seq and its hcrc. -/
theorem ringReplayStaysInOrder : Obligations.RingReplayStaysInOrder := by
  intro die up hdr gs c rest s t row front ordered stepped
  simp only [step, front] at stepped
  obtain ⟨u, ended, kept⟩ := exec_ringKept die up hdr gs c { s with pending := rest } row
  obtain rfl : u = t := Host.Outcome.next.inj (ended.symm.trans stepped)
  exact ⟨kept.ordered ordered, kept.pending⟩

/-! ### What the rows of the die ring do -/

/-- Granules that are clean or poison leave no record of the decoder. -/
theorem acceptFlit_unrecorded {gs : List Granule} (s : State) (die : Nat) (up : Bool) (h : BitVec 32)
    (plain : gs.all (fun g => decodeOutcome g == .clean || decodeOutcome g == .poison) = true) :
    acceptFlit s die up h gs =
      emitFlit (setRing s (ringEnd die up)
        { ringAt s (ringEnd die up) with rxSeq := ((ringAt s (ringEnd die up)).rxSeq + 1) % 4096, nakSent := false })
        (ringEnd die up) (bareFlit die (ringPeer die up) 4 (flitSeq h)) noGranules := by
  have unrecorded : (gs.map decodeOutcome).filter (fun o => o ≠ .clean && o ≠ .poison) = [] := by
    simp only [List.all_eq_true, Bool.or_eq_true, beq_iff_eq] at plain
    simp only [List.filter_eq_nil_iff, List.mem_map, forall_exists_index, and_imp, forall_apply_eq_imp_iff₂]
    intro g hg
    rcases plain g hg with h | h <;> simp [h]
  simp only [acceptFlit, unrecorded, List.foldl_nil]

/-- Nothing leaves a replay buffer whose oldest flit is not covered. -/
theorem ringAcked_uncovered {s : State} {die : Nat} {up : Bool} {covers : Nat → Bool} {f : BitVec 32 × List Granule}
    {r : List (BitVec 32 × List Granule)} (kept : (ringAt s (ringEnd die up)).replayBuf = f :: r)
    (uncovered : covers (flitSeq f.1) = false) : ringAcked s die up covers = s := by
  simp [ringAcked, kept, uncovered]

/-- A NAK of the oldest kept flit has every kept flit sent again, unless it has failed eight replays (R17). -/
theorem execRingNak_oldest {die : BitVec 3} {up : Bool} {h : BitVec 32} {gs : List Granule} {s : State} {f : BitVec 32 × List Granule}
    {r : List (BitVec 32 × List Granule)} (here : FlitReaches s (ringEnd die.toNat up) gs) (sound : FlitSound h gs)
    (typed : flitType h = 5) (kept : (ringAt s (ringEnd die.toNat up)).replayBuf = f :: r) (oldest : flitSeq h = flitSeq f.1) :
    execRingNak die up h gs s =
      let e := ringEnd die.toNat up
      let l := ringAt s e
      let u := setRing s e { l with frontReplays := l.frontReplays + 1 }
      .next (if l.frontReplays ≥ 8 then u else l.replayBuf.foldl (fun s f => emitFlit s e f.1 f.2) u) := by
  rw [execRingNak, onFlit_taken here sound (not_flitLate (by simp [typed])) typed]
  simp only [ringAcked_uncovered kept (covers := fun q => decide ((q + 4096 - flitSeq h) % 4096 ≥ 2048)) (by simp [oldest])]
  rw [if_neg (by simp [kept, oldest])]

/-- A REQ, DATA or WRITE flit that reaches its link end, is sound and is the next in order is delivered at its die or sent on. -/
theorem onFlit_carry {type : Nat} (sequenced : type ∈ [1, 2, 3]) (die : BitVec 3) (up : Bool) (h : BitVec 32) (gs : List Granule)
    (s : State) :
    let d := die.toNat
    let l := ringAt s (ringEnd d up)
    let t := acceptFlit s d up h gs
    let good := FlitReaches s (ringEnd d up) gs ∧ headerCrc h = h.toNat % 256 ∧ gs.any granuleBroken = false
    (good → flitType h = type → flitSeq h = l.rxSeq → onFlit type die up h gs s (fun s => carryFlit s d up h gs) = .next (
      if flitDst h = d then { t with ring := { t.ring with inbox := t.ring.inbox ++ [(d, h, cleanGranules gs)] } }
      else routeFlit t d h (cleanGranules gs))) ∧
    ((¬ good ∨ flitType h ≠ type ∨ flitSeq h ≠ l.rxSeq) →
      onFlit type die up h gs s (fun s => carryFlit s d up h gs) = .next s) := by
  intro d l t good
  obtain ⟨small, numbered⟩ : type < 7 ∧ type ∈ [1, 2, 3, 6] := by
    simp only [List.mem_cons, List.not_mem_nil, or_false] at sequenced ⊢
    omega
  refine ⟨fun ⟨here, crc, whole⟩ typed next =>
    onFlit_taken here ⟨crc, typed ▸ small, whole⟩ (fun late => late.2 next) typed, fun other => onFlit_ignored ?_⟩
  rintro ⟨here, ⟨crc, -, whole⟩, next, rfl⟩
  rcases other with bad | bad | bad
  · exact bad ⟨here, crc, whole⟩
  · exact bad rfl
  · exact next ⟨numbered, bad⟩

/-- A flit that is not taken for its hcrc, its type or a granule is answered by a NAK of the expected seq (R17). -/
theorem execRingReservedFlit_unsound {die : BitVec 3} {up : Bool} {h : BitVec 32} {gs : List Granule} {s : State}
    (here : FlitReaches s (ringEnd die.toNat up) gs) (bad : ¬ FlitSound h gs) :
    execRingReservedFlit die up h gs s = .next (nakFlit s die.toNat up) := by
  simp only [execRingReservedFlit, flitKind_discard here bad, nakFlit]

/-- A flit out of order is answered by a NAK, once for a run of them (R17). -/
theorem execRingReservedFlit_late {die : BitVec 3} {up : Bool} {h : BitVec 32} {gs : List Granule} {s : State}
    (here : FlitReaches s (ringEnd die.toNat up) gs) (sound : FlitSound h gs) (late : FlitLate s (ringEnd die.toNat up) h) :
    execRingReservedFlit die up h gs s =
      .next (if (ringAt s (ringEnd die.toNat up)).nakSent then s else nakFlit s die.toNat up) := by
  simp only [execRingReservedFlit, flitKind_outOfOrder here sound late, nakFlit]

/-- No row of a received flit acts where the flit does not reach its link end. -/
theorem exec_flit_notHere {die : BitVec 3} {up : Bool} {h : BitVec 32} {gs : List Granule} {s : State}
    (away : ¬ FlitReaches s (ringEnd die.toNat up) gs) (i : Instr)
    (row : i ∈ [Instr.ringAck die up h gs, .ringNak die up h gs, .ringCredit die up h gs, .ringReservedFlit die up h gs]) :
    exec i s = .next s := by
  simp only [List.mem_cons, List.not_mem_nil, or_false] at row
  rcases row with rfl | rfl | rfl | rfl
  · rw [exec_ringAck, execRingAck, onFlit_ignored (fun taken => away taken.1)]
  · rw [exec_ringNak, execRingNak, onFlit_ignored (fun taken => away taken.1)]
  · rw [exec_ringCredit, execRingCredit, onFlit_ignored (fun taken => away taken.1)]
  · simp only [exec_ringReservedFlit, execRingReservedFlit, flitKind_notHere away]

/-- A link end that keeps a flit goes out of service where that flit has failed eight replays, unless it has gone before (R17). -/
theorem execRingLinkDown_kept {die : BitVec 3} {up : Bool} {s : State} {f : BitVec 32 × List Granule}
    {r : List (BitVec 32 × List Granule)} (kept : (ringAt s (ringEnd die.toNat up)).replayBuf = f :: r) :
    execRingLinkDown die up s = .next (
      if (ringAt s (ringEnd die.toNat up)).frontReplays ≤ 8 ∨ (ringAt s (ringEnd die.toNat up)).down then s
      else takeLinkDown (report s { cause := 0x06, source := ringSource die.toNat up, info0 := flitSeq f.1 }) die.toNat up) := by
  simp only [execRingLinkDown, kept]

theorem execRingLinkDown_idle {die : BitVec 3} {up : Bool} {s : State}
    (idle : (ringAt s (ringEnd die.toNat up)).replayBuf = [] ∨ (ringAt s (ringEnd die.toNat up)).frontReplays ≤ 8 ∨
      (ringAt s (ringEnd die.toNat up)).down = true) : execRingLinkDown die up s = .next s := by
  rcases hb : (ringAt s (ringEnd die.toNat up)).replayBuf with _ | ⟨f, r⟩
  · simp only [execRingLinkDown, hb]
  · rw [execRingLinkDown_kept hb, if_pos (idle.resolve_left (by simp [hb]))]

/-- Settles O56: which flits are taken (`flitKind_of_iff`), and what each row does with one that is, and with one that is not. -/
theorem ringFlitsAndReplay : Obligations.RingFlitsAndReplay := by
  refine ⟨?_, ?_⟩
  · intro die up hdr gs s d e l t here good
    refine ⟨fun i type row => ?_, fun ⟨reaches, crc, whole⟩ typed => ?_, fun ⟨reaches, crc, whole⟩ typed next => ?_, ?_,
      exec_flit_notHere, acceptFlit_unrecorded s d up hdr⟩
    · simp only [List.mem_cons, Prod.mk.injEq, List.not_mem_nil, or_false] at row
      rcases row with ⟨rfl, rfl⟩ | ⟨rfl, rfl⟩ | ⟨rfl, rfl⟩ <;> exact onFlit_carry (by decide) die up hdr gs s
    · rw [exec_ringAck, execRingAck]
      exact onFlit_taken reaches ⟨crc, by omega, whole⟩ (not_flitLate (by simp [typed])) typed
    · rw [exec_ringCredit, execRingCredit]
      exact onFlit_taken reaches ⟨crc, by omega, whole⟩ (fun late => late.2 next) typed
    · exact execRingIdle_eq die up hdr gs s
  · intro die up hdr gs s d e e' l here good late
    refine ⟨fun reaches refused => ?_, fun reaches ⟨sound, out⟩ asked => ?_,
      fun reaches sound typed f r kept oldest => ⟨fun few => ?_, fun many => ?_⟩, execRingLinkDown_idle,
      fun f r kept failed inService => ?_⟩
    · rcases refused with bad | ⟨⟨sound, out⟩, unasked⟩
      · exact execRingReservedFlit_unsound reaches bad
      · exact (execRingReservedFlit_late reaches sound out).trans (congrArg Host.Outcome.next (if_neg (by simpa using unasked)))
    · exact (execRingReservedFlit_late reaches sound out).trans (congrArg Host.Outcome.next (if_pos asked))
    · exact (execRingNak_oldest reaches sound typed kept oldest).trans (congrArg Host.Outcome.next (if_neg (Nat.not_le.2 few)))
    · exact (execRingNak_oldest reaches sound typed kept oldest).trans (congrArg Host.Outcome.next (if_pos many))
    · exact (execRingLinkDown_kept kept).trans (congrArg Host.Outcome.next (if_neg (by
        rintro (few | gone)
        · exact Nat.not_le.2 failed few
        · exact Bool.false_ne_true (inService.symm.trans gone))))

end Sys2Proof.Proofs
end

section
/-! The combine tree: the padding of a split count, one node formed of its two children, and COMBINE_NODE over the output tiles of the
one command that a cluster holds (R42, R43, R87). -/
namespace Sys2Proof.Proofs

open Sys2Proof.Machine Sys2Proof.Laws

/-! ### Padded split counts (R42) -/

@[simp] theorem padSplits_one : padSplits 1 = 1 := rfl

theorem padSplits_eq {n : Nat} (many : 2 ≤ n) : padSplits n = 2 ^ (Nat.log2 (n - 1) + 1) := if_neg (by omega)

theorem padSplits_pow (n : Nat) : ∃ k, padSplits n = 2 ^ k := by
  rw [padSplits]
  split
  · exact ⟨0, rfl⟩
  · exact ⟨_, rfl⟩

/-- Several splits: their last index is below the padded count and not below its half. -/
theorem padSplits_bounds {n : Nat} (many : 2 ≤ n) : n ≤ padSplits n ∧ padSplits n < 2 * n := by
  have half : 2 ^ Nat.log2 (n - 1) ≤ n - 1 := Nat.log2_self_le (by omega)
  have last : n - 1 < 2 ^ (Nat.log2 (n - 1) + 1) := Nat.lt_log2_self
  rw [padSplits_eq many]
  rw [Nat.pow_succ] at last ⊢
  omega

/-- The padded count is the least power of two that is not below the count: the half of it is below the count. -/
theorem padSplits_spec {n : Nat} (nonempty : 1 ≤ n) : (∃ k, padSplits n = 2 ^ k) ∧ n ≤ padSplits n ∧ padSplits n < 2 * n := by
  refine ⟨padSplits_pow n, ?_⟩
  rcases Nat.eq_or_lt_of_le nonempty with rfl | many
  · simp
  · exact padSplits_bounds many

/-! ### What a right child's flits leave unchanged (R16, R87) -/

@[simp] theorem freshWord_host (s : State) : (freshWord s).2.host = s.host := rfl

@[simp] theorem sendFlit_host (s : State) (e : Nat) (h : BitVec 32) (gs : List Granule) : (sendFlit s e h gs).host = s.host := rfl

@[simp] theorem routeFlit_host (s : State) (die : Nat) (h : BitVec 32) (gs : List Granule) : (routeFlit s die h gs).host = s.host := by
  unfold routeFlit
  split
  · exact sendFlit_host _ _ _ _
  · rfl

@[simp] theorem moveChild_host (s : State) (src dst : Nat) (words : List MarkedWord) : (moveChild s src dst words).host = s.host := by
  unfold moveChild
  generalize chunksOf 13 words.length words = pieces
  induction pieces generalizing s with
  | nil => rfl
  | cons ws rest ih => rw [List.foldl_cons, ih, routeFlit_host, freshWord_host, freshWord_host]

/-- The tasks of a command's splits are read from its slot. -/
theorem splitTask_congr {s t : State} (same : t.host = s.host) (c : Cmd) : splitTask t c = splitTask s c := by
  funext tile i
  simp only [splitTask, slotAt, same]

/-! ### One node of a tile's tree (R43, R87) -/

/-- Whether the combine unit of cluster `g` can form a node now: its lowest split's partial is there, it is not formed yet, and both its
children are present (R87). -/
structure NodeDue (s : State) (c : Cmd) (g l i tile : Nat) : Prop where
  here : partialCluster s c (splitTask s c tile i) = some g
  unformed : formedOf c.parts (allNodes c) tile l i = none
  left : childReady s c tile (l - 1) i = true
  right : childReady s c tile (l - 1) (i + 2 ^ (l - 1)) = true

/-- The tasks of the splits that a node covers. -/
def coveredTasks (s : State) (c : Cmd) (l i tile : Nat) : List Nat := (List.range (2 ^ l)).map (fun n => splitTask s c tile (i + n))

/-- A node kept on its cluster's hold, with the slots of the tasks that it covers free (R87). -/
def keepNode (c : Cmd) (g l i tile : Nat) (v : List RowAcc) (tasks : List Nat) (s : State) : State :=
  updHold (updCmd s c.key (fun c => { c with slotted := c.slotted.filter (fun e => !tasks.contains e.1) })) c.key g
    (fun h => { h with nodes := tset [] h.nodes (nodeKey tile l i) v })

/-- The state once a node's right child has come to cluster `g` from the cluster that holds it: over the die ring from another die slice
(R16, R87). -/
def bringChild (s : State) (c : Cmd) (g : Nat) : Option (List RowAcc) → Option Nat → State
  | some x, some g' => if g' / 4 = g / 4 then s else moveChild s (g' / 4) (g / 4) (partialWords c (slotAt s c.key) x)
  | _, _ => s

theorem bringChild_absent (s : State) (c : Cmd) (g : Nat) (source : Option Nat) : bringChild s c g none source = s := rfl

theorem bringChild_sameSlice (s : State) (c : Cmd) (child : Option (List RowAcc)) {g g' : Nat} (same : g' / 4 = g / 4) :
    bringChild s c g child (some g') = s := by
  cases child with
  | none => rfl
  | some x => exact if_pos same

theorem bringChild_otherSlice (s : State) (c : Cmd) (x : List RowAcc) {g g' : Nat} (other : g' / 4 ≠ g / 4) :
    bringChild s c g (some x) (some g') = moveChild s (g' / 4) (g / 4) (partialWords c (slotAt s c.key) x) := if_neg other

theorem bringChild_host (s : State) (c : Cmd) (g : Nat) (child : Option (List RowAcc)) (source : Option Nat) :
    (bringChild s c g child source).host = s.host := by
  unfold bringChild
  split
  · split
    · rfl
    · exact moveChild_host _ _ _ _
  · rfl

/-- A node that is due is formed where it is due, after its right child has come. -/
theorem combineTile_due {s : State} {c : Cmd} {g l i tile : Nat} {v : List RowAcc} {child : Option (List RowAcc)} {source : Option Nat}
    (due : NodeDue s c g l i tile) (node : nodeOf c.opcode (slotAt s c.key) c.parts (allNodes c) tile l i = some v)
    (right : nodeOf c.opcode (slotAt s c.key) c.parts (allNodes c) tile (l - 1) (i + 2 ^ (l - 1)) = child)
    (holder : partialCluster s c (splitTask s c tile (i + 2 ^ (l - 1))) = source) :
    combineTile s c g l i tile = keepNode c g l i tile v (coveredTasks s c l i tile) (bringChild s c g child source) := by
  have tasks : coveredTasks (bringChild s c g child source) c l i tile = coveredTasks s c l i tile := by
    simp only [coveredTasks, splitTask_congr (bringChild_host s c g child source)]
  rw [← tasks]
  simp only [combineTile, due.here, due.unformed, due.left, due.right, node, right, holder, Option.isNone_none, and_self, if_true]
  cases child <;> cases source <;> rfl

theorem combineTile_notDue {s : State} {c : Cmd} {g l i tile : Nat} (idle : ¬ NodeDue s c g l i tile) : combineTile s c g l i tile = s :=
  if_neg (fun ⟨here, unformed, left, right⟩ => idle ⟨here, Option.isNone_iff_eq_none.1 unformed, left, right⟩)

/-! ### COMBINE_NODE -/

/-- COMBINE_NODE of an aligned range of a command's splits, output tile by output tile: each tile reads the command as the tiles before
have left it. -/
def combineTiles (s : State) (c : Cmd) (g l i : Nat) : State :=
  (List.range (tileCount c c.opcode (slotAt s c.key))).foldl
    (fun s t => (cmdOf s c.key).elim s (fun c => combineTile s c g l i t)) s

/-- COMBINE_NODE on a cluster that one compute command holds: the command's tiles are combined over an aligned range of its splits, and
nothing is done over any other. -/
theorem combineNode_one {s : State} {c : Cmd} {g : Nat}
    (only : s.cmds.filter (fun c => isCompute c.opcode && c.holds.any (fun h => h.cluster == g)) = [c]) (l i : Nat) :
    combineNode s g l i =
      if l = 0 ∨ i % 2 ^ l ≠ 0 ∨ i + 2 ^ l > splitsOf c.opcode (slotAt s c.key) then s else combineTiles s c g l i := by
  rw [combineNode, only]
  rfl

/-- Settles O39: the range decides whether COMBINE_NODE combines (`combineNode_one`), what is due whether a tile's node is formed
(`combineTile_due`), and where the right child is whether it crosses the die ring (`bringChild`). -/
theorem combineTree : Obligations.CombineTree := by
  refine ⟨?_, ?_, fun n nonempty _ => padSplits_spec nonempty⟩
  · intro cluster level first s c g l i only
    rw [exec_combineNode, execCombineNode, combineNode_one only]
    refine ⟨fun above aligned inside => ?_, fun outside => ?_⟩
    · rw [if_neg (by
        rintro (low | skew | past)
        · exact above low
        · exact skew aligned
        · exact Nat.not_lt.2 inside past)]
      rfl
    · rw [if_pos outside]
  · intro s c g l i tile v p here both old pair half right
    refine ⟨fun placed unformed ready node => ?_, fun idle => combineTile_notDue fun due => ?_⟩
    · have due : NodeDue s c g l i tile := ⟨placed, unformed, ready.1, ready.2⟩
      refine ⟨fun g' source same => ?_, fun absent => ?_, fun g' y source child other => ?_⟩
      · exact (combineTile_due due node rfl source).trans (congrArg _ (bringChild_sameSlice s c _ same))
      · exact (combineTile_due due node absent rfl).trans (congrArg _ (bringChild_absent s c g _))
      · exact (combineTile_due due node child source).trans (congrArg _ (bringChild_otherSlice s c y other))
    · rcases idle with away | done | waiting
      · exact away due.here
      · exact done due.unformed
      · exact waiting ⟨due.left, due.right⟩

end Sys2Proof.Proofs
end

section
/-! The state after reset: every table is empty, so what is read from one is the value that reset gives, and nothing is there for the
end of a step to carry on (R358, R365). -/
namespace Sys2Proof.Proofs

open Sys2Proof.Machine Sys2Proof.Laws Sys2Proof.Safety

/-! ### What is read from the empty tables -/

@[simp] theorem reset_slotAt (k : Nat) : slotAt State.reset k = 0#2048 := rfl
@[simp] theorem reset_ctrReg (off : Nat) : ctrReg State.reset off = 0 := rfl
@[simp] theorem reset_arrivalOf (core c : Nat) : arrivalOf State.reset core c = ArrivalCounter.reset := rfl
@[simp] theorem reset_windowOf (core w : Nat) : windowOf State.reset core w = Window.reset := rfl
@[simp] theorem reset_farModule (m : Nat) : farModule State.reset m = FarModule.reset := rfl
@[simp] theorem reset_portAt (p : Nat) : portAt State.reset p = KtlPort.reset := rfl
@[simp] theorem reset_procOf (i : Nat) : procOf State.reset i = Proc.reset := rfl
@[simp] theorem reset_isFenced (x : Nat) : isFenced State.reset x = false := rfl

/-- The OWN bit of an empty slot is 0 (R308). -/
@[simp] theorem reset_slotOwned (k : Nat) : slotOwned State.reset k = false := by
  rw [slotOwned, reset_slotAt, BitVec.getLsbD_zero]

/-! ### Nothing is under way -/

/-- Every list that `quiet` asks for is empty, and each die has 0 near-tier frames committed (configuration item 0x1016). -/
theorem reset_quiet : quiet State.reset = true := by decide

/-- Every memory is empty. -/
theorem reset_memoriesCanonical : memoriesCanonical State.reset = true := by
  simp only [memoriesCanonical, State.reset, mem_reset_wf, Bool.and_self]

/-- No link end holds a flit for replay. -/
theorem reset_ringInOrder : ringInOrder State.reset = true := rfl

/-- Settles O3: what each table gives where it has no entry, and `reset_quiet` for what is under way. -/
theorem resetState : Obligations.ResetState := by
  refine ⟨⟨rfl, rfl, rfl, rfl, reset_ctrReg, fun core c _ => reset_arrivalOf core c, fun core w _ => ?_, fun m => ?_, fun p => ?_,
    fun i => ?_, reset_isFenced, rfl⟩, reset_quiet, reset_memoriesCanonical, reset_ringInOrder, rfl, reset_slotOwned⟩
  · rw [reset_windowOf]; exact ⟨rfl, rfl⟩
  · rw [reset_farModule]; exact ⟨rfl, rfl⟩
  · rw [reset_portAt]; rfl
  · rw [reset_procOf]; rfl

end Sys2Proof.Proofs
end

section
/-! ARRAY_PARITY: one equation for each thing it can meet on the core's cluster, and what a correctable error leaves (R65). -/
namespace Sys2Proof.Proofs

open Sys2Proof.Machine Sys2Proof.Laws

@[simp] theorem report_cmds (s : State) (a : ErrArgs) : (report s a).cmds = s.cmds := by
  obtain ⟨r, d, l, reported, -⟩ := report_frame s a
  rw [reported]

theorem accumulatorCe_cmds (s : State) (core : Nat) : (accumulatorCe s core).cmds = s.cmds := by
  rw [accumulatorCe, report_cmds]
  rfl

theorem arrayParity_fenced {s : State} {core : Nat} (fenced : isFenced s core = true) (correctable : Bool) :
    arrayParity s core correctable = s := if_pos fenced

/-- The record that an error of a core's array leaves for the plan step of a command (R65). -/
def stepError (cause core : Nat) (c : Cmd) (h : Hold) : ErrArgs :=
  { cause := cause, source := core, key := some c.key, cluster := clusterOf core, info0 := recordSteps h 0 }

section
variable {s : State} {core : Nat} (working : isFenced s core = false)
include working

theorem arrayParity_correctable : arrayParity s core true = accumulatorCe s core := by
  simp only [arrayParity, working, Bool.false_eq_true, if_false, if_true]

/-- With no plan step under way the error is recorded. -/
theorem arrayParity_idle (idle : steppingOn (bumpArr s (clusterOf core) 0x68 1) (clusterOf core) = none) :
    arrayParity s core false =
      report (bumpArr s (clusterOf core) 0x68 1) { cause := 0x03, source := core, cluster := clusterOf core } := by
  simp only [arrayParity, working, Bool.false_eq_true, if_false, idle]

variable {c : Cmd} {h : Hold} (stepping : steppingOn (bumpArr s (clusterOf core) 0x68 1) (clusterOf core) = some (c, h))
include stepping

/-- An error of a plan step that has had fewer than two is counted on the command's hold, and the step replays. -/
theorem arrayParity_replays (few : h.parityErrors < 2) :
    arrayParity s core false =
      replayStep (updHold (report (bumpArr s (clusterOf core) 0x68 1) (stepError 0x03 core c h)) c.key (clusterOf core)
        (fun h => { h with parityErrors := h.parityErrors + 1 })) c.key (clusterOf core) := by
  simp only [arrayParity, working, Bool.false_eq_true, if_false, stepping, if_neg (Nat.not_le.2 few), stepError]

/-- The third error of a plan step ends its command. -/
theorem arrayParity_ends (many : 2 ≤ h.parityErrors) :
    arrayParity s core false = abortCmd (report (bumpArr s (clusterOf core) 0x68 1) (stepError 0x04 core c h)) c.key 0x20 := by
  simp only [arrayParity, working, Bool.false_eq_true, if_false, stepping, if_pos many, stepError]

end

theorem exec_arrayParity_of {s t : State} {core : BitVec 8} {correctable : Bool} (acts : arrayParity s core.toNat correctable = t) :
    exec (.arrayParity core correctable) s = .next (settle t) := by
  rw [exec_arrayParity, execArrayParity, acts]

/-- Settles O40: the plan step under way on the core's cluster, and its count of errors, decide what ARRAY_PARITY does. -/
theorem arrayParityReplays : Obligations.ArrayParityReplays := by
  intro core s c h n g
  refine ⟨fun correctable fenced => exec_arrayParity_of (arrayParity_fenced fenced correctable),
    fun working => exec_arrayParity_of (arrayParity_correctable working), accumulatorCe_cmds s n, ?_⟩
  intro u working
  refine ⟨fun idle => exec_arrayParity_of (arrayParity_idle working idle), fun stepping => ⟨fun few => ?_, fun many => ?_⟩⟩
  · exact exec_arrayParity_of (arrayParity_replays working stepping few)
  · exact exec_arrayParity_of (arrayParity_ends working stepping many)

end Sys2Proof.Proofs
end

section
/-! Host writes of the window, area by area, and FREEZE and CLEAR of a counter block (R70, R71, R304, R305, R310). -/
namespace Sys2Proof.Proofs

open Sys2Proof.Machine Sys2Proof.Laws

/-! ### Host writes of the window -/

theorem windowWrite_misaligned {s : State} {off n v : Nat} (bad : (n ≠ 4 ∧ n ≠ 8) ∨ off % n ≠ 0) :
    windowWrite s off n v = discardWrite s := if_pos bad

theorem viewSlot_host {off : Nat} (low : 0x8000 ≤ off) (high : off < 0xC000) : viewSlot .host off = some ((off - 0x8000) / 256) :=
  if_neg (by omega)

theorem viewSlot_below {port : Port} {off : Nat} (low : off < 0x8000) : viewSlot port off = none := if_pos (.inl low)

theorem slotWrite_owned {s : State} {k : Nat} (owned : slotOwned s k = true) (o n v : Nat) : slotWrite s k o n v = discardWrite s :=
  if_pos owned

/-- A write into a host-owned slot past its hdr is stored. -/
theorem slotWrite_stored {s : State} {k o : Nat} (free : slotOwned s k = false) (past : 8 ≤ o) (n v : Nat) :
    slotWrite s k o n v = setSlot s k (setBits (slotAt s k) (8 * o) (8 * n) v) := by
  simp only [slotWrite, free, Bool.false_eq_true, if_false]
  rw [if_neg (by omega), if_neg (by omega)]

section
variable {off n : Nat} (size : n = 4 ∨ n = 8) (aligned : off % n = 0)
include size aligned

theorem windowWrite_slot (s : State) (v : Nat) (low : 0x8000 ≤ off) (high : off < 0xC000) :
    windowWrite s off n v = slotWrite s ((off - 0x8000) / 256) (off % 256) n (v % 2 ^ (8 * n)) := by
  rw [windowWrite, if_neg (by omega), viewSlot_host low high]

/-- The identification and status blocks take no write. -/
theorem windowWrite_status (s : State) (v : Nat) (low : off < 0x200) : windowWrite s off n v = s := by
  have outside : inCounters off = false := by
    simp only [inCounters, Bool.or_eq_false_iff, decide_eq_false_iff_not]
    omega
  rw [windowWrite, if_neg (by omega), viewSlot_below (by omega)]
  simp only [outside, Bool.false_eq_true, false_and, if_false]
  rw [if_neg (by omega)]

end

theorem exec_windowWrite_host (off : BitVec 16) (n : Nat) (v : BitVec 64) (s : State) :
    exec (.windowWrite .host off n v) s = .next (settle (windowWrite s off.toNat n v.toNat)) := rfl

/-! ### FREEZE and CLEAR of a counter block -/

theorem freezeWord_hold (hold : Bool) : (if hold then 2 else 0 : BitVec 64).getLsbD 1 = hold := by cases hold <;> rfl

/-- FREEZE is kept in the CTL register, and no other register changes. -/
theorem ctlWrite_freeze {s : State} (canonical : Table.wf 0 s.counters = true) (base : Nat) (hold : Bool) :
    ctrFrozen (ctlWrite s base hold false) base = hold ∧
      ∀ off, off ≠ base → ctrReg (ctlWrite s base hold false) off = ctrReg s off := by
  have read (off : Nat) : ctrReg (ctlWrite s base hold false) off = if off = base then (if hold then 2 else 0) else ctrReg s off :=
    tget_tset base off _ canonical
  refine ⟨?_, fun off other => by rw [read, if_neg other]⟩
  rw [ctrFrozen, read, if_pos rfl, freezeWord_hold]

theorem clearBlock_wf {s : State} (canonical : Table.wf 0 s.counters = true) (base : Nat) :
    Table.wf 0 (clearBlock s base).counters = true := by
  have block := dropKeys_wf (base + 8) (base + 0x80) canonical
  simp only [clearBlock]
  split
  · exact dropKeys_wf 0x1068 0x1070 block
  · exact block

theorem clearBlock_cleared {s : State} (canonical : Table.wf 0 s.counters = true) {base off : Nat} (low : base + 8 ≤ off)
    (high : off < base + 0x80) : ctrReg (clearBlock s base) off = 0 := by
  have block := dropKeys_wf (base + 8) (base + 0x80) canonical
  have cleared : tget 0 (dropKeys (base + 8) (base + 0x80) s.counters) off = 0 := by
    rw [tget_dropKeys _ _ canonical, if_pos ⟨low, high⟩]
  simp only [ctrReg, clearBlock]
  split
  · rw [tget_dropKeys _ _ block, cleared, ite_self]
  · exact cleared

/-- CLEAR leaves every register outside the block but the package count of R257. -/
theorem clearBlock_outside {s : State} (canonical : Table.wf 0 s.counters = true) {base off : Nat}
    (outside : off < base ∨ base + 0x80 ≤ off) (notPackage : off < 0x1068 ∨ 0x1070 ≤ off) :
    ctrReg (clearBlock s base) off = ctrReg s off := by
  have block := dropKeys_wf (base + 8) (base + 0x80) canonical
  have kept : tget 0 (dropKeys (base + 8) (base + 0x80) s.counters) off = tget 0 s.counters off := by
    rw [tget_dropKeys _ _ canonical, if_neg (by omega)]
  simp only [ctrReg, clearBlock]
  split
  · rw [tget_dropKeys _ _ block, if_neg (by omega), kept]
  · exact kept

/-- What a register reads after CLEAR of a block: its CTL register is written, and the others are as `clearBlock` leaves them. -/
theorem ctrReg_ctlWrite_clear {s : State} (canonical : Table.wf 0 s.counters = true) (base : Nat) (hold : Bool) (off : Nat) :
    ctrReg (ctlWrite s base hold true) off = if off = base then (if hold then 2 else 0) else ctrReg (clearBlock s base) off :=
  tget_tset base off _ (clearBlock_wf canonical base)

theorem ctrFrozen_ctlWrite_clear {s : State} (canonical : Table.wf 0 s.counters = true) (base : Nat) (hold : Bool) :
    ctrFrozen (ctlWrite s base hold true) base = hold := by
  rw [ctrFrozen, ctrReg_ctlWrite_clear canonical, if_pos rfl, freezeWord_hold]

/-- A frozen block counts nothing. -/
theorem bump_frozen {s : State} {base : Nat} (frozen : ctrFrozen s base = true) (reg n : Nat) : bump s base reg n = s :=
  if_pos frozen

/-- Settles O45: a host write acts by the area of its offset, FREEZE writes the CTL register alone, and CLEAR drops the block's event
counters. -/
theorem windowAndCounterBlocks : Obligations.WindowAndCounterBlocks := by
  refine ⟨?_, ?_⟩
  · intro off n v s o k discarded
    simp only [exec_windowWrite_host]
    refine ⟨fun bad => ?_, fun size aligned low high => ?_, fun size aligned low => ?_⟩
    · rw [windowWrite_misaligned bad]
      rfl
    · rw [windowWrite_slot size aligned s v.toNat low high]
      refine ⟨fun owned => ?_, fun free past => ?_⟩
      · rw [slotWrite_owned owned]
        rfl
      · rw [slotWrite_stored free past]
    · rw [windowWrite_status size aligned s v.toNat low]
  · intro blk s canonical base
    refine ⟨fun hold => ⟨_, rfl, ctlWrite_freeze canonical base hold⟩,
      ⟨ctlWrite s base (ctrFrozen s base) true, rfl, ctrFrozen_ctlWrite_clear canonical base _, fun off low high => ?_,
        fun off outside notPackage => ?_, rfl⟩, fun frozen _ => bump_frozen frozen⟩
    · rw [ctrReg_ctlWrite_clear canonical, if_neg (by omega), clearBlock_cleared canonical low high]
    · rw [ctrReg_ctlWrite_clear canonical, if_neg (by omega), clearBlock_outside canonical outside notPackage]

end Sys2Proof.Proofs
end

section
/-! The plan steps of a cluster: which plan step PLAN_STEP_START begins and PLAN_STEP_COMMIT stages, and what holds each back (R86, R87,
R209, R366). -/
namespace Sys2Proof.Proofs

open Sys2Proof.Machine Sys2Proof.Laws

/-- Whether a plan step has all that it begins with: what it finishes has committed and its trees are formed (R86), the ring carries it, the
combine units have its slots (R87) and its stream queues are free. -/
def StepReady (s : State) (c : Cmd) (g : Nat) (x : StepAt) : Prop :=
  (finishesTiles s c x = true → finishReady s c x = true) ∧ treesReady s c x = true ∧ ringReady s c x = true ∧
    slotsFree s c x = true ∧ queuesFree s c g x = true

/-- The test of `planStepStart` that leaves a step for later. -/
theorem heldBack_iff_not_stepReady (s : State) (c : Cmd) (g : Nat) (x : StepAt) :
    ((finishesTiles s c x && !finishReady s c x) || !treesReady s c x || !ringReady s c x || !slotsFree s c x ||
      !queuesFree s c g x) = true ↔ ¬ StepReady s c g x := by
  simp only [StepReady, Bool.or_eq_true, Bool.and_eq_true, Bool.not_eq_true', Decidable.not_and_iff_or_not, Classical.not_imp,
    Bool.not_eq_true, or_assoc]

section
variable {s : State} {g : Nat} {c : Cmd} {h : Hold} {x : StepAt}

/-! ### PLAN_STEP_START -/

theorem planStepStart_idle (idle : runningOn s g = none) : planStepStart s g = s := by
  rw [planStepStart, idle]

theorem planStepStart_mayNot (running : runningOn s g = some (c, h)) (barred : mayStart s c h = false) : planStepStart s g = s := by
  simp only [planStepStart, running, barred, Bool.not_false, if_true]

/-- A command that may start its next plan step begins it when the step is ready. -/
theorem planStepStart_may (running : runningOn s g = some (c, h)) (next : nextStep s c h = some x) (may : mayStart s c h = true) :
    (StepReady s c g x → planStepStart s g = stepAct (ungate s g) c.key g (beginStep c h x)) ∧
      (¬ StepReady s c g x → planStepStart s g = s) := by
  simp only [planStepStart, running, next, may, Bool.not_true, Bool.false_eq_true, if_false]
  exact ⟨fun ready => if_neg fun heldBack => (heldBack_iff_not_stepReady s c g x).1 heldBack ready,
    fun waiting => if_pos ((heldBack_iff_not_stepReady s c g x).2 waiting)⟩

/-! ### PLAN_STEP_COMMIT -/

theorem planStepCommit_idle (idle : steppingOn s g = none) : planStepCommit s g = s := by
  rw [planStepCommit, idle]

/-- On an awake cluster that takes work, the queues of the step under way decide whether the step is staged. -/
theorem planStepCommit_stepping (stepping : steppingOn s g = some (c, h)) (next : nextStep s c h = some x) (sound : h.faulted = false)
    (usable : clusterUsable s g = true) (awake : clusterAsleep s g = false) :
    planStepCommit s g = if queuesReady s c g x then stepAct s c.key g (stageStep c h x) else s := by
  have works : ¬ (h.faulted = true ∨ (!clusterUsable s g) = true ∨ clusterAsleep s g = true) := by simp [sound, usable, awake]
  simp only [planStepCommit, stepping, next, if_neg works]

end

/-! ### The two rows -/

theorem exec_planStepStart_of {s t : State} {cluster : BitVec 5} (acts : planStepStart s cluster.toNat = t) :
    exec (.planStepStart cluster) s = .next (settle t) := by
  rw [exec_planStepStart, execPlanStepStart, acts]

theorem exec_planStepCommit_of {s t : State} {cluster : BitVec 5} (acts : planStepCommit s cluster.toNat = t) :
    exec (.planStepCommit cluster) s = .next (settle t) := by
  rw [exec_planStepCommit, execPlanStepCommit, acts]

/-- Settles O37: the plan step that the cluster's command runs next begins when it is ready, and the one under way is staged when its queues
are. -/
theorem planStepsStartAndCommit : Obligations.PlanStepsStartAndCommit := by
  intro cluster s c h x g ready
  refine ⟨fun running next => ⟨fun may isReady => ?_, fun heldBack => exec_planStepStart_of ?_⟩,
    fun idle => exec_planStepStart_of (planStepStart_idle idle), fun stepping sound usable awake next => ?_,
    fun idle => exec_planStepCommit_of (planStepCommit_idle idle)⟩
  · exact exec_planStepStart_of ((planStepStart_may running next may).1 isReady)
  · cases may : mayStart s c h with
    | false => exact planStepStart_mayNot running may
    | true =>
      have waiting : ¬ StepReady s c g x := heldBack.resolve_left (by simp [may])
      exact (planStepStart_may running next may).2 waiting
  · have commits := planStepCommit_stepping stepping next sound usable awake
    exact ⟨fun done => exec_planStepCommit_of (commits.trans (if_pos done)),
      fun waits => exec_planStepCommit_of (commits.trans (if_neg (by simp [waits])))⟩

end Sys2Proof.Proofs
end

section
/-! Waits for an allocation: the one that service ends, and the one that time fails (R119, R125). -/
namespace Sys2Proof.Proofs

open Sys2Proof.Machine Sys2Proof.Laws

/-! ### What a record and a count leave of the page keepers -/

@[simp] theorem report_pgk (s : State) (a : ErrArgs) : (report s a).pgk = s.pgk := by
  obtain ⟨r, d, l, reported, -⟩ := report_frame s a
  rw [reported]

@[simp] theorem bumpPgk_pgk (s : State) (d reg n : Nat) : (bumpPgk s d reg n).pgk = s.pgk := by
  obtain ⟨c, l, p, f, counted⟩ := bump_frame s (0x0800 + d * 0x80) reg n
  rw [bumpPgk, counted]

/-! ### ALLOC_WAIT_SATISFIED -/

theorem not_served {a : AllocWait} (h : a.held = none ∨ a.done = true) : (a.held.isSome && !a.done) = false := by
  rcases h with unserved | ended
  · rw [unserved, Option.isSome_none, Bool.false_and]
  · rw [ended, Bool.not_true, Bool.and_false]

/-- Of the allocations for which a page is kept and whose wait has not ended, the first ends its wait. -/
theorem allocSatisfied_oldest {s : State} {l r : List AllocWait} {a : AllocWait} (waits : s.pgk.allocWaits = l ++ a :: r)
    (before : ∀ b ∈ l, b.held = none ∨ b.done = true) (kept : a.held.isSome = true) (waiting : a.done = false) :
    allocSatisfied s =
      { s with pgk := { s.pgk with allocWaits := s.pgk.allocWaits.map (fun x => if x = a then { x with done := true } else x) } } := by
  have oldest : s.pgk.allocWaits.find? (fun a => a.held.isSome && !a.done) = some a :=
    List.find?_eq_some_iff_append.2 ⟨by simp [kept, waiting], l, r, waits, fun b older => by
      simp only [not_served (before b older), Bool.not_false]⟩
  simp only [allocSatisfied, oldest]

theorem allocSatisfied_none {s : State} (unserved : ∀ b ∈ s.pgk.allocWaits, b.held = none ∨ b.done = true) : allocSatisfied s = s := by
  have absent : s.pgk.allocWaits.find? (fun a => a.held.isSome && !a.done) = none :=
    List.find?_eq_none.2 fun b waits => ne_true_of_eq_false (not_served (unserved b waits))
  simp only [allocSatisfied, absent]

/-! ### ALLOC_TIMEOUT -/

theorem not_overdue {s : State} {a : AllocWait} (h : a.held.isSome = true ∨ s.now ≤ a.since + allocBudget s a) :
    (a.held.isNone && decide (s.now > a.since + allocBudget s a)) = false := by
  rcases h with served | inTime
  · rw [Option.isNone_eq_false_iff.2 served, Bool.false_and]
  · rw [decide_eq_false (Nat.not_lt.2 inTime), Bool.and_false]

/-- The record and the count of an allocation that has waited too long (R119). -/
def noteTimeout (s : State) (a : AllocWait) : State :=
  bumpPgk (report s ⟨0x14, pgkSource (a.cluster / 4), some a.key, a.cluster, 0xFF, (dropOrder a).getLastD (a.cluster / 4), 0, 0⟩)
    (a.cluster / 4) 0x70 1

theorem noteTimeout_pgk (s : State) (a : AllocWait) : (noteTimeout s a).pgk = s.pgk := by
  rw [noteTimeout, bumpPgk_pgk, report_pgk]

/-- The allocation that ALLOC_TIMEOUT fails is the first that nothing is kept for and whose time has passed; it fails its restoration where
it waits for one that goes on, else its command. -/
theorem allocTimeout_oldest {s : State} {l r : List AllocWait} {a : AllocWait} (waits : s.pgk.allocWaits = l ++ a :: r)
    (before : ∀ b ∈ l, b.held.isSome = true ∨ s.now ≤ b.since + allocBudget s b) (unserved : a.held = none)
    (late : a.since + allocBudget s a < s.now) :
    allocTimeout s = (a.restore.bind (fun p => s.pgk.restores.find? (fun y => y.page == p))).elim
      (abortCmd (noteTimeout s a) a.key 0x20) (failRestore (noteTimeout s a)) := by
  have oldest : s.pgk.allocWaits.find? (fun a => a.held.isNone && decide (s.now > a.since + allocBudget s a)) = some a :=
    List.find?_eq_some_iff_append.2 ⟨by simp [unserved, late], l, r, waits, fun b older => by
      simp only [not_overdue (before b older), Bool.not_false]⟩
  have restores := congrArg Pgk.restores (noteTimeout_pgk s a)
  simp only [allocTimeout, oldest]
  rw [← restores]
  simp only [noteTimeout]
  split <;> next h => simp only [h, Option.elim_some, Option.elim_none]

theorem allocTimeout_none {s : State} (inTime : ∀ b ∈ s.pgk.allocWaits, b.held.isSome = true ∨ s.now ≤ b.since + allocBudget s b) :
    allocTimeout s = s := by
  have absent : s.pgk.allocWaits.find? (fun a => a.held.isNone && decide (s.now > a.since + allocBudget s a)) = none :=
    List.find?_eq_none.2 fun b waits => ne_true_of_eq_false (not_overdue (inTime b waits))
  simp only [allocTimeout, absent]

theorem exec_allocWaitSatisfied_of {s t : State} (acts : allocSatisfied s = t) : exec .allocWaitSatisfied s = .next (settle t) := by
  rw [exec_allocWaitSatisfied, execAllocWaitSatisfied, acts]

theorem exec_allocTimeout_of {s t : State} (acts : allocTimeout s = t) : exec .allocTimeout s = .next (settle t) := by
  rw [exec_allocTimeout, execAllocTimeout, acts]

/-- Settles O41: each row acts on the first allocation that its test admits, and on none where there is none. -/
theorem allocationWaitsEnd : Obligations.AllocationWaitsEnd := by
  intro s l r a waits
  refine ⟨fun before kept waiting => exec_allocWaitSatisfied_of (allocSatisfied_oldest waits before kept waiting),
    fun before unserved late => ?_, fun unserved => exec_allocWaitSatisfied_of (allocSatisfied_none unserved),
    fun inTime => exec_allocTimeout_of (allocTimeout_none inTime)⟩
  have fails := allocTimeout_oldest waits before unserved late
  refine ⟨fun own => exec_allocTimeout_of ?_, fun p x restoring found => exec_allocTimeout_of ?_⟩
  · rw [fails, own, Option.bind_none, Option.elim_none, noteTimeout]
  · rw [fails, restoring, Option.bind_some, found, Option.elim_some, noteTimeout]

end Sys2Proof.Proofs
end

section
/-! Page moves that commit, and restorations that run (R123, R125). -/
namespace Sys2Proof.Proofs

open Sys2Proof.Machine Sys2Proof.Laws Sys2Proof.Safety

/-! ### MOVE_COMMIT -/

theorem commitMove_none {s : State} {page : Nat} (still : moveOf s page = none) : commitMove s page = s := by
  rw [commitMove, still]

/-- The header of a page that a move has brought to its new frame (R123). -/
def movedHdr (m : Move) (h : PageHdr) : PageHdr :=
  { h with
    frame := m.newFrame, tier := if m.toFar then 1 else 0, moving := false, state := if h.state = 2 then 2 else if m.toFar then 3 else 1 }

/-- The copy of a page that moves, which answers its old header (R123). -/
def copyMove (m : Move) (page : Nat) : Act PageHdr := do
  let h ← readHdr { die := numDie page } page
  copyFrames { die := numDie page } (hdrForm h) (numDie page) h.tier h.frame (numDie page) (if m.toFar then 1 else 0) m.newFrame
  writeHdr { die := numDie page } page (movedHdr m h)
  return h

/-- A move whose page has been copied gives the old frame back and is counted. -/
theorem commitMove_copied {s t : State} {page : Nat} {m : Move} {h : PageHdr} (moves : moveOf s page = some m)
    (copied : (copyMove m page).run s = .ok h t) :
    commitMove s page =
      (let u := returnFrame t (numDie page) h.tier h.frame
       countMove (bumpPgk { u with pgk := { u.pgk with moves := u.pgk.moves.filter (fun x => !(x.page == page && x.started)) } } (numDie page)
         (if m.toFar then 0x48 else 0x50) 1) m true) := by
  have run : (do
      let h ← copyMove m page
      modify (fun s => returnFrame s (numDie page) h.tier h.frame) : Act Unit).run s =
        .ok () (returnFrame t (numDie page) h.tier h.frame) := by
    rw [EStateM.run_bind, copied]
    rfl
  simp only [copyMove, movedHdr, bind_assoc, pure_bind] at run
  simp only [commitMove, moves, run]

theorem exec_moveCommit_of {s t : State} {page : BitVec 32} (acts : commitMove s page.toNat = t) :
    exec (.moveCommit page) s = .next (settle t) := by
  rw [exec_moveCommit, execMoveCommit, acts]

/-! ### RESTORE_COMPLETE -/

/-- What the run of a page's restoration leaves, by how it ends: all of it undone for a translation fault, kept where it waits, and its pages
DROPPED again where it fails (R125, R126). -/
def afterRestore (s : State) (page : Nat) (r : Restore) : EStateM.Result Stop State Unit → State
  | .ok _ u => endRestore u page
  | .error (.fault f) _ => holdFault s r.key r.cluster f
  | .error (.park _) u => u
  | .error _ u =>
    let v := undoRestore s u r.key
    (v.pgk.restores.find? (fun y => y.page == page)).elim v (failRestore v)

/-- The restoration of a page runs for the request that came first, once that command's hold may go on. -/
theorem restoreComplete_runs {s : State} {page : Nat} {r : Restore}
    (asked : s.pgk.restores.find? (fun r => r.page == page) = some r)
    (sound : (holdOf s r.key r.cluster).any (fun h => !h.faulted) = true) (free : stepsHeld s r.key = false)
    (served : stillWaits s r.key r.cluster = false) :
    restoreComplete s page = afterRestore s page r ((runRestore r.key r.cluster page r.seq).run s) := by
  have unfaulted : (holdOf s r.key r.cluster).all (fun h => h.faulted) = false := by
    cases hold : holdOf s r.key r.cluster with
    | none => simp [hold] at sound
    | some h => simpa [hold] using sound
  simp only [restoreComplete, asked, unfaulted, free, served, Bool.false_eq_true, or_self, if_false]
  cases (runRestore r.key r.cluster page r.seq).run s with
  | ok _ u => rfl
  | error x u =>
    cases x with
    | fault f => rfl
    | park st => rfl
    | abort code | reject e =>
      simp only [afterRestore]
      split <;> next found => simp only [found, Option.elim_some, Option.elim_none]

theorem exec_restoreComplete_of {s t : State} {page : BitVec 32} (acts : restoreComplete s page.toNat = t) :
    exec (.restoreComplete page) s = .next (settle t) := by
  rw [exec_restoreComplete, execRestoreComplete, acts]

/-- Settles O42: the copy of the page that moves, and the run of the restoration, decide what the two rows leave. -/
theorem movesAndRestoresEnd : Obligations.MovesAndRestoresEnd := by
  refine ⟨fun page s => ⟨fun still => exec_moveCommit_of (commitMove_none still), ?_⟩, ?_⟩
  · intro m moves d w dest moved copied ended
    obtain ⟨⟨h, t⟩, copy⟩ := Option.isSome_iff_exists.1 ended
    exact ⟨h, t, copy, exec_moveCommit_of (commitMove_copied moves (ends_elim copy))⟩
  · intro page s r restored asked sound free served
    have runs := restoreComplete_runs asked sound free served
    refine ⟨fun ended => ?_, fun x u stops => ?_⟩
    · obtain ⟨⟨_, u⟩, done⟩ := Option.isSome_iff_exists.1 ended
      refine ⟨u, done, exec_restoreComplete_of ?_⟩
      rw [runs, ends_elim done, afterRestore]
    · refine exec_restoreComplete_of ?_
      rw [runs, stops]
      cases x <;> rfl

end Sys2Proof.Proofs
end

section
/-! FAR_REMOVAL_REPORT where a page keeper cannot translate a page header: its look through the headers faults and fences its slice (R104,
R128). -/
namespace Sys2Proof.Proofs

open Sys2Proof.Machine Sys2Proof.Laws

/-- Die 0 has page 0 in use, no address-space table maps the header, and the removal of far module 0 is reported. -/
def unmappedHeader : State :=
  { State.reset with
    pgk := { State.reset.pgk with pools := [(0, { Pools.reset with headers := [0] })] }
    xlt := { State.reset.xlt with farModules := [(0, { FarModule.reset with reported := true })] } }

/-- What the statement has a removal report leave: each page keeper drops the module's pages without the look through its headers that
`farRemoval` begins with. -/
def removalUnscanned (s : State) (m : Nat) : State :=
  (List.range 8).foldl (fun s d =>
      if dieFenced s d then s
      else updPools (((poolsOf s d).headers.map (mkNum d)).foldl (fun s p => removePage s m p) s) d
        (fun p => { p with farGone := (groupsOn s m d).foldl (fun l i => insertNat i l) p.farGone }))
    (setFar s m { farModule s m with reported := false })

/-- The look at the header is a pool access that cannot be translated: POOL_FAULT fences the page keeper of die 0 (R104). -/
theorem farRemoval_unmappedHeader_fenced : isFenced (settle (farRemoval unmappedHeader 0)) (pgkSource 0) = true := by decide +kernel

theorem removalUnscanned_unmappedHeader_unfenced :
    isFenced (settle (removalUnscanned unmappedHeader 0)) (pgkSource 0) = false := by decide +kernel

/-- Refutes O43: of `unmappedHeader` the report of module 0 leaves the page keeper of die 0 fenced by the POOL_FAULT of its look through the
headers (R104), which the statement's last clause leaves out. -/
theorem not_farModules : ¬ Obligations.FarModules := by
  rintro ⟨-, -, removal⟩
  have stated : exec (.farRemovalReport 0) unmappedHeader = .next (settle (removalUnscanned unmappedHeader 0)) :=
    (removal 0 unmappedHeader).2 rfl
  rw [exec_farRemovalReport, execFarRemovalReport] at stated
  have same : settle (farRemoval unmappedHeader 0) = settle (removalUnscanned unmappedHeader 0) := Host.Outcome.next.inj stated
  have unfenced := removalUnscanned_unmappedHeader_unfenced
  rw [← same, farRemoval_unmappedHeader_fenced] at unfenced
  exact Bool.noConfusion unfenced

end Sys2Proof.Proofs
end

section
/-! The 144/128 code over a stored granule, and a word written to a memory and read back: what the check bits do to the syndrome, and
what a granule holds after a word is stored in it or in another (R405 to R409). -/
namespace Sys2Proof.Proofs

open Sys2Proof.Machine Sys2Proof.Laws

/-! ### Elements of GF(16) -/

theorem xor_lt_16 {x y : Nat} (hx : x < 16) (hy : y < 16) : x ^^^ y < 16 := Nat.xor_lt_two_pow (n := 4) hx hy

theorem gfTimesAlpha_lt {x : Nat} (hx : x < 16) : gfTimesAlpha x < 16 := by
  rw [gfTimesAlpha]
  split
  · omega
  · exact xor_lt_16 (by omega) (by decide)

theorem gfMul_lt {a : Nat} (ha : a < 16) (b : Nat) : gfMul a b < 16 := by
  have step {acc : Nat} (i : Nat) (h : acc < 16) : gfTimesAlpha acc ^^^ (if b.testBit i then a else 0) < 16 :=
    xor_lt_16 (gfTimesAlpha_lt h) (by split <;> omega)
  exact step 0 (step 1 (step 2 (step 3 (by decide))))

theorem gfMul_zero_right : ∀ a < 16, gfMul a 0 = 0 := by decide

theorem gfMul_one_right : ∀ a < 16, gfMul a 1 = a := by decide

theorem gfMul_comm_eight : ∀ a < 16, gfMul a 8 = gfMul 8 a := by decide

theorem gfMul_eight_xor : ∀ a < 16, ∀ b < 16, gfMul 8 (a ^^^ b) = gfMul 8 a ^^^ gfMul 8 b := by decide

/-! ### The syndrome of a granule (R405, R406) -/

/-- Four elements of GF(16). -/
def GfBounded (x : GfVec) : Prop := x.1 < 16 ∧ x.2.1 < 16 ∧ x.2.2.1 < 16 ∧ x.2.2.2 < 16

theorem gfAdd_bounded {x y : GfVec} (hx : GfBounded x) (hy : GfBounded y) : GfBounded (gfAdd x y) := by
  obtain ⟨x0, x1, x2, x3⟩ := hx
  obtain ⟨y0, y1, y2, y3⟩ := hy
  exact ⟨xor_lt_16 x0 y0, xor_lt_16 x1 y1, xor_lt_16 x2 y2, xor_lt_16 x3 y3⟩

theorem gfScale_bounded {e : Nat} (he : e < 16) (h : GfVec) : GfBounded (gfScale e h) :=
  ⟨gfMul_lt he _, gfMul_lt he _, gfMul_lt he _, gfMul_lt he _⟩

theorem symbol_lt (g : Granule) (i : Nat) : symbol g i < 16 := (g.extractLsb' (4 * i) 4).isLt

/-- One more symbol of a syndrome. -/
theorem syndromeOver_concat (g : Granule) (is : List Nat) (i : Nat) :
    syndromeOver g (is ++ [i]) = gfAdd (syndromeOver g is) (gfScale (symbol g i) (column i)) := by
  rw [syndromeOver, List.foldl_append]
  rfl

theorem syndromeOver_bounded (g : Granule) (n : Nat) : GfBounded (syndromeOver g (List.range n)) := by
  induction n with
  | zero => simp [syndromeOver, GfBounded]
  | succ n ih =>
    rw [List.range_succ, syndromeOver_concat]
    exact gfAdd_bounded ih (gfScale_bounded (symbol_lt g n) _)

/-- Granules that agree in their symbols have one syndrome over them. -/
theorem syndromeOver_congr {g h : Granule} {n : Nat} (same : ∀ i < n, symbol g i = symbol h i) :
    syndromeOver g (List.range n) = syndromeOver h (List.range n) := by
  induction n with
  | zero => rfl
  | succ n ih =>
    rw [List.range_succ, syndromeOver_concat, syndromeOver_concat, ih (fun i hi => same i (by omega)), same n (by omega)]

/-- Symbol `k` of the check bits. -/
def checkSymbol (c : BitVec 16) (k : Nat) : Nat := (c.extractLsb' (4 * k) 4).toNat

theorem checkSymbol_lt (c : BitVec 16) (k : Nat) : checkSymbol c k < 16 := (c.extractLsb' (4 * k) 4).isLt

theorem checkSymbol_eq (c : BitVec 16) (k : Nat) : checkSymbol c k = c.toNat / 2 ^ (4 * k) % 16 := by
  rw [checkSymbol, BitVec.extractLsb'_toNat, Nat.shiftRight_eq_div_pow]

theorem checkSymbol_xor (c d : BitVec 16) (k : Nat) : checkSymbol (c ^^^ d) k = checkSymbol c k ^^^ checkSymbol d k := by
  rw [checkSymbol, BitVec.extractLsb'_xor, BitVec.toNat_xor]
  rfl

theorem getLsbD_granuleOf (w : Word128) (d : BitVec 16) (i : Nat) :
    (granuleOf w d).getLsbD i = if i < 128 then w.getLsbD i else (checkBits w ^^^ d).getLsbD (i - 128) :=
  BitVec.getLsbD_append

/-- The low 32 symbols of a stored granule are those of its data word. -/
theorem symbol_granuleOf_data (w : Word128) (d : BitVec 16) {i : Nat} (hi : i < 32) :
    symbol (granuleOf w d) i = symbol (w.setWidth 144) i := by
  refine congrArg BitVec.toNat ?_
  apply BitVec.eq_of_getLsbD_eq
  intro j hj
  have low : 4 * i + j < 128 := by omega
  have inGranule : 4 * i + j < 144 := by omega
  simp only [BitVec.getLsbD_extractLsb', BitVec.getLsbD_setWidth, getLsbD_granuleOf, if_pos low, inGranule, decide_true, Bool.true_and]

/-- The high four symbols of a stored granule are those of its check bits. -/
theorem symbol_granuleOf_check (w : Word128) (d : BitVec 16) (k : Nat) :
    symbol (granuleOf w d) (32 + k) = checkSymbol (checkBits w) k ^^^ checkSymbol d k := by
  rw [← checkSymbol_xor]
  refine congrArg BitVec.toNat ?_
  apply BitVec.eq_of_getLsbD_eq
  intro j hj
  have high : ¬ 4 * (32 + k) + j < 128 := by omega
  have offset : 4 * (32 + k) + j - 128 = 4 * k + j := by omega
  simp only [BitVec.getLsbD_extractLsb', getLsbD_granuleOf, if_neg high, offset]

theorem syndromeOver_36 (g : Granule) : syndromeOver g (List.range 36) =
    gfAdd (gfAdd (gfAdd (gfAdd (syndromeOver g (List.range 32)) (gfScale (symbol g 32) (column 32))) (gfScale (symbol g 33) (column 33)))
      (gfScale (symbol g 34) (column 34))) (gfScale (symbol g 35) (column 35)) := by
  rw [← syndromeOver_concat, ← syndromeOver_concat, ← syndromeOver_concat, ← syndromeOver_concat]
  rfl

/-- The syndrome that four check symbols add. -/
def checkSyndrome (a b c d : Nat) : GfVec := (a ^^^ b ^^^ c, b, c, b ^^^ gfMul 8 c ^^^ d)

/-- The check symbols' terms of a syndrome, by their columns (R405). -/
theorem gfAdd_checkColumns (t : GfVec) {a b c d : Nat} (ha : a < 16) (hb : b < 16) (hc : c < 16) (hd : d < 16) :
    gfAdd (gfAdd (gfAdd (gfAdd t (gfScale a (column 32))) (gfScale b (column 33))) (gfScale c (column 34))) (gfScale d (column 35)) =
      gfAdd t (checkSyndrome a b c d) := by
  simp only [gfAdd, gfScale, column, checkSyndrome, gfMul_zero_right a ha, gfMul_zero_right b hb, gfMul_zero_right c hc,
    gfMul_zero_right d hd, gfMul_one_right a ha, gfMul_one_right b hb, gfMul_one_right c hc, gfMul_one_right d hd,
    gfMul_comm_eight c hc, Nat.xor_zero, Nat.xor_assoc]

/-- A number spelled in four symbols. -/
theorem checkSymbol_spelled {a b c d : Nat} (ha : a < 16) (hb : b < 16) (hc : c < 16) (hd : d < 16) :
    let x := BitVec.ofNat 16 (a + 16 * b + 256 * c + 4096 * d)
    checkSymbol x 0 = a ∧ checkSymbol x 1 = b ∧ checkSymbol x 2 = c ∧ checkSymbol x 3 = d := by
  simp only [checkSymbol_eq, BitVec.toNat_ofNat]
  omega

theorem checkSyndrome_xor {c c' : Nat} (hc : c < 16) (hc' : c' < 16) (a a' b b' d d' : Nat) :
    checkSyndrome (a ^^^ a') (b ^^^ b') (c ^^^ c') (d ^^^ d') = gfAdd (checkSyndrome a b c d) (checkSyndrome a' b' c' d') := by
  simp only [checkSyndrome, gfAdd, gfMul_eight_xor c hc c' hc']
  ac_rfl

theorem gfAdd_self_left (x y : GfVec) : gfAdd x (gfAdd x y) = y := by
  simp only [gfAdd, ← Nat.xor_assoc, Nat.xor_self, Nat.zero_xor]

/-- The check symbols that add a given syndrome (R406). -/
theorem checkSyndrome_solved (t : GfVec) :
    checkSyndrome (t.1 ^^^ t.2.1 ^^^ t.2.2.1) t.2.1 t.2.2.1 (t.2.2.2 ^^^ t.2.1 ^^^ gfMul 8 t.2.2.1) = t := by
  obtain ⟨a, b, c, d⟩ := t
  have first : a ^^^ b ^^^ c ^^^ b ^^^ c = a := by
    rw [Nat.xor_assoc a, Nat.xor_assoc, Nat.xor_assoc, Nat.xor_self, Nat.xor_zero]
  have last (x : Nat) : b ^^^ x ^^^ (d ^^^ b ^^^ x) = d := by
    rw [Nat.xor_assoc d, Nat.xor_comm d, ← Nat.xor_assoc, Nat.xor_self, Nat.zero_xor]
  rw [checkSyndrome, first, last]

/-- The check bits of a word add its own syndrome, which makes the whole 0 (R406). -/
theorem checkSyndrome_checkBits (w : Word128) :
    checkSyndrome (checkSymbol (checkBits w) 0) (checkSymbol (checkBits w) 1) (checkSymbol (checkBits w) 2)
      (checkSymbol (checkBits w) 3) = syndromeOver (w.setWidth 144) (List.range 32) := by
  obtain ⟨t0, t1, t2, t3⟩ := syndromeOver_bounded (w.setWidth 144) 32
  obtain ⟨s32, s33, s34, s35⟩ := checkSymbol_spelled (xor_lt_16 (xor_lt_16 t0 t1) t2) t1 t2
    (xor_lt_16 (xor_lt_16 t3 t1) (gfMul_lt (show 8 < 16 by decide) _))
  rw [checkBits, s32, s33, s34, s35, checkSyndrome_solved]

/-- The syndrome of a stored granule is that of how far its check bits are from the code's (R406). -/
theorem syndromeOver_granuleOf (w : Word128) (d : BitVec 16) : syndromeOver (granuleOf w d) (List.range 36) =
    checkSyndrome (checkSymbol d 0) (checkSymbol d 1) (checkSymbol d 2) (checkSymbol d 3) := by
  rw [syndromeOver_36, gfAdd_checkColumns _ (symbol_lt _ _) (symbol_lt _ _) (symbol_lt _ _) (symbol_lt _ _),
    symbol_granuleOf_check w d 0, symbol_granuleOf_check w d 1, symbol_granuleOf_check w d 2, symbol_granuleOf_check w d 3,
    checkSyndrome_xor (checkSymbol_lt _ _) (checkSymbol_lt _ _), checkSyndrome_checkBits,
    syndromeOver_congr (fun _ hi => symbol_granuleOf_data w d hi), gfAdd_self_left]

theorem granuleData_granuleOf (w : Word128) (d : BitVec 16) : granuleData (granuleOf w d) = w := by
  apply BitVec.eq_of_getLsbD_eq
  intro i hi
  simp only [granuleData, BitVec.getLsbD_extractLsb', getLsbD_granuleOf, Nat.zero_add, hi, if_true, decide_true, Bool.true_and]

/-- The poisoned granule of a word decodes as poison (R406, R407). -/
theorem decodeOutcome_poison (w : Word128) : decodeOutcome (granuleOf w poisonDelta) = .poison := by
  rw [decodeOutcome, syndromeOver_granuleOf]
  decide

theorem deliverGranule_poison (w : Word128) : deliverGranule (granuleOf w poisonDelta) = (w, true) := by
  rw [deliverGranule, decodeOutcome_poison, granuleData_granuleOf]

/-! ### A granule of a memory after a word is stored -/

/-- A word is its 16 lanes. -/
theorem word_ext {w w' : Word128} (lanes : ∀ i < 16, lane w i = lane w' i) : w = w' := by
  apply BitVec.eq_of_getLsbD_eq
  intro j hj
  have bits := congrArg (fun b : Byte => b.getLsbD (j % 8)) (lanes (j / 8) (by omega))
  simpa [lane, Nat.mod_lt, Nat.div_add_mod] using bits

/-- A granule's word is made of its 16 bytes. -/
theorem word_congr {m m' : Mem} {g : Nat} (bytes : ∀ i < 16, m.byte (g + i) = m'.byte (g + i)) : m.word g = m'.word g :=
  word_ext (fun i hi => by rw [lane_word m g hi, lane_word m' g hi, bytes i hi])

/-- A word stored is the word there. -/
theorem word_setWord {m : Mem} (h : m.wf = true) (g : Nat) (w : Word128) (p : Bool) : (m.setWord g w p).word g = w :=
  word_ext (fun i hi => by rw [lane_word _ g hi, byte_setWord h, if_pos (by omega), Nat.add_sub_cancel_left, lane])

/-- A word stored leaves the word of another granule. -/
theorem word_setWord_other {m : Mem} (h : m.wf = true) {g g' : Nat} (aligned : g % 16 = 0) (aligned' : g' % 16 = 0) (other : g' ≠ g)
    (w : Word128) (p : Bool) : (m.setWord g w p).word g' = m.word g' :=
  word_congr (fun i hi => by rw [byte_setWord h, if_neg (by omega)])

/-- How far each granule's check bits are from the code's after a word is stored (R406). -/
theorem chk_setWord {m : Mem} (h : m.wf = true) (g g' : Nat) (w : Word128) (p : Bool) :
    tget 0 (m.setWord g w p).chk g' = if g' = g then (if p then poisonDelta else 0) else tget 0 m.chk g' := by
  simp only [Mem.setWord, setBytes_chk]
  exact tget_tset g g' _ ((mem_wf_iff m).1 h).2

theorem deliver_clean {m : Mem} {g : Nat} (clean : tget 0 m.chk g = 0) : m.deliver g = (m.word g, false) := if_pos clean

theorem deliver_poison {m : Mem} {g : Nat} (poisoned : tget 0 m.chk g = poisonDelta) : m.deliver g = (m.word g, true) := by
  rw [Mem.deliver, Mem.granule, poisoned, if_neg (by decide), deliverGranule_poison]

/-- What a granule delivers is decided by its word and its check bits. -/
theorem deliver_congr {m m' : Mem} {g : Nat} (words : m.word g = m'.word g) (checks : tget 0 m.chk g = tget 0 m'.chk g) :
    m.deliver g = m'.deliver g := by
  rw [Mem.deliver, Mem.deliver, Mem.granule, Mem.granule, words, checks]

/-- A word stored is delivered as it was stored, clean or poison (R407, R409). -/
theorem deliver_setWord {m : Mem} (h : m.wf = true) (g : Nat) (w : Word128) (p : Bool) : (m.setWord g w p).deliver g = (w, p) := by
  have checks := (chk_setWord h g g w p).trans (if_pos rfl)
  cases p with
  | false => rw [deliver_clean checks, word_setWord h]
  | true => rw [deliver_poison checks, word_setWord h]

theorem deliver_setWord_other {m : Mem} (h : m.wf = true) {g g' : Nat} (aligned : g % 16 = 0) (aligned' : g' % 16 = 0)
    (other : g' ≠ g) (w : Word128) (p : Bool) : (m.setWord g w p).deliver g' = m.deliver g' :=
  deliver_congr (word_setWord_other h aligned aligned' other w p) (by rw [chk_setWord h, if_neg other])

/-- Settles O32: a stored word is delivered by its own lanes and check bits, and shares neither with another granule. -/
theorem wordReadsBack : Obligations.WordReadsBack := by
  intro m g g' w p h aligned aligned'
  exact ⟨deliver_setWord h g w p, fun other => deliver_setWord_other h aligned aligned' other w p, setWord_wf h g w p⟩

end Sys2Proof.Proofs
end

section
/-! Arrival counters: how often one fires, what a firing leaves of it, and how its count grows (R177, R179). -/
namespace Sys2Proof.Proofs

open Sys2Proof.Machine Sys2Proof.Laws

section
variable {a : ArrivalCounter}

theorem firings_idle (idle : a.armed = false ∨ a.count.toNat < a.target.toNat) : firings a = 0 :=
  if_pos (idle.imp_left (fun disarmed => by rw [disarmed]; rfl))

/-- An armed counter that has reached its target fires by its RELOAD. -/
theorem firings_reached (armed : a.armed = true) (reached : a.target.toNat ≤ a.count.toNat) :
    firings a = if a.reload ∧ a.target ≠ 0 then a.count.toNat / a.target.toNat else 1 := by
  rw [firings, if_neg (by simp [armed, reached])]

theorem firings_once (armed : a.armed = true) (once : a.reload = false) (reached : a.target.toNat ≤ a.count.toNat) :
    firings a = 1 := by
  rw [firings_reached armed reached, if_neg (by simp [once])]

/-- With RELOAD an armed counter fires once for each time its count holds its target, and not at all below it. -/
theorem firings_reload (armed : a.armed = true) (reload : a.reload = true) (target : a.target ≠ 0) :
    firings a = a.count.toNat / a.target.toNat := by
  rcases Nat.lt_or_ge a.count.toNat a.target.toNat with below | reached
  · rw [firings_idle (.inr below), Nat.div_eq_of_lt below]
  · rw [firings_reached armed reached, if_pos ⟨reload, target⟩]

theorem fired_once (once : a.reload = false) : fired a = { a with fired := true, armed := false } := by
  simp only [fired, once, Bool.false_eq_true, if_false]

/-- A firing with RELOAD leaves the remainder of the count. -/
theorem fired_reload (armed : a.armed = true) (reload : a.reload = true) (target : a.target ≠ 0) :
    fired a = { a with fired := true, count := BitVec.ofNat 32 (a.count.toNat % a.target.toNat) } := by
  have remainder : a.count.toNat - a.count.toNat / a.target.toNat * a.target.toNat = a.count.toNat % a.target.toNat := by
    rw [Nat.mod_eq_sub_div_mul]
  simp only [fired, reload, if_true, firings_reload armed reload target, remainder]

/-- The remainder that a firing with RELOAD leaves is below the target, so the counter does not fire again. -/
theorem fired_reload_settled (armed : a.armed = true) (reload : a.reload = true) (target : a.target ≠ 0) :
    (fired a).count.toNat = a.count.toNat % a.target.toNat ∧ (fired a).armed = true ∧ firings (fired a) = 0 := by
  have positive : 0 < a.target.toNat := Nat.pos_of_ne_zero (fun zero => target (BitVec.eq_of_toNat_eq zero))
  have below : a.count.toNat % a.target.toNat < a.target.toNat := Nat.mod_lt _ positive
  have kept : (BitVec.ofNat 32 (a.count.toNat % a.target.toNat)).toNat = a.count.toNat % a.target.toNat :=
    (BitVec.toNat_ofNat _ _).trans (Nat.mod_eq_of_lt (Nat.lt_trans below a.target.isLt))
  rw [fired_reload armed reload target]
  exact ⟨kept, armed, firings_idle (.inr (Nat.lt_of_le_of_lt (Nat.le_of_eq kept) below))⟩

/-- A count that would pass its greatest value holds there, with OVF (R177). -/
theorem addArrival_saturates {n : Nat} (past : 2 ^ 32 - 1 < a.count.toNat + n) :
    addArrival a n = { a with count := 0xFFFFFFFF, ovf := true } := if_pos past

theorem addArrival_fits {n : Nat} (fits : a.count.toNat + n ≤ 2 ^ 32 - 1) :
    addArrival a n = { a with count := BitVec.ofNat 32 (a.count.toNat + n) } := if_neg (Nat.not_lt.2 fits)

theorem addArrival_spec (a : ArrivalCounter) (n : Nat) : (addArrival a n).count.toNat = min (a.count.toNat + n) (2 ^ 32 - 1) ∧
    ((addArrival a n).ovf = true ↔ a.ovf = true ∨ 2 ^ 32 - 1 < a.count.toNat + n) := by
  rcases Nat.lt_or_ge (2 ^ 32 - 1) (a.count.toNat + n) with past | fits
  · rw [addArrival_saturates past]
    exact ⟨(Nat.min_eq_right (Nat.le_of_lt past)).symm, ⟨fun _ => .inr past, fun _ => rfl⟩⟩
  · rw [addArrival_fits fits]
    refine ⟨?_, ⟨.inl, fun ovf => ovf.resolve_right (Nat.not_lt.2 fits)⟩⟩
    rw [Nat.min_eq_left fits, BitVec.toNat_ofNat, Nat.mod_eq_of_lt (by omega)]

end

/-- Settles O31: RELOAD and the target decide the firings, and the greatest count decides OVF. -/
theorem arrivalCountersFire : Obligations.ArrivalCountersFire := by
  intro a
  refine ⟨fun armed reload target => ⟨firings_reload armed reload target, fun _ => fired_reload_settled armed reload target⟩,
    fun armed once reached => ⟨firings_once armed once reached, ?_, ?_⟩, firings_idle, addArrival_spec a⟩
  · rw [fired_once once]
  · rw [fired_once once]

end Sys2Proof.Proofs
end

section
/-! Remote writes: the checks of the remote port, the refusals, ordinary and privileged writes, and the acknowledgements that return (R174
to R184). -/
namespace Sys2Proof.Proofs

open Sys2Proof.Machine Sys2Proof.Laws

/-! ### What records, counts and log entries leave of the scratchpads -/

@[simp] theorem report_spad (s : State) (a : ErrArgs) : (report s a).spad = s.spad := by
  obtain ⟨r, d, l, reported, -⟩ := report_frame s a
  rw [reported]

@[simp] theorem bumpSpd_spad (s : State) (g reg n : Nat) : (bumpSpd s g reg n).spad = s.spad := by
  obtain ⟨c, l, p, f, counted⟩ := bump_frame s (0x3000 + g * 0x80) reg n
  rw [bumpSpd, counted]

@[simp] theorem logAdd_spad (s : State) (kind source traceId : Nat) (payload : List Byte) :
    (logAdd s kind source traceId payload).spad = s.spad := by
  obtain ⟨l, p, logged⟩ := logAdd_frame s kind source traceId payload
  rw [logged]

/-- States with the same scratchpads have the same windows. -/
theorem windowOf_congr {s t : State} (same : t.spad = s.spad) (core w : Nat) : windowOf t core w = windowOf s core w := by
  rw [windowOf, windowOf, same]

/-! ### The remote port (R175) -/

/-- A request that is not malformed says of itself whether its source is privileged. -/
theorem rqPriv_of_wellFormed {src : BitVec 16} {req : Word128} (wellFormed : requestMalformed src req = false) :
    rqPriv req = decide (src.toNat ≥ 0x8000) := by
  simp only [requestMalformed, Bool.or_eq_false_iff, decide_eq_false_iff_not, Classical.not_not] at wellFormed
  exact wellFormed.1.1.1.1.1.2

section
variable {s : State} {src : BitVec 16} {req : Word128} (data : List (Word128 × Bool))

theorem remotePort_malformed (malformed : requestMalformed src req = true) : remotePort s src req data = refuseOther s src req 4 :=
  if_pos malformed

section
variable (wellFormed : requestMalformed src req = false)
include wellFormed

theorem remotePort_noTarget (gone : targetGone s (rqGaddr req / 2 ^ 19) = true) :
    remotePort s src req data = refuseOther s src req 3 := by
  simp only [remotePort, wellFormed, gone, Bool.false_eq_true, if_false, if_true]

variable (there : targetGone s (rqGaddr req / 2 ^ 19) = false)
include there

theorem remotePort_ordinary (ordinary : src.toNat < 0x8000) : remotePort s src req data = ordinaryWrite s req data := by
  have unprivileged : rqPriv req = false := (rqPriv_of_wellFormed wellFormed).trans (decide_eq_false (Nat.not_le.2 ordinary))
  simp only [remotePort, wellFormed, there, unprivileged, Bool.false_eq_true, if_false]

theorem remotePort_privileged (privileged : 0x8000 ≤ src.toNat) : remotePort s src req data = privilegedWrite s src req data := by
  have marked : rqPriv req = true := (rqPriv_of_wellFormed wellFormed).trans (decide_eq_true privileged)
  simp only [remotePort, wellFormed, there, marked, Bool.false_eq_true, if_false, if_true]

end

/-! ### The two rows of requests, by the class of their source -/

theorem exec_ordinaryRemoteWrite_ordinary (ordinary : src.toNat < 0x8000) :
    exec (.ordinaryRemoteWrite src req data) s = .next (settle (remotePort s src req data)) := by
  rw [exec_ordinaryRemoteWrite, execOrdinaryRemoteWrite, if_pos ordinary]

theorem exec_ordinaryRemoteWrite_privileged (privileged : 0x8000 ≤ src.toNat) :
    exec (.ordinaryRemoteWrite src req data) s = .next (settle s) := by
  rw [exec_ordinaryRemoteWrite, execOrdinaryRemoteWrite, if_neg (Nat.not_lt.2 privileged)]

theorem exec_privilegedRemoteWrite_ordinary (ordinary : src.toNat < 0x8000) :
    exec (.privilegedRemoteWrite src req data) s = .next (settle s) := by
  rw [exec_privilegedRemoteWrite, execPrivilegedRemoteWrite, if_pos ordinary]

theorem exec_privilegedRemoteWrite_privileged (privileged : 0x8000 ≤ src.toNat) :
    exec (.privilegedRemoteWrite src req data) s = .next (settle (remotePort s src req data)) := by
  rw [exec_privilegedRemoteWrite, execPrivilegedRemoteWrite, if_neg (Nat.not_lt.2 privileged)]

/-- Each row takes the requests of its own class of sources to the remote port. -/
theorem exec_remoteWrite {i : Instr}
    (row : (src.toNat < 0x8000 ∧ i = .ordinaryRemoteWrite src req data) ∨
      (0x8000 ≤ src.toNat ∧ i = .privilegedRemoteWrite src req data)) :
    exec i s = .next (settle (remotePort s src req data)) := by
  rcases row with ⟨ordinary, rfl⟩ | ⟨privileged, rfl⟩
  · exact exec_ordinaryRemoteWrite_ordinary data ordinary
  · exact exec_privilegedRemoteWrite_privileged data privileged

end

/-! ### Refusals (R176, R184) -/

/-- The generation that a refusal carries: a privileged write's window has one (R176). -/
def nakGen (s : State) (src : BitVec 16) (req : Word128) : Nat :=
  if src.toNat < 0x8000 then 0 else (windowOf s (rqGaddr req / 2 ^ 19) (rqWin req)).gen.toNat

/-- The NAK of a refusal as it is sent. -/
def nakOf (s : State) (src : BitVec 16) (req : Word128) (code : Nat) : AckMsg :=
  ⟨src, nakWord code (nakGen s src req) (rqWin req) (rqWriter req).toNat (rqGaddr req)⟩

/-- The count of a refusal NO_TARGET or MALFORMED, and its record for an ordinary write and for every MALFORMED one. -/
def noteRefusal (s : State) (src : BitVec 16) (req : Word128) (code : Nat) : State :=
  let s := bumpSpd s (rqGaddr req / 2 ^ 22) 0x60 1
  if src.toNat < 0x8000 ∨ code = 4 then report s {
      cause := 0x0C, source := src.toNat, unit := if src.toNat < 0x8000 then 0xFF else rqWin req, addr := rqGaddr req, info0 := code
      info1 := (req.extractLsb' 64 64).toNat } else s

theorem noteRefusal_spad (s : State) (src : BitVec 16) (req : Word128) (code : Nat) : (noteRefusal s src req code).spad = s.spad := by
  rw [noteRefusal]
  split
  · rw [report_spad, bumpSpd_spad]
  · rw [bumpSpd_spad]

theorem refuseOther_eq (s : State) (src : BitVec 16) (req : Word128) (code : Nat) :
    refuseOther s src req code =
      sendAck (noteRefusal s src req code) src (nakOf (noteRefusal s src req code) src req code).word := rfl

/-- A refusal NO_TARGET or MALFORMED does nothing to the scratchpads but send its NAK. -/
theorem refuseOther_spad (s : State) (src : BitVec 16) (req : Word128) (code : Nat) :
    (refuseOther s src req code).spad = { s.spad with acks := s.spad.acks ++ [nakOf s src req code] } := by
  have noted := noteRefusal_spad s src req code
  have nak : nakOf (noteRefusal s src req code) src req code = nakOf s src req code := by
    rw [nakOf, nakOf, nakGen, nakGen, windowOf_congr noted]
  rw [refuseOther_eq, nak, sendAck, noted]
  rfl

/-- A refusal by a window writes no word. -/
theorem refuseWindow_mem (s : State) (src : BitVec 16) (req : Word128) (code : Nat) :
    (refuseWindow s src req code).spad.mem = s.spad.mem := by
  simp only [refuseWindow, sendAck, logAdd_spad, bumpSpd_spad, setWindow]
  split
  · rw [report_spad]
  · rfl

/-! ### Words written -/

theorem spadWrite_spad (s : State) (core w : Nat) (x : Word128) (poison : Bool) :
    (spadWrite s core w x poison).spad = { s.spad with mem := s.spad.mem.setWord (spadAddr core w) x poison } := rfl

/-- A run of words written changes the memory of the scratchpads alone. -/
theorem spadWrites_spad (s : State) (core w : Nat) (d : Nat → Word128 × Bool) (l : List Nat) :
    ∃ m, (l.foldl (fun s i => spadWrite s core (w + i) (d i).1 (d i).2) s).spad = { s.spad with mem := m } := by
  induction l generalizing s with
  | nil => exact ⟨s.spad.mem, rfl⟩
  | cons i l ih =>
    obtain ⟨m, written⟩ := ih (spadWrite s core (w + i) (d i).1 (d i).2)
    rw [List.foldl_cons, written, spadWrite_spad]
    exact ⟨m, rfl⟩

/-- The words of a request change the memory of the scratchpads alone. -/
theorem writeWords_spad (s : State) (req : Word128) (data : List (Word128 × Bool)) :
    ∃ m, (writeWords s req data).spad = { s.spad with mem := m } := by
  simp only [writeWords]
  split
  · rw [bumpSpd_spad]
    exact ⟨_, rfl⟩
  · split
    · obtain ⟨m, written⟩ := spadWrites_spad (bumpSpd s (clusterOf (rqGaddr req / 2 ^ 19)) 0x18 1) (rqGaddr req / 2 ^ 19)
        (rqGaddr req % 2 ^ 19) (fun i => data.getD i (0, false)) (List.range (rqWords req))
      exact ⟨m, written.trans (by rw [bumpSpd_spad])⟩
    · exact spadWrites_spad _ _ _ (fun i => data.getD i (0, false)) _

/-! ### Acknowledgements that return (R176) -/

theorem removeFirst_append {α : Type} {p : α → Bool} {l : List α} {a : α} (before : ∀ b ∈ l, p b = false) (here : p a = true)
    (r : List α) : removeFirst p (l ++ a :: r) = l ++ r := by
  induction l with
  | nil => exact if_pos here
  | cons b l ih =>
    rw [List.cons_append, removeFirst, before b (List.mem_cons_self ..), if_neg Bool.false_ne_true,
      ih (fun x hx => before x (List.mem_cons_of_mem _ hx)), List.cons_append]

/-- The oldest message that a test admits reaches its sender. -/
theorem deliverAck_oldest {s : State} {p : AckMsg → Bool} {l r : List AckMsg} {a : AckMsg} (acks : s.spad.acks = l ++ a :: r)
    (before : ∀ b ∈ l, p b = false) (here : p a = true) :
    deliverAck s p = { s with spad := { s.spad with acks := l ++ r, returned := s.spad.returned ++ [a] } } := by
  have oldest : s.spad.acks.find? p = some a :=
    List.find?_eq_some_iff_append.2 ⟨here, l, r, acks, fun b older => by rw [before b older]; rfl⟩
  simp only [deliverAck, oldest]
  rw [acks, removeFirst_append before here]

/-- Where no admitted write is picked, none completes. -/
theorem completeWrites_none {s : State} {which : Word128 → Bool} (unpicked : ∀ e ∈ s.spad.admitted, which e.2.1 = false) :
    completeWrites s which = s := by
  have mine : s.spad.admitted.filter (fun e => which e.2.1) = [] :=
    List.filter_eq_nil_iff.2 (fun e he => ne_true_of_eq_false (unpicked e he))
  have rest : s.spad.admitted.filter (fun e => !which e.2.1) = s.spad.admitted :=
    List.filter_eq_self.2 (fun e he => by rw [unpicked e he]; rfl)
  rw [completeWrites, mine, rest]
  rfl

/-- The one write in flight completes where it is picked. -/
theorem completeWrites_one {s : State} {which : Word128 → Bool} {e : BitVec 16 × Word128 × List (Word128 × Bool)}
    (only : s.spad.admitted = [e]) (picked : which e.2.1 = true) :
    completeWrites s which = completeWrite { s with spad := { s.spad with admitted := [] } } e := by
  simp only [completeWrites, only, List.filter_cons, picked, List.filter_nil, if_true, Bool.not_true, Bool.false_eq_true, if_false,
    List.foldl_cons, List.foldl_nil]

/-- Settles O29: the remote port's checks in their order, and the oldest message of the row's kind. -/
theorem ordinaryWritesAndAcknowledgements : Obligations.OrdinaryWritesAndAcknowledgements := by
  refine ⟨?_, ?_, ?_⟩
  · intro src req data s i row
    refine ⟨fun malformed => ?_, fun wellFormed gone => ?_, fun code => ?_⟩
    · rw [exec_remoteWrite data row, remotePort_malformed data malformed]
    · rw [exec_remoteWrite data row, remotePort_noTarget data wellFormed gone]
    · rw [refuseOther_spad]
      exact ⟨rfl, rfl⟩
  · intro src req data s core ctr
    refine ⟨fun ordinary wellFormed there => ?_, exec_ordinaryRemoteWrite_privileged data, exec_privilegedRemoteWrite_ordinary data⟩
    rw [exec_ordinaryRemoteWrite_ordinary data ordinary, remotePort_ordinary data wellFormed there ordinary]
    rfl
  · intro s l r a acks
    refine ⟨fun none before here => ?_, fun before here => ?_⟩
    · rw [exec_writeAck, execWriteAck, completeWrites_none (by simp [none]),
        deliverAck_oldest acks (fun b older => beq_false_of_ne (before b older)) (beq_iff_eq.2 here)]
    · rw [exec_writeNak, execWriteNak,
        deliverAck_oldest acks (fun b older => decide_eq_false (not_not_intro (before b older))) (decide_eq_true here)]

end Sys2Proof.Proofs
end

section
/-! Windows: the checks of a privileged write at its window, what an admitted write leaves when it completes, and the end of a CLOSING
window (R181 to R183). -/
namespace Sys2Proof.Proofs

open Sys2Proof.Machine Sys2Proof.Laws

/-! ### A privileged write at its window (R183) -/

/-- The window that a request names. -/
def requestWindow (s : State) (req : Word128) : Window := windowOf s (rqGaddr req / 2 ^ 19) (rqWin req)

/-- How old a request is, modulo 65,536 ticks. -/
def requestAge (s : State) (req : Word128) : Nat := (s.now % 65536 + 65536 - rqStamp req) % 65536

/-- A request that its window's state lets through: fresh, and of the generation of a window that is OPEN (R183). -/
def RequestTimely (s : State) (req : Word128) : Prop :=
  requestAge s req ≤ 3840 ∧ (requestWindow s req).state = 1 ∧ rqGen req = (requestWindow s req).gen

/-- A request that its window admits: of a class that may write and within the limits (R181, R183). -/
def RequestWithin (s : State) (src : BitVec 16) (req : Word128) : Prop :=
  windowAdmits (requestWindow s req) src = true ∧ (requestWindow s req).base.toNat ≤ rqGaddr req % 2 ^ 19 ∧
    rqGaddr req % 2 ^ 19 + rqWords req ≤ (requestWindow s req).limit.toNat + 1

section
variable {s : State} {src : BitVec 16} {req : Word128}

/-- The order of R183's checks: the state of the window before its limits and classes. -/
theorem windowRefusal_closed (untimely : ¬ RequestTimely s req) : windowRefusal s src req = some 1 := by
  rw [windowRefusal]
  by_cases old : 3840 < requestAge s req
  · exact if_pos old
  · have shut : (requestWindow s req).state ≠ 1 ∨ rqGen req ≠ (requestWindow s req).gen := by
      refine Classical.byContradiction fun both => ?_
      obtain ⟨isOpen, gen⟩ := not_or.1 both
      exact untimely ⟨Nat.not_lt.1 old, Classical.not_not.1 isOpen, Classical.not_not.1 gen⟩
    exact (if_neg old).trans (if_pos shut)

theorem windowRefusal_timely (timely : RequestTimely s req) : windowRefusal s src req =
    if !windowAdmits (requestWindow s req) src ∨ rqGaddr req % 2 ^ 19 < (requestWindow s req).base.toNat ∨
        rqGaddr req % 2 ^ 19 + rqWords req > (requestWindow s req).limit.toNat + 1 then some 2 else none := by
  obtain ⟨fresh, isOpen, gen⟩ := timely
  exact (if_neg (Nat.not_lt.2 fresh)).trans (if_neg (not_or.2 ⟨not_not_intro isOpen, not_not_intro gen⟩))

theorem windowRefusal_denied (timely : RequestTimely s req) (outside : ¬ RequestWithin s src req) :
    windowRefusal s src req = some 2 := by
  rw [windowRefusal_timely timely, if_pos]
  refine Classical.byContradiction fun inside => ?_
  obtain ⟨admits, limits⟩ := not_or.1 inside
  obtain ⟨base, limit⟩ := not_or.1 limits
  exact outside ⟨by simpa using admits, Nat.not_lt.1 base, Nat.not_lt.1 limit⟩

theorem windowRefusal_none (timely : RequestTimely s req) (within : RequestWithin s src req) : windowRefusal s src req = none := by
  obtain ⟨admits, base, limit⟩ := within
  rw [windowRefusal_timely timely, if_neg]
  rintro (barred | below | above)
  · simp [admits] at barred
  · exact Nat.not_lt.2 base below
  · exact Nat.not_lt.2 limit above

variable (data : List (Word128 × Bool))

theorem privilegedWrite_refused {code : Nat} (refused : windowRefusal s src req = some code) :
    privilegedWrite s src req data = refuseWindow s src req code := by
  rw [privilegedWrite, refused]

/-- The window of an admitted write with the room that the write needs: the oldest of 32 in flight has completed (R181). -/
def withRoom (s : State) (req : Word128) : State :=
  if 32 ≤ (requestWindow s req).inFlight then completeOldest s (rqGaddr req / 2 ^ 19) (rqWin req) else s

/-- A write counted in flight at its window (R181). -/
def countInFlight (s : State) (req : Word128) : State :=
  bumpSpd (setWindow s (rqGaddr req / 2 ^ 19) (rqWin req)
    { requestWindow s req with inFlight := (requestWindow s req).inFlight + 1 }) (clusterOf (rqGaddr req / 2 ^ 19)) 0x50 1

theorem privilegedWrite_admitted (passes : windowRefusal s src req = none) :
    privilegedWrite s src req data =
      (let u := countInFlight (withRoom s req) req
       { u with spad := { u.spad with admitted := u.spad.admitted ++ [(src, req, data)] } }) := by
  rw [privilegedWrite, passes]
  rfl

/-! ### An admitted write completes (R176, R183) -/

/-- The acknowledgement of a request (R176). -/
def ackOf (src : BitVec 16) (req : Word128) : AckMsg :=
  ⟨src, ackWord (rqGen req).toNat (rqWin req) (rqWords req) (rqWriter req).toNat (rqGaddr req)⟩

/-- The words of a write written, and the write out of flight. -/
def landWrite (s : State) (req : Word128) (data : List (Word128 × Bool)) : State :=
  let u := writeWords s req data
  setWindow u (rqGaddr req / 2 ^ 19) (rqWin req) { requestWindow u req with inFlight := (requestWindow u req).inFlight - 1 }

theorem completeWrite_eq (s : State) (src : BitVec 16) (req : Word128) :
    completeWrite s (src, req, data) = sendAck (landWrite s req data) src (ackOf src req).word := rfl

/-- A write that lands sends nothing yet, and nothing returns. -/
theorem landWrite_messages (s : State) (req : Word128) :
    (landWrite s req data).spad.acks = s.spad.acks ∧ (landWrite s req data).spad.returned = s.spad.returned := by
  obtain ⟨m, written⟩ := writeWords_spad s req data
  have acks : (writeWords s req data).spad.acks = s.spad.acks := by rw [written]
  have returned : (writeWords s req data).spad.returned = s.spad.returned := by rw [written]
  exact ⟨acks, returned⟩

theorem completeWrite_acks (s : State) (src : BitVec 16) (req : Word128) : completeWrite s (src, req, data) =
    (let v := landWrite s req data
     { v with spad := { v.spad with acks := s.spad.acks ++ [ackOf src req] } }) := by
  rw [completeWrite_eq, sendAck, (landWrite_messages data s req).1]
  rfl

/-- The fields of an acknowledgement lie below its code (R176). -/
theorem ackFields_lt {gaddr writer words win gen : Nat} (hgaddr : gaddr < 2 ^ 27) (hwriter : writer < 65536) (hwords : words < 32)
    (hwin : win < 8) (hgen : gen < 256) :
    gaddr + writer * 2 ^ 84 + words * 2 ^ 100 + win * 2 ^ 109 + gen * 2 ^ 112 < 2 ^ 120 := by
  omega

/-- The code of an ACK is 0 (R176). -/
theorem ackCode_ackOf (src : BitVec 16) (req : Word128) : ackCode (ackOf src req) = 0 := by
  have fields := ackFields_lt (Nat.mod_lt (rqGaddr req) (y := 2 ^ 27) (by decide))
    (Nat.mod_lt (rqWriter req).toNat (y := 65536) (by decide))
    (Nat.mod_lt (rqWords req) (y := 32) (by decide)) (Nat.mod_lt (rqWin req) (y := 8) (by decide))
    (Nat.mod_lt (rqGen req).toNat (y := 256) (by decide))
  rw [ackCode, BitVec.extractLsb'_toNat, Nat.shiftRight_eq_div_pow, ackOf, ackWord, BitVec.toNat_ofNat,
    Nat.mod_eq_of_lt (Nat.lt_trans fields (by decide)), Nat.div_eq_of_lt fields, Nat.zero_mod]

end

/-! ### The end of a CLOSING window (R182, R183) -/

theorem closedNow_closing {w : Window} (isClosing : w.state = 2) (idle : w.inFlight = 0) (now : Nat) :
    closedNow now w = { w with state := 0, gen := w.gen + 1, closedAt := now, openedFor := 0 } := if_pos ⟨isClosing, idle⟩

theorem closedNow_stands {w : Window} (stands : w.state ≠ 2 ∨ w.inFlight ≠ 0) (now : Nat) : closedNow now w = w :=
  if_neg (fun ⟨isClosing, idle⟩ => stands.elim (· isClosing) (· idle))

/-- Settles O30: R183's checks in their order, the one write in flight as it completes, and a CLOSING window that is idle. -/
theorem windowsAdmitPrivilegedWrites : Obligations.WindowsAdmitPrivilegedWrites := by
  refine ⟨?_, ?_, ?_⟩
  · intro src req data s core w a privileged wellFormed there
    have row : exec (.privilegedRemoteWrite src req data) s = .next (settle (privilegedWrite s src req data)) := by
      rw [exec_privilegedRemoteWrite_privileged data privileged, remotePort_privileged data wellFormed there privileged]
    refine ⟨fun fresh isOpen gen admits base limit => ?_, fun untimely => ?_, fun fresh isOpen gen outside => ?_,
      refuseWindow_mem s src req⟩
    · rw [row, privilegedWrite_admitted data (windowRefusal_none ⟨fresh, isOpen, gen⟩ ⟨admits, base, limit⟩)]
      rfl
    · rw [row, privilegedWrite_refused data (windowRefusal_closed ?_)]
      rintro ⟨fresh, isOpen, gen⟩
      exact untimely.elim (Nat.not_lt.2 fresh) (Or.elim · (· isOpen) (· gen))
    · rw [row, privilegedWrite_refused data (windowRefusal_denied ⟨fresh, isOpen, gen⟩ ?_)]
      rintro ⟨admits, base, limit⟩
      rcases outside with barred | below | above
      · exact Bool.noConfusion (admits.symm.trans barred)
      · exact Nat.not_lt.2 base below
      · exact Nat.not_lt.2 limit above
  · intro src req data s core u w v ack only
    have completes : completeWrites s (fun _ => true) = { v with spad := { v.spad with acks := s.spad.acks ++ [ack] } } := by
      rw [completeWrites_one only rfl, completeWrite_acks]
      rfl
    refine ⟨completes, fun none => ?_⟩
    have sent : (completeWrites s (fun _ => true)).spad.acks = [] ++ ack :: [] := by rw [completes, none]
    have returned : v.spad.returned = s.spad.returned :=
      (landWrite_messages data { s with spad := { s.spad with admitted := [] } } req).2
    have isAck : (ackCode ack == 0) = true := beq_iff_eq.2 (ackCode_ackOf src req)
    rw [exec_writeAck, execWriteAck, deliverAck_oldest (p := fun a => ackCode a == 0) sent (by simp) isAck, completes]
    simp only [returned, List.append_nil]
  · intro core win s c n w
    refine ⟨rfl, fun none => ?_, fun e only there named => ?_⟩
    · have idle : windowClose s c n = setWindow s c n (closedNow s.now w) := by
        rw [windowClose, completeWrites_none]
        intro e he
        rw [Bool.and_eq_false_iff]
        by_cases here : rqGaddr e.2.1 / 2 ^ 19 = c
        · exact .inr (beq_false_of_ne (none e he here))
        · exact .inl (beq_false_of_ne here)
      refine ⟨fun isClosing free => ?_, fun stands => ?_⟩
      · rw [exec_windowCloseComplete, execWindowCloseComplete, idle, closedNow_closing isClosing free]
      · rw [exec_windowCloseComplete, execWindowCloseComplete, idle, closedNow_stands stands]
    · rw [exec_windowCloseComplete, execWindowCloseComplete, windowClose,
        completeWrites_one only (Bool.and_eq_true_iff.2 ⟨beq_iff_eq.2 there, beq_iff_eq.2 named⟩)]

end Sys2Proof.Proofs
end

section
/-! Stream code on windows: WOPEN, WCLOSE and WWAIT by the state of their window, and the two rows that end a wait for a window (R182, R185,
R201, R202). -/
namespace Sys2Proof.Proofs

open Sys2Proof.Machine Sys2Proof.Laws

/-- A queue that stands at an instruction carries it out. -/
theorem streamOp_at {s : State} {core qi op rd sa : Nat} {imm : BitVec 17} {q : Queue} (f : Queue → State)
    (stands : atInstr s core qi (icB op rd sa imm.toNat) = some q) : streamOp s core qi op rd sa imm f = f q := by
  rw [streamOp, stands]

/-- A window that may open is CLOSED (R185). -/
theorem closed_of_mayOpen {s : State} {w : Window} (may : mayOpen s w = true) : w.state = 0 :=
  beq_iff_eq.1 (Bool.and_eq_true_iff.1 may).1

section
variable {s : State} {core qi win : Nat} {q : Queue}

/-- An OPEN within its limits opens the window, and the program goes on. -/
theorem openNow_opens {arg : BitVec 64} (queue : queueAt s core qi = q)
    (ordered : (opened (windowOf s core win) arg q.key).base.toNat ≤ (opened (windowOf s core win) arg q.key).limit.toNat) :
    openNow s core qi win arg = setQueue (setWindow s core win (opened (windowOf s core win) arg q.key)) core qi (nextInstr q) := by
  subst queue
  exact if_neg (Nat.not_lt.2 ordered)

/-! ### WOPEN, by the state of its window -/

section
variable {rd sa : Nat} {imm : BitVec 17} (inRange : imm.toNat < 8)
include inRange

section
variable (stands : atInstr s core qi (icB 0x2C rd sa imm.toNat) = some q)
include stands

theorem streamWopen_at : streamWopen s core qi rd sa imm =
    if (windowOf s core imm.toNat).state ≥ 3 then setQueue (windowReserved s core imm.toNat (some q.key)) core qi (nextInstr q)
    else if (windowOf s core imm.toNat).state = 1 then windowIllegal s core imm.toNat (some q.key)
    else if mayOpen s (windowOf s core imm.toNat) then openNow s core qi imm.toNat (selReg q sa)
    else setQueue s core qi { q with wait := .reopen imm.toNat (selReg q sa) } := by
  rw [streamWopen, streamOp_at _ stands, Nat.mod_eq_of_lt inRange]

theorem streamWopen_open (isOpen : (windowOf s core imm.toNat).state = 1) :
    streamWopen s core qi rd sa imm = windowIllegal s core imm.toNat (some q.key) := by
  rw [streamWopen_at inRange stands, if_neg (by omega), if_pos isOpen]

theorem streamWopen_reserved (reserved : 3 ≤ (windowOf s core imm.toNat).state) :
    streamWopen s core qi rd sa imm = setQueue (windowReserved s core imm.toNat (some q.key)) core qi (nextInstr q) := by
  rw [streamWopen_at inRange stands, if_pos reserved]

theorem streamWopen_waits (shut : (windowOf s core imm.toNat).state ≠ 1) (defined : (windowOf s core imm.toNat).state < 3)
    (early : mayOpen s (windowOf s core imm.toNat) = false) :
    streamWopen s core qi rd sa imm = setQueue s core qi { q with wait := .reopen imm.toNat (selReg q sa) } := by
  rw [streamWopen_at inRange stands, if_neg (Nat.not_le.2 defined), if_neg shut, early, if_neg Bool.false_ne_true]

theorem streamWopen_mayOpen (may : mayOpen s (windowOf s core imm.toNat) = true) :
    streamWopen s core qi rd sa imm = openNow s core qi imm.toNat (selReg q sa) := by
  have closed := closed_of_mayOpen may
  rw [streamWopen_at inRange stands, if_neg (by omega), if_neg (by omega), if_pos may]

end

/-! ### WCLOSE and WWAIT -/

theorem streamWclose_at (stands : atInstr s core qi (icB 0x2D rd sa imm.toNat) = some q) : streamWclose s core qi rd sa imm =
    setQueue (if (windowOf s core imm.toNat).state ≥ 3 then windowReserved s core imm.toNat (some q.key)
      else setWindow s core imm.toNat (closing (windowOf s core imm.toNat))) core qi (nextInstr q) := by
  rw [streamWclose, streamOp_at _ stands, Nat.mod_eq_of_lt inRange]

theorem streamWwait_at (stands : atInstr s core qi (icB 0x2E rd sa imm.toNat) = some q) : streamWwait s core qi rd sa imm =
    if (windowOf s core imm.toNat).state = 0 then setQueue s core qi (nextInstr q)
    else setQueue s core qi (waitFor s q (.window imm.toNat)) := by
  rw [streamWwait, streamOp_at _ stands, Nat.mod_eq_of_lt inRange]

end

/-! ### The ends of waits (R185, R202) -/

/-- A program that waits until its window is CLOSED goes on. -/
theorem wwaitRelease_closed (queue : queueAt s core qi = q) (running : q.state = .running) (waits : q.wait = .window win)
    (closed : (windowOf s core win).state = 0) : wwaitRelease s core qi = setQueue s core qi (nextInstr q) := by
  simp only [wwaitRelease, queue, running, waits, if_pos closed]

/-- What an OPEN of a window that waits at a queue asks for. -/
def waitingOpen (s : State) (core win qi : Nat) : Option (BitVec 64) :=
  match (queueAt s core qi).wait with
  | .reopen w arg => if w = win then some arg else none
  | _ => none

theorem waitingOpen_eq {arg : BitVec 64} (waits : (queueAt s core qi).wait = .reopen win arg) :
    waitingOpen s core win qi = some arg := by
  rw [waitingOpen, waits]
  exact if_pos rfl

theorem waitingOpen_none (idle : ∀ arg, (queueAt s core qi).wait ≠ .reopen win arg) : waitingOpen s core win qi = none := by
  rw [waitingOpen]
  split
  · next w arg waits => exact if_neg (fun same => idle arg (by rw [waits, same]))
  · rfl

theorem windowReopen_eq (s : State) (core win : Nat) : windowReopen s core win =
    match (List.range 8).findSome? (fun qi => (waitingOpen s core win qi).map (fun a => (qi, a))) with
    | some (qi, arg) => if mayOpen s (windowOf s core win) then openNow s core qi win arg else s
    | none => s := rfl

/-- The queues below one, the queue, and those above. -/
theorem range_split {n i : Nat} (below : i < n) : List.range n = List.range i ++ i :: List.range' (i + 1) (n - i - 1) := by
  have cut := List.range'_append_1 (s := 0) (m := i) (n := n - i)
  rw [Nat.zero_add, Nat.add_sub_cancel' (Nat.le_of_lt below)] at cut
  rw [← List.range'_succ, Nat.sub_add_cancel (Nat.sub_pos_of_lt below), List.range_eq_range', List.range_eq_range', cut]

/-- The waiting OPEN of the lowest queue takes effect (log 66). -/
theorem windowReopen_lowest {arg : BitVec 64} (queue : qi < 8) (lower : ∀ m < qi, ∀ a, (queueAt s core m).wait ≠ .reopen win a)
    (waits : (queueAt s core qi).wait = .reopen win arg) (may : mayOpen s (windowOf s core win) = true) :
    windowReopen s core win = openNow s core qi win arg := by
  have first : (List.range 8).findSome? (fun qi => (waitingOpen s core win qi).map (fun a => (qi, a))) = some (qi, arg) := by
    refine List.findSome?_eq_some_iff.2 ⟨List.range qi, qi, _, range_split queue, ?_, fun m below => ?_⟩
    · rw [waitingOpen_eq waits, Option.map_some]
    · rw [waitingOpen_none (lower m (List.mem_range.1 below)), Option.map_none]
  rw [windowReopen_eq, first]
  exact if_pos may

end

/-- Settles O23: what each row does is decided by the state of its window and by what waits for it. -/
theorem streamWindows : Obligations.StreamWindows := by
  intro core queue rd sa imm q s c n w go inRange
  refine ⟨fun stands => ⟨fun isOpen => ?_, fun reserved => ?_, fun shut defined early => ?_, fun may => ?_⟩,
    fun stands => ⟨fun defined => ?_, fun reserved => ?_⟩, fun stands => ⟨fun closed => ?_, fun busy => ?_⟩,
    fun here running waits closed => ?_, fun win arg lower here waits may => ?_⟩
  · rw [exec_wopen, execWopen, streamWopen_open inRange stands isOpen]
  · rw [exec_wopen, execWopen, streamWopen_reserved inRange stands reserved]
    rfl
  · rw [exec_wopen, execWopen, streamWopen_waits inRange stands shut defined early]
  · intro v ordered here
    rw [exec_wopen, execWopen, streamWopen_mayOpen inRange stands may, openNow_opens here ordered]
    rfl
  · rw [exec_wclose, execWclose, streamWclose_at inRange stands, if_neg (Nat.not_le.2 defined)]
    rfl
  · rw [exec_wclose, execWclose, streamWclose_at inRange stands, if_pos reserved]
    rfl
  · rw [exec_wwait, execWwait, streamWwait_at inRange stands, if_pos closed]
    rfl
  · rw [exec_wwait, execWwait, streamWwait_at inRange stands, if_neg busy]
  · rw [exec_wwaitRelease, execWwaitRelease, wwaitRelease_closed here running waits closed]
    rfl
  · intro v ordered
    rw [exec_windowReopen, execWindowReopen, windowReopen_lowest queue.isLt lower (by rw [here, waits]) may, openNow_opens here ordered]
    rfl

end Sys2Proof.Proofs
end

section
/-! VCRED and the handoff notices, tagged accesses that a queue waits for, and HANG (R169, R172, R187, R201, R366). -/
namespace Sys2Proof.Proofs

open Sys2Proof.Machine Sys2Proof.Laws

/-! ### VCRED and DATA notices (R187, R201) -/

/-- What VCRED is told: a destination and a counter, an amount that is not 0, and a range within the scratchpad (R180, R202). -/
def CreditValid (a b : Nat) : Prop :=
  a.testBit 25 = false ∧ a / 2 ^ 40 = 0 ∧ b % 2 ^ 32 ≠ 0 ∧ a % 2 ^ 19 + b % 2 ^ 32 ≤ 2 ^ 19

theorem not_creditValid_iff (a b : Nat) : ¬ CreditValid a b ↔
    a.testBit 25 = true ∨ a / 2 ^ 40 ≠ 0 ∨ b % 2 ^ 32 = 0 ∨ a % 2 ^ 19 + b % 2 ^ 32 > 2 ^ 19 := by
  simp only [CreditValid, Classical.not_and_iff_not_or_not, Bool.not_eq_false, ne_eq, Classical.not_not, Nat.not_le, gt_iff_lt]

/-- The notice of a credit, staged in a plan step and posted at once elsewhere. -/
def sendCredit (s : State) (core : Nat) (q : Queue) (dest : Nat) (n : Word128) : State :=
  if stagedStore s core q then stageNotice s core q dest n else postNotice s core dest n

section
variable {s : State} {core qi : Nat} {q : Queue}

section
variable {rd sa sb : Nat} (stands : atInstr s core qi (icA 0x32 rd sa sb) = some q)
include stands

theorem streamVcred_invalid (bad : ¬ CreditValid (selReg q sa).toNat (selReg q sb).toNat) : streamVcred s core qi rd sa sb =
    counterInvalid s core ((selReg q sa).toNat / 2 ^ 19 % 64) ((selReg q sb).toNat % 2 ^ 32) q.key := by
  rw [streamVcred, stands]
  exact if_pos ((not_creditValid_iff _ _).1 bad)

theorem streamVcred_valid (valid : CreditValid (selReg q sa).toNat (selReg q sb).toNat) : streamVcred s core qi rd sa sb =
    if handoffOpen q then s
    else setQueue (sendCredit s core q ((selReg q sa).toNat / 2 ^ 26 % 2 ^ 14)
      (noticeWord 1 qi false ((selReg q sb).toNat % 2 ^ 32) ((selReg q sa).toNat / 2 ^ 19 % 64) ((selReg q sb).toNat / 2 ^ 32)
        (gaddrOf core ((selReg q sa).toNat % 2 ^ 19)))) core qi (nextInstr q) := by
  rw [streamVcred, stands]
  exact if_neg (fun bad => (not_creditValid_iff _ _).2 bad valid)

end

/-- HANDOFF_DATA_NOTICE posts the notice of a whole unit of a queue that runs. -/
theorem handoffNotice_whole (here : queueAt s core qi = q) (runs : queueRuns s core q = true) (whole : q.unitDone = true) :
    handoffNotice s core qi = goOn (postUnit s core qi) core qi := by
  simp only [handoffNotice, here, runs, whole, Bool.not_true, Bool.false_eq_true, or_self, if_false]

theorem postUnit_whole (here : queueAt s core qi = q) (whole : q.unitDone = true) : postUnit s core qi =
    handoffMoved (setQueue (postNotice s core (unitNotice s core qi q).1 (unitNotice s core qi q).2) core qi (unitEnded q)) core qi := by
  simp only [postUnit, here, whole, Bool.not_true, Bool.false_eq_true, if_false]

@[simp] theorem handoffMoved_spad (s : State) (core qi : Nat) : (handoffMoved s core qi).spad = s.spad := rfl

theorem postNotice_spad (s : State) (core dest : Nat) (n : Word128) :
    (postNotice s core dest n).spad = { s.spad with notices := s.spad.notices ++ [(dest, n)] } := by
  rw [postNotice, bumpSpd_spad]

theorem postUnit_notices (here : queueAt s core qi = q) (whole : q.unitDone = true) :
    (postUnit s core qi).spad.notices = s.spad.notices ++ [unitNotice s core qi q] := by
  rw [postUnit_whole here whole, handoffMoved_spad, setQueue_spad, postNotice_spad]

/-! ### Tagged accesses (R169) -/

theorem taggedAdmit_idle (here : queueAt s core qi = q) (idle : q.tagWait = none) : taggedAdmit s core qi = s := by
  simp only [taggedAdmit, here, idle]

section
variable {g : Nat} {write : Bool} {x : Stall} (here : queueAt s core qi = q) (running : q.state = .running)
  (blocked : q.tagWait = some (g, write, x))
include here running blocked

/-- The tag of a blocked access decides: FULL admits a read, EMPTY a write. -/
theorem taggedAdmit_blocked : taggedAdmit s core qi =
    if tagFull s core g = write then s else goOn (setQueue s core qi { q with tagWait := none }) core qi := by
  simp only [taggedAdmit, here, blocked, running, ne_eq, not_true_eq_false, false_or]

end

/-! ### HANG (R172) -/

/-- A blocked access past its budget is named by its granule and its tag. -/
theorem hangPlace_tag {g : Nat} {write : Bool} {x : Stall} (blocked : q.tagWait = some (g, write, x)) (past : x.budget < x.ran) :
    hangPlace s core q = some (gaddrOf core (g * 256), bit (tagFull s core g)) := by
  have overdue : overran x = true := decide_eq_true past
  simp only [hangPlace, blocked, Option.filter_some, overdue, if_true, Option.map_some]

theorem hang_over {a t : Nat} (here : queueAt s core qi = q) (live : q.state = .running ∨ q.state = .faulted)
    (place : hangPlace s core q = some (a, t)) : hang s core qi =
      abortCmd (bumpSpd (report s ⟨0x0A, core, some q.key, clusterOf core, qi, a, t, 0⟩) (clusterOf core) 0x38 1) q.key 0x20 := by
  have occupied : ¬ (q.state = .free ∨ q.state = .parked) := by rcases live with h | h <;> simp [h]
  simp only [hang, here, if_neg occupied, place]

/-- A queue without a stream, or with no timer past its budget, is left as it is. -/
theorem hang_inTime (here : queueAt s core qi = q) (idle : q.state = .free ∨ q.state = .parked ∨ hangPlace s core q = none) :
    hang s core qi = s := by
  by_cases vacant : q.state = .free ∨ q.state = .parked
  · simp only [hang, here, if_pos vacant]
  · have inTime : hangPlace s core q = none := by
      obtain ⟨notFree, notParked⟩ := not_or.1 vacant
      exact (idle.resolve_left notFree).resolve_left notParked
    simp only [hang, here, if_neg vacant, inTime]

end

/-- Settles O25: VCRED by what it is told and whether handoff stores are open, a blocked access by its tag, and HANG by the timer past its
budget. -/
theorem streamNoticesTagsAndHangs : Obligations.StreamNoticesTagsAndHangs := by
  refine ⟨?_, ?_⟩
  · intro core queue rd sa sb q s c n go
    refine ⟨fun stands => ?_, fun here runs whole => ?_⟩
    · intro a b dest w
      refine ⟨fun unreserved destination amount range => ?_, fun bad => ?_⟩
      · have valid := streamVcred_valid stands ⟨unreserved, destination, amount, range⟩
        refine ⟨fun ended => ?_, fun under => ?_⟩
        · rw [exec_vcred, execVcred, valid, ended, if_neg Bool.false_ne_true]
          rfl
        · rw [exec_vcred, execVcred, valid, if_pos under]
      · rw [exec_vcred, execVcred, streamVcred_invalid stands ((not_creditValid_iff a b).2 bad)]
    · rw [exec_handoffDataNotice, execHandoffDataNotice, handoffNotice_whole here runs whole]
      exact ⟨rfl, postUnit_notices here whole⟩
  · intro core queue q s c n here
    refine ⟨fun g write x running blocked => ?_, fun idle => ?_, fun g write x blocked past => hangPlace_tag blocked past,
      fun a t live place => ?_, fun idle => ?_⟩
    · have admits := taggedAdmit_blocked here running blocked
      refine ⟨fun ready => ?_, fun waits => ?_⟩
      · rw [exec_taggedAccessAdmit, execTaggedAccessAdmit, admits, if_neg ready]
      · rw [exec_taggedAccessAdmit, execTaggedAccessAdmit, admits, if_pos waits]
    · rw [exec_taggedAccessAdmit, execTaggedAccessAdmit, taggedAdmit_idle here idle]
    · rw [exec_hang, execHang, hang_over here live place]
    · rw [exec_hang, execHang, hang_inTime here idle]

end Sys2Proof.Proofs
end

section
/-! Stream code that computes: arithmetic of registers and immediates, branches, and what an instruction that only computes leaves unchanged
(R199 to R201). -/
namespace Sys2Proof.Proofs

open Sys2Proof.Machine Sys2Proof.Laws

/-! ### Arithmetic (R201) -/

section
variable {s : State} {core qi op rd sa : Nat} {q : Queue}

/-- A queue that stands at an instruction of two registers writes its result to the third. -/
theorem streamAlu_at {sb : Nat} (f : BitVec 64 → BitVec 64 → BitVec 64) (stands : atInstr s core qi (icA op rd sa sb) = some q) :
    streamAlu s core qi op rd sa sb f = setQueue s core qi (writeReg q rd (f (selReg q sa) (selReg q sb))) := by
  rw [streamAlu, stands]

/-- A queue that stands at an instruction of a register and an immediate writes its result. -/
theorem streamAluImm_at {imm : BitVec 17} (f : BitVec 64 → BitVec 64) (stands : atInstr s core qi (icB op rd sa imm.toNat) = some q) :
    streamAluImm s core qi op rd sa imm f = setQueue s core qi (writeReg q rd (f (selReg q sa))) := by
  rw [streamAluImm, stands]

end

/-- A choice by the order of two words, made by `≤` or by `<`, differs for equal words alone, where it makes no difference. -/
theorem ite_le_eq_ite_ult {x y a b : BitVec 64} (same : x = y → a = b) :
    (if x.toNat ≤ y.toNat then a else b) = if x.ult y then a else b := by
  by_cases equal : x = y
  · rw [same equal, ite_self, ite_self]
  · have ne : x.toNat ≠ y.toNat := fun h => equal (BitVec.eq_of_toNat_eq h)
    have order : x.toNat ≤ y.toNat ↔ x.ult y = true := by rw [BitVec.ult, decide_eq_true_iff]; omega
    simp only [order]

/-- Settles O18: each row is the shared operation of its form with the function of its opcode; MIN and MAX differ from the statement's in
which of two equal operands they take, the shifts in that they reduce their count. -/
theorem streamArithmetic : Obligations.StreamArithmetic := by
  refine ⟨fun core queue rd sa sb q s => ?_, fun core queue rd sa imm q s => ?_⟩
  · intro at_ x y done
    refine ⟨fun stands => congrArg _ (streamAlu_at _ stands), fun stands => congrArg _ (streamAlu_at _ stands),
      fun stands => congrArg _ (streamAlu_at _ stands), fun stands => congrArg _ (streamAlu_at _ stands),
      fun stands => congrArg _ (streamAlu_at _ stands), fun stands => congrArg _ (streamAlu_at _ stands),
      fun stands => ?_, fun stands => ?_⟩
    · rw [exec_min, execMin, streamAlu_at _ stands, ite_le_eq_ite_ult id]
      rfl
    · rw [exec_max, execMax, streamAlu_at _ stands, ite_le_eq_ite_ult Eq.symm]
      rfl
  · intro at_ x done
    refine ⟨fun stands => congrArg _ (streamAluImm_at _ stands), fun stands => congrArg _ (streamAluImm_at _ stands),
      fun stands count => ?_, fun stands count => ?_, fun stands => congrArg _ (streamAluImm_at _ stands)⟩
    · rw [exec_shli, execShli, streamAluImm_at _ stands, Nat.mod_eq_of_lt count]
      rfl
    · rw [exec_shri, execShri, streamAluImm_at _ stands, Nat.mod_eq_of_lt count]
      rfl

/-! ### What an instruction that only computes leaves unchanged -/

/-- Two states that differ in one stream queue at most. -/
def QueueOnly (core qi : Nat) (s t : State) : Prop := t = s ∨ ∃ q, t = setQueue s core qi q

section
variable {s : State} {core qi op rd sa : Nat} {imm : BitVec 17}

theorem streamAlu_queueOnly (sb : Nat) (f : BitVec 64 → BitVec 64 → BitVec 64) :
    QueueOnly core qi s (streamAlu s core qi op rd sa sb f) := by
  cases stands : atInstr s core qi (icA op rd sa sb) with
  | none => exact .inl (by rw [streamAlu, stands])
  | some q => exact .inr ⟨_, streamAlu_at f stands⟩

theorem streamAluImm_queueOnly (f : BitVec 64 → BitVec 64) : QueueOnly core qi s (streamAluImm s core qi op rd sa imm f) := by
  cases stands : atInstr s core qi (icB op rd sa imm.toNat) with
  | none => exact .inl (by rw [streamAluImm, stands])
  | some q => exact .inr ⟨_, streamAluImm_at f stands⟩

theorem streamBranch_queueOnly (taken : BitVec 64 → Bool) : QueueOnly core qi s (streamBranch s core qi op rd sa imm taken) := by
  cases stands : atInstr s core qi (icB op rd sa imm.toNat) with
  | none => exact .inl (by rw [streamBranch, streamOp, stands])
  | some q => exact .inr ⟨_, streamOp_at _ stands⟩

end

/-- A queue written leaves every other one, of the eight of its core and of other cores. -/
theorem queueAt_setQueue_other {s : State} (canonical : Table.wf Queue.reset s.str.queues = true) {core qi a b : Nat} (q : Queue)
    (other : (a, b) ≠ (core, qi)) (inCore : qi < 8) (inCore' : b < 8) : queueAt (setQueue s core qi q) a b = queueAt s a b := by
  have apart : a * 8 + b ≠ core * 8 + qi := fun same => other (Prod.ext (by omega) (by omega))
  exact (tget_tset _ _ q canonical).trans (if_neg apart)

section
variable {core qi : Nat} {s t : State} (only : QueueOnly core qi s t)
include only

theorem QueueOnly.frame : t = { s with str := { s.str with queues := t.str.queues } } := by
  rcases only with rfl | ⟨q, rfl⟩ <;> rfl

theorem QueueOnly.wf (canonical : Table.wf Queue.reset s.str.queues = true) : Table.wf Queue.reset t.str.queues = true := by
  rcases only with rfl | ⟨q, rfl⟩
  · exact canonical
  · exact tset_wf _ _ canonical

theorem QueueOnly.others (canonical : Table.wf Queue.reset s.str.queues = true) {a b : Nat} (other : (a, b) ≠ (core, qi))
    (inCore : qi < 8) (inCore' : b < 8) : queueAt t a b = queueAt s a b := by
  rcases only with rfl | ⟨q, rfl⟩
  · rfl
  · exact queueAt_setQueue_other canonical q other inCore inCore'

end

/-- Settles O20: each row of stream code that only computes leaves a state that differs in its own queue at most. -/
theorem streamArithmeticFrame : Obligations.StreamArithmeticFrame := by
  intro core queue rd sa sb imm i s t computes canonical runs
  have only : QueueOnly core.toNat queue.toNat s t := by
    simp only [List.mem_cons, List.not_mem_nil, or_false] at computes
    rcases computes with rfl | rfl | rfl | rfl | rfl | rfl | rfl | rfl | rfl | rfl | rfl | rfl | rfl | rfl | rfl <;>
      obtain rfl := Host.Outcome.next.inj runs
    iterate 8 · exact streamAlu_queueOnly _ _
    iterate 5 · exact streamAluImm_queueOnly _
    iterate 2 · exact streamBranch_queueOnly _
  refine ⟨only.frame, only.wf canonical, fun a b other inCore => only.others canonical other queue.isLt inCore, fun a => ?_⟩
  rw [only.frame]
  exact ⟨rfl, rfl⟩

end Sys2Proof.Proofs
end

section
/-! Stream code that decides its tile: EMIT, EMPTY and SKIP (R201, R344). -/
namespace Sys2Proof.Proofs

open Sys2Proof.Machine Sys2Proof.Laws

section
variable {s : State} {core qi rd sa : Nat} {q : Queue}

theorem streamEmit_at {sb : Nat} (stands : atInstr s core qi (icA 0x20 rd sa sb) = some q) : streamEmit s core qi rd sa sb =
    runAhead (setQueue s core qi { q with op := .emit (selReg q sa) ((selReg q sb).toNat % 2 ^ 19), wait := .none }) core qi := by
  rw [streamEmit, stands]

section
variable {imm : BitVec 17} (stands : atInstr s core qi (icB 0x22 rd sa imm.toNat) = some q)
include stands

/-- A skipped tile counts as delivered, and the queue takes up the next. -/
theorem streamSkip_passes (goesOn : stopsHere s q.key = none) : streamSkip s core qi rd sa imm =
    (let u := bumpStr s (clusterOf core) (if dStore (curDesc q) then 0x10 else 0x08) 1
     runAhead (setQueue u core qi (pastTile u core qi q false)) core qi) := by
  rw [streamSkip, streamOp_at _ stands, goesOn]

/-- A stream that is told to stop ends at the tile it skips. -/
theorem streamSkip_stops {code : Nat} (stops : stopsHere s q.key = some code) :
    streamSkip s core qi rd sa imm = abortCmd s q.key code := by
  rw [streamSkip, streamOp_at _ stands, stops]

end
end

/-- Settles O21: each row decides the tile of a queue that stands at it, and SKIP asks first whether its stream is told to stop. -/
theorem streamTileDecisions : Obligations.StreamTileDecisions := by
  intro core queue rd sa sb imm q s c n
  refine ⟨fun stands => ?_, fun stands => ?_, fun stands => ⟨fun goesOn => ?_, fun code stops => ?_⟩⟩
  · rw [exec_emit, execEmit, streamEmit_at stands]
  · rw [exec_empty, execEmpty, streamEmpty, streamOp_at _ stands]
  · rw [exec_skip, execSkip, streamSkip_passes stands goesOn]
  · rw [exec_skip, execSkip, streamSkip_stops stands stops]

end Sys2Proof.Proofs
end

section
/-! Stream code on semaphores: SWAIT, SPOST and the end of a wait, by the count of the pair (R201, R204, R205). -/
namespace Sys2Proof.Proofs

open Sys2Proof.Machine Sys2Proof.Laws

section
variable {s : State} {core qi : Nat} {q : Queue}

section
variable {rd sa : Nat} {imm : BitVec 17}

theorem streamSwait_at (stands : atInstr s core qi (icB 0x30 rd sa imm.toNat) = some q) : streamSwait s core qi rd sa imm =
    if semCount (semAt s core (imm.toNat % 16)) (imm.getLsbD 4) = 0 then
      setQueue s core qi (waitFor s q (.semaphore (imm.toNat % 16) (imm.getLsbD 4) false))
    else setQueue (setSem s core (imm.toNat % 16) (semTake (semAt s core (imm.toNat % 16)) (imm.getLsbD 4))) core qi (nextInstr q) := by
  rw [streamSwait, streamOp_at _ stands]

section
variable (stands : atInstr s core qi (icB 0x31 rd sa imm.toNat) = some q)
include stands

theorem streamSpost_fits {y : SemPair} (fits : semPost (semAt s core (imm.toNat % 16)) (imm.getLsbD 4) = some y) :
    streamSpost s core qi rd sa imm = setQueue (setSem s core (imm.toNat % 16) y) core qi (nextInstr q) := by
  simp only [streamSpost, streamOp_at _ stands, fits]

/-- A post above capacity is an over-post (R205). -/
theorem streamSpost_over (above : semPost (semAt s core (imm.toNat % 16)) (imm.getLsbD 4) = none) :
    streamSpost s core qi rd sa imm = overPost s core (imm.toNat % 16) q.key := by
  simp only [streamSpost, streamOp_at _ stands, above]

end
end

/-- What ends the wait of a running queue for a count: a program's wait takes from it, a descriptor's goes on to the issue, which takes. -/
theorem swaitRelease_waiting {p : Nat} {full ofDesc : Bool} (here : queueAt s core qi = q) (running : q.state = .running)
    (waits : q.wait = .semaphore p full ofDesc) : swaitRelease s core qi =
    if semCount (semAt s core p) full = 0 then s
    else if ofDesc then runAhead (setQueue s core qi { q with wait := .none }) core qi
    else setQueue (setSem s core p (semTake (semAt s core p) full)) core qi (nextInstr q) := by
  simp only [swaitRelease, here, running, waits]

end

/-- Settles O24: the count of the pair decides a take and the end of a wait, its capacity a post. -/
theorem streamSemaphores : Obligations.StreamSemaphores := by
  intro core queue rd sa imm q s c n p full x go
  refine ⟨fun stands => ⟨fun available => ?_, fun none => ?_⟩, fun stands => ⟨fun y fits => ?_, fun above => ?_⟩,
    fun here running p full waits available => ?_, fun here running p full waits available => ?_,
    fun here running p full d waits none => ?_⟩
  · rw [exec_swait, execSwait, streamSwait_at stands, if_neg available]
    rfl
  · rw [exec_swait, execSwait, streamSwait_at stands, if_pos none]
  · rw [exec_spost, execSpost, streamSpost_fits stands fits]
    rfl
  · rw [exec_spost, execSpost, streamSpost_over stands above]
  · rw [exec_swaitRelease, execSwaitRelease, swaitRelease_waiting here running waits, if_neg available]
    rfl
  · rw [exec_swaitRelease, execSwaitRelease, swaitRelease_waiting here running waits, if_neg available, if_pos rfl]
  · rw [exec_swaitRelease, execSwaitRelease, swaitRelease_waiting here running waits, if_pos none]

end Sys2Proof.Proofs
end

section
/-! TRANSFER_COMPLETE: whether the queue runs, whether its translation unit is fenced, and what is in flight (R18, R191, R192). -/
namespace Sys2Proof.Proofs

open Sys2Proof.Machine Sys2Proof.Laws

section
variable {s : State} {core qi index : Nat} {flip : List Granule}

/-- A queue that does not run, or has issued nothing, has no transfer to complete. -/
theorem transferComplete_idle (idle : queueRuns s core (queueAt s core qi) = false ∨ (queueAt s core qi).issued = []) :
    transferComplete s core qi index flip = s := by
  refine if_pos ?_
  simpa only [Bool.not_eq_true', List.isEmpty_iff] using idle

/-- A queue with issued tiles: a fenced translation unit ends its command, and otherwise the named one of the transfers in flight completes,
if there is one, and the tiles that are whole are delivered (R18, R192, log 24). -/
theorem transferComplete_runs (runs : queueRuns s core (queueAt s core qi) = true) (issued : (queueAt s core qi).issued ≠ []) :
    transferComplete s core qi index flip =
      if streamFenced s core then abortCmd s (queueAt s core qi).key 0x20
      else if inFlight (queueAt s core qi) = [] then goOn s core qi
      else goOn (doTransfer s core qi ((inFlight (queueAt s core qi)).getD (index % (inFlight (queueAt s core qi)).length) (0, 0)) flip)
        core qi := by
  have busy : ¬ ((!queueRuns s core (queueAt s core qi)) = true ∨ (queueAt s core qi).issued.isEmpty = true) := by
    simp only [runs, Bool.not_true, Bool.false_eq_true, List.isEmpty_iff, issued, or_self, not_false_eq_true]
  simp only [transferComplete, if_neg busy]
  cases inFlight (queueAt s core qi) with
  | nil => simp only [if_true]
  | cons e l => simp only [reduceCtorEq, if_false]

end

/-- Settles O26: what stands in the way of the queue, its die's translation unit, and what is in flight decide the row. -/
theorem transfersComplete : Obligations.TransfersComplete := by
  intro core queue index flip s c n q
  refine ⟨fun runs issued => ⟨fun served landed => ?_, fun served flying => ?_, fun fenced => ?_⟩, fun idle => ?_⟩
  · rw [exec_transferComplete, execTransferComplete, transferComplete_runs runs issued, served, if_neg Bool.false_ne_true, if_pos landed]
  · rw [exec_transferComplete, execTransferComplete, transferComplete_runs runs issued, served, if_neg Bool.false_ne_true, if_neg flying]
  · rw [exec_transferComplete, execTransferComplete, transferComplete_runs runs issued, if_pos fenced]
  · rw [exec_transferComplete, execTransferComplete, transferComplete_idle idle]

end Sys2Proof.Proofs
end

section
/-! LDS of a poisoned word: its record names the address of the tile (R198, R418), not the word's scratchpad address. -/
namespace Sys2Proof.Proofs

open Sys2Proof.Machine Sys2Proof.Laws

/-- An image of a plan whose queue 0 has one descriptor and whose one program is the word `w`: the queue table at byte 320, the program at
byte 64 (R209, R210). -/
def oneWordPlan (w : Nat) : List Byte := natBytes 352 (320 * 2 ^ (8 * 8) + 64 * 2 ^ (8 * 0x14) + w * 2 ^ (8 * 64) + 2 ^ (8 * (320 + 4)))

/-- A queue of plan 1 in the program of the tile at address 0x1000; its register 2 holds 7. -/
def loadingQueue : Queue :=
  { Queue.reset with
    state := .running, wait := .program, plan := 1, key := 5, loops := List.replicate 6 0, regs := List.replicate 16 7
    basket := [BitVec.ofNat 512 (0x1000 + 2 ^ (128 + 35))] }

/-- That queue, queue 0 of core 0, stands at LDS of the word that register 2 names, which is poisoned. The plan store is at address 0, which
die 0 translates to itself. -/
def poisonedWord : State :=
  { State.reset with
    pmem := State.reset.pmem.write 0 (oneWordPlan (icB 0x16 0 2 0)) false
    xlt := { State.reset.xlt with dieCache := [(0, [⟨0, 0, 2 ^ 30, 1, 0xF000000000000000⟩])] }
    str := { State.reset.str with plans := [(1, some ⟨0, 352⟩)], queues := [(0, loadingQueue)] }
    spad := { State.reset.spad with mem := State.reset.spad.mem.setWord (spadAddr 0 7) 3 true } }

theorem poisonedWord_stands : atInstr poisonedWord 0 0 (icB 0x16 0 2 0) = some loadingQueue := by decide +kernel

theorem spadRead_poisonedWord : spadRead poisonedWord (some loadingQueue.key) 0 7 = ((3, true), poisonedWord) := by decide +kernel

/-- The addresses that the records in the error store name. -/
def recordAddrs (s : State) : List Nat := s.ras.store.map (fun r => r.addr)

/-- The state once the poison of a loaded word is recorded with an address, and its tile goes to its delivery (R201, R410). -/
def poisonNoted (addr : Nat) : State :=
  runAhead (setQueue (report (updCmd poisonedWord loadingQueue.key (fun c => { c with poison := true }))
    ⟨0x11, 0, some loadingQueue.key, clusterOf 0, 0, addr, 0, 0⟩) 0 0
      { loadingQueue with poisoned := true, op := .poison, wait := .none }) 0 0

theorem recordAddrs_lds : recordAddrs (streamLds poisonedWord 0 0 0 2 0) = [0x1000] := by decide +kernel

theorem recordAddrs_poisonNoted : recordAddrs (poisonNoted 7) = [7] := by decide +kernel

/-- Refutes O19: of `poisonedWord` LDS records address 0x1000, the loop address of the tile (the VA that R418 gives STORE_UNMAPPED), where
the statement's record has the scratchpad address 7 of the word. -/
theorem not_streamBranchesAndLoads : ¬ Obligations.StreamBranchesAndLoads := by
  intro claim
  obtain ⟨-, -, -, poisoned⟩ := claim 0 0 0 2 0 loadingQueue poisonedWord
  have stated : exec (.lds 0 0 0 2 0) poisonedWord = .next (poisonNoted 7) :=
    poisoned poisonedWord_stands 3 poisonedWord spadRead_poisonedWord
  rw [exec_lds, execLds] at stated
  have same : streamLds poisonedWord 0 0 0 2 0 = poisonNoted 7 := Host.Outcome.next.inj stated
  have recorded := recordAddrs_lds
  rw [same, recordAddrs_poisonNoted] at recorded
  exact absurd recorded (by decide)

end Sys2Proof.Proofs
end

section
/-! Multicast groups: a broadcast of a standard plan's group, that of a loaded plan whose receivers stand elsewhere, and the detachment of a
receiver that has held its group too long (R222 to R224). -/
namespace Sys2Proof.Proofs

open Sys2Proof.Machine Sys2Proof.Laws

/-! ### Lags of receivers (R222, R223) -/

theorem le_foldl_max_taken (l : List Receiver) (a : Nat) :
    a ≤ l.foldl (fun m r => max m r.taken) a ∧ ∀ r ∈ l, r.taken ≤ l.foldl (fun m r => max m r.taken) a := by
  induction l generalizing a with
  | nil => exact ⟨Nat.le_refl a, fun _ member => nomatch member⟩
  | cons y l ih =>
    obtain ⟨first, rest⟩ := ih (max a y.taken)
    exact ⟨by simp only [List.foldl_cons]; omega, List.forall_mem_cons.2 ⟨by simp only [List.foldl_cons]; omega, rest⟩⟩

/-- The leader has taken no fewer tiles than any attached receiver. -/
theorem taken_le_leaderTaken {x : Group} {r : Receiver} (member : r ∈ x.receivers) (attached : r.attached = true) :
    r.taken ≤ leaderTaken x :=
  (le_foldl_max_taken _ 0).2 r (List.mem_filter.2 ⟨member, attached⟩)

theorem lt_foldl_min_taken_add (l : List Receiver) (n k a : Nat) :
    n < l.foldl (fun m r => min m r.taken) a + k ↔ n < a + k ∧ ∀ r ∈ l, n < r.taken + k := by
  induction l generalizing a with
  | nil => simp only [List.foldl_nil, List.not_mem_nil, false_implies, implies_true, and_true]
  | cons y l ih =>
    rw [List.foldl_cons, ih, List.forall_mem_cons, ← and_assoc]
    exact and_congr_left fun _ => by omega

/-- Whether an attached receiver is less than `k` tiles ahead of the one with the fewest tells so of every attached one. -/
theorem taken_lt_leastTaken_add {x : Group} {r : Receiver} (member : r ∈ x.receivers) (attached : r.attached = true) {k : Nat}
    (pos : 0 < k) : r.taken < leastTaken x + k ↔ ∀ y ∈ x.receivers, y.attached = true → r.taken < y.taken + k := by
  have leads := taken_le_leaderTaken member attached
  rw [leastTaken, lt_foldl_min_taken_add, and_iff_right (by omega)]
  simp only [List.mem_filter, and_imp]

/-! ### A broadcast of a standard plan's group -/

/-- Whether the source of a standard plan's group fetches its next tile (R222). -/
def fetchesNext (x : Group) : Bool := decide (x.fetched < x.tiles) && mayFetch x

/-- The state with the next tile of a group in its ring, where the source fetches it. -/
def fetchNext (s : State) (cluster : Nat) (x : Group) : State :=
  if fetchesNext x then putRows s (multicastAddr cluster (groupSlot x x.fetched)) (ringRows s x cluster x.fetched) else s

/-- The group with its next tile fetched, where the source fetches it. -/
def fetchedNext (x : Group) : Group := { x with fetched := x.fetched + bit (fetchesNext x) }

/-- Whether a receiver of a standard plan's group takes a tile (R222, R223). -/
def takesNext (s : State) (x : Group) (r : Receiver) : Bool :=
  r.attached && !receiverStalled s x.key r.core && decide (r.taken < x.fetched) && decide (r.taken < leastTaken x + 8)

/-- A receiver after a broadcast of its group. -/
def afterTake (s : State) (x : Group) (r : Receiver) : Receiver := if takesNext s x r then { r with taken := r.taken + 1 } else r

/-- Whether the leader of a standard plan's group waits for its next tile (R223). -/
def leaderWaits (s : State) (x : Group) : Bool :=
  x.receivers.any (fun r => r.attached && !receiverStalled s x.key r.core && r.taken == leaderTaken x &&
    decide (r.taken < x.tiles ∧ r.taken ≥ leastTaken x + 8))

theorem standardBroadcast_eq (s : State) (cluster group : Nat) (x : Group) : standardBroadcast s cluster group x =
    bumpStr (settleHolds (fetchNext s cluster x) cluster group (leaderWaits (fetchNext s cluster x) (fetchedNext x))
      { fetchedNext x with receivers := x.receivers.map (afterTake (fetchNext s cluster x) (fetchedNext x)) })
      cluster 0x50 (bit (fetchesNext x)) := rfl

/-- Rows put into the ring leave the translation units. -/
@[simp] theorem putRows_xlt (s : State) (a : Nat) (rows : List (List (Byte × Bool))) : (putRows s a rows).xlt = s.xlt := by
  induction rows generalizing s a with
  | nil => rfl
  | cons r rest ih => exact ih (putRing s a r) (a + r.length)

theorem fetchNext_xlt (s : State) (cluster : Nat) (x : Group) : (fetchNext s cluster x).xlt = s.xlt := by
  rw [fetchNext]
  split
  · exact putRows_xlt _ _ _
  · rfl

/-- States with the same translation units have the same receivers stalled. -/
theorem receiverStalled_congr {s t : State} (same : t.xlt = s.xlt) (k core : Nat) :
    receiverStalled t k core = receiverStalled s k core := by
  rw [receiverStalled, receiverStalled, allPendings, allPendings, same]

/-- A receiver takes a tile that is fetched when it is attached, not stalled, and less than 8 tiles ahead of every attached one. -/
theorem takesNext_iff (s : State) {x : Group} {r : Receiver} (member : r ∈ x.receivers) : takesNext s x r = true ↔
    r.attached = true ∧ receiverStalled s x.key r.core = false ∧ r.taken < x.fetched ∧
      ∀ y ∈ x.receivers, y.attached = true → r.taken < y.taken + 8 := by
  simp only [takesNext, Bool.and_eq_true, Bool.not_eq_true', decide_eq_true_eq, and_assoc]
  exact and_congr_right fun attached => by rw [taken_lt_leastTaken_add member attached (by decide)]

/-- What a broadcast changes of a receiver: the tiles it has taken, by one where it takes a tile. -/
theorem afterTake_spec (s : State) {x : Group} {r : Receiver} (member : r ∈ x.receivers) :
    (afterTake s x r).core = r.core ∧ (afterTake s x r).split = r.split ∧ (afterTake s x r).attached = r.attached ∧
      (afterTake s x r).taken = r.taken + (if r.attached = true ∧ receiverStalled s x.key r.core = false ∧ r.taken < x.fetched ∧
        (∀ y ∈ x.receivers, y.attached = true → r.taken < y.taken + 8) then 1 else 0) := by
  have takes := takesNext_iff s member
  rw [afterTake]
  split
  · next took => exact ⟨rfl, rfl, rfl, by rw [if_pos (takes.1 took)]⟩
  · next stood => exact ⟨rfl, rfl, rfl, by rw [if_neg (fun may => stood (takes.2 may)), Nat.add_zero]⟩

theorem multicastBroadcast_standard {s : State} {cluster group : Nat} {x : Group}
    (found : tget none s.str.groups (4 * cluster + group) = some x) (standard : x.queue = none) :
    multicastBroadcast s cluster group = standardBroadcast s cluster group x := by
  simp only [multicastBroadcast, found, standard]

/-! ### The group of a loaded plan while its receivers stand elsewhere -/

section
variable {s : State} {cluster group qi : Nat} {x : Group}

theorem multicastBroadcast_loaded (found : tget none s.str.groups (4 * cluster + group) = some x) (loaded : x.queue = some qi) :
    multicastBroadcast s cluster group = planBroadcast s cluster group qi x := by
  simp only [multicastBroadcast, found, loaded]

section
variable (elsewhere : ∀ r ∈ x.receivers, (queueAt s r.core qi).wait ≠ .group)
include elsewhere

/-- No receiver stands at the group's next tile: the source has no descriptor to fetch it by. -/
theorem groupFetch_elsewhere : groupFetch s cluster group x qi = s := by
  have noTile : sourceTile s x qi = none := by
    rw [sourceTile, Option.map_eq_none_iff, List.find?_eq_none]
    intro r member
    simp only [Bool.and_eq_true, beq_iff_eq, not_and]
    exact fun _ => elsewhere r member
  rw [groupFetch, noTile]

theorem tryTake_elsewhere (found : tget none s.str.groups (4 * cluster + group) = some x) (low i : Nat) :
    tryTake cluster group qi low s i = s := by
  simp only [tryTake, found]
  split
  · rfl
  · next r here =>
    have stays : takeTile s cluster x qi r = (s, false) := if_pos (.inl (elsewhere r (List.mem_of_getElem? here)))
    simp only [stays, ite_self]

theorem foldl_tryTake_elsewhere (found : tget none s.str.groups (4 * cluster + group) = some x) (low : Nat) (is : List Nat) :
    is.foldl (tryTake cluster group qi low) s = s := by
  induction is with
  | nil => rfl
  | cons i is ih => rw [List.foldl_cons, tryTake_elsewhere elsewhere found low i, ih]

/-- A broadcast of a loaded plan's group of which no receiver stands at its next tile moves nothing. -/
theorem planBroadcast_elsewhere (found : tget none s.str.groups (4 * cluster + group) = some x)
    (sound : sourceFaulted s x.key cluster qi = false) : planBroadcast s cluster group qi x = settleHolds s cluster group false x := by
  have noneWaits (p : Receiver → Bool) : x.receivers.any (fun r => p r && (queueAt s r.core qi).wait == .group) = false := by
    rw [List.any_eq_false]
    intro r member
    simp only [Bool.and_eq_true, beq_iff_eq, not_and]
    exact fun _ => elsewhere r member
  simp only [planBroadcast, groupFetch_elsewhere elsewhere, ite_self, found, sound, Bool.false_eq_true, if_false,
    foldl_tryTake_elsewhere elsewhere found, noneWaits]

end
end

/-! ### Detachment (R224) -/

@[simp] theorem logAdd_str (s : State) (kind source traceId : Nat) (payload : List Byte) :
    (logAdd s kind source traceId payload).str = s.str := by
  obtain ⟨l, p, logged⟩ := logAdd_frame s kind source traceId payload
  rw [logged]

/-- A group without one of its receivers (R224). -/
def withoutReceiver (s : State) (x : Group) (i : Nat) (r : Receiver) : Group :=
  holdTimers s false { x with receivers := x.receivers.set i { r with attached := false, holdSince := none, budget := 0 } }

/-- The state with a detachment recorded in the log and in the cluster's list of their times. -/
def noteDetach (s : State) (cluster group : Nat) (x x' : Group) (r : Receiver) : State :=
  let t := logAdd s 0x0002 (0xC040 + cluster) 0 (detachBytes s x.key cluster group r)
  { t with
    str := { t.str with groups := tset none t.str.groups (4 * cluster + group) (some x') }
    pwr := { t.pwr with detachTimes := tset [] t.pwr.detachTimes cluster ((t.now :: tget [] t.pwr.detachTimes cluster).take 5) } }

theorem noteDetach_str (s : State) (cluster group : Nat) (x x' : Group) (r : Receiver) :
    (noteDetach s cluster group x x' r).str = { s.str with groups := tset none s.str.groups (4 * cluster + group) (some x') } := by
  simp only [noteDetach, logAdd_str]

/-- A detached receiver stays in its group's list. -/
theorem withoutReceiver_at (s : State) {x : Group} {i : Nat} {r : Receiver} (here : x.receivers[i]? = some r) :
    (withoutReceiver s x i r).receivers[i]? = some { r with attached := false, holdSince := none, budget := 0 } := by
  obtain ⟨inList, -⟩ := List.getElem?_eq_some_iff.1 here
  simp only [withoutReceiver, holdTimers, List.getElem?_map, List.getElem?_set_self inList, Option.map_some, Bool.false_and, Bool.not_false,
    if_true]

section
variable {s : State} {cluster group i since : Nat} {x : Group} {r : Receiver}
  (found : tget none s.str.groups (4 * cluster + group) = some x) (here : x.receivers[i]? = some r) (holds : r.holdSince = some since)
include found here holds

/-- A receiver whose hold has not come to its budget stays attached. -/
theorem multicastDetach_early (early : s.now < since + r.budget) : multicastDetach s cluster group i = s := by
  have notDue : ¬ since + r.budget ≤ s.now := Nat.not_le.2 early
  simp only [multicastDetach, found, here, holds, Option.any_some, ge_iff_le, notDue, decide_false, Bool.and_false, Bool.not_false, if_true]

theorem multicastDetach_due (attached : r.attached = true) (due : since + r.budget ≤ s.now) : multicastDetach s cluster group i =
    goUnicast (countHolds (bumpStr (noteDetach s cluster group x (withoutReceiver s x i r) r) cluster 0x60 1) cluster
      (holdsEnded x (withoutReceiver s x i r))) (withoutReceiver s x i r) r := by
  simp only [multicastDetach, found, here, holds, attached, Option.any_some, ge_iff_le, due, decide_true, Bool.and_true, Bool.not_true,
    Bool.false_eq_true, if_false]
  rfl

end

/-- Settles O28: what the source and the receivers of a standard plan's group may do, the receivers of a loaded plan's that stand elsewhere,
and the budget of a hold. -/
theorem multicastGroups : Obligations.MulticastGroups := by
  intro cluster group s x g put found
  refine ⟨fun standard => ?_, fun qi loaded elsewhere sound => ?_,
    fun receiver r since here attached holds => ⟨fun due => ?_, fun early => ?_⟩⟩
  · refine ⟨{ fetchedNext x with receivers := x.receivers.map (afterTake (fetchNext s g x) (fetchedNext x)) },
      leaderWaits (fetchNext s g x) (fetchedNext x), ⟨?_, rfl⟩, rfl, rfl, List.length_map _, fun j r r' before after => ?_⟩
    · rw [exec_multicastBroadcast, execMulticastBroadcast, multicastBroadcast_standard found standard, standardBroadcast_eq]
      rfl
    · simp only [List.getElem?_map, before, Option.map_some, Option.some.injEq] at after
      subst after
      have spec := afterTake_spec (fetchNext s g x) (x := fetchedNext x) (List.mem_of_getElem? before)
      rwa [receiverStalled_congr (fetchNext_xlt s g x)] at spec
  · rw [exec_multicastBroadcast, execMulticastBroadcast, multicastBroadcast_loaded found loaded,
      planBroadcast_elsewhere elsewhere found sound]
  · refine ⟨withoutReceiver s x receiver.toNat r, noteDetach s g group.toNat x (withoutReceiver s x receiver.toNat r) r, ?_,
      noteDetach_str _ _ _ _ _ _, rfl, _, withoutReceiver_at s here, rfl, rfl⟩
    rw [exec_multicastDetach, execMulticastDetach, multicastDetach_due found here holds attached due]
  · rw [exec_multicastDetach, execMulticastDetach, multicastDetach_early found here holds early]

end Sys2Proof.Proofs
end

section
/-! What a command's body that ends leaves, for a row whose command runs at its handover (R318, R319). -/
namespace Sys2Proof.Proofs

open Sys2Proof.Machine Sys2Proof.Laws Sys2Proof.Safety

/-- A sequence of two actions ends as its second does after the first has ended. -/
theorem run_bind_ok {α β : Type} {x : Act α} {f : α → Act β} {s t : State} {b : β} :
    (x >>= f).run s = .ok b t ↔ ∃ a u, x.run s = .ok a u ∧ (f a).run u = .ok b t := by
  rw [EStateM.run_bind]
  cases x.run s with
  | ok a u =>
    refine ⟨fun ran => ⟨a, u, rfl, ran⟩, ?_⟩
    rintro ⟨_, _, first, ran⟩
    cases first
    exact ran
  | error e u =>
    refine ⟨(nomatch ·), ?_⟩
    rintro ⟨_, _, first, -⟩
    cases first

/-- An action that looks at the state first. -/
theorem run_get_bind {β : Type} (f : State → Act β) (s : State) : ((get : Act State) >>= f).run s = (f s).run s := rfl

/-- A computation that runs to its end ends. -/
theorem ends_of_run {α : Type} {a : Act α} {s t : State} {x : α} (ran : a.run s = .ok x t) : ends a s = some (x, t) := by
  rw [ends, ran]

/-- A command that may run, and whose body ends, completes with the body's reply. -/
theorem runBody_ends {d : OpDef} {k : Nat} {s t : State} {r : Reply} (now : runsNow k s = true) (ran : (d.body k).run s = .ok r t) :
    runBody d k s = completeCmd t k r := by
  simp only [runsNow, Bool.and_eq_true, Option.any_eq_true, Bool.not_eq_true'] at now
  obtain ⟨⟨c, known, free⟩, -⟩ := now
  simp only [runBody, known, free, Bool.false_eq_true, if_false, ran]

/-- A row whose command runs at its handover, and whose body ends, completes with the body's reply. -/
theorem exec_bodyEnds {i : Instr} {h : Handed} {k : Nat} {s t : State} {r : Reply} (row : handed i = some h) (may : mayRun h k s = true)
    (unplaced : (opDef h.op).placed = false) (ran : ((opDef h.op).body k).run (working h k s) = .ok r t) :
    exec i s = .next (settle (completeCmd t k r)) := by
  obtain ⟨-, now⟩ := Bool.and_eq_true_iff.1 may
  rw [exec_mayRun row may unplaced, runBody_ends now ran]

end Sys2Proof.Proofs
end

section
/-! The next basket of a stream, PLAN_LOAD and PLAN_UNLOAD, and STREAM_HALT (R203, R207, R212, R216). -/
namespace Sys2Proof.Proofs

open Sys2Proof.Machine Sys2Proof.Laws Sys2Proof.Safety

/-! ### BASKET_ARRIVAL (R203) -/

/-- The index in its list of the next descriptor that a queue has not read. -/
def nextDesc (q : Queue) : Nat := q.desc + q.basket.length

/-- Descriptors of the next basket: up to a multiple of 16, and none beyond the list. -/
def basketSize (s : State) (qi : Nat) (q : Queue) : Nat :=
  min (16 - nextDesc q % 16) ((streamEntry (streamImage s q) qi).count - nextDesc q)

/-- The pool address of the next basket in the plan store. -/
def basketVa (s : State) (qi : Nat) (q : Queue) : Nat :=
  cfgVal s 0x4000 0 + (planOf s q.plan).elim 0 (fun p => p.offset) + (planHeader (streamImage s q)).descOff +
    64 * ((streamEntry (streamImage s q) qi).first + nextDesc q)

/-- The read of the next basket. -/
def fetchBasket (s : State) (core qi : Nat) (q : Queue) : Act (List Byte) :=
  readBasket { whoStream q core qi 0 with origin := 1 } (basketVa s qi q) (basketSize s qi q)

/-- The descriptors of a basket's bytes. -/
def basketDescs (n : Nat) (bs : List Byte) : List (BitVec 512) := (chunksOf 64 n bs).map (fun c => BitVec.ofNat 512 (bytesNat c))

/-- A basket of `n` descriptors taken up by a queue, and counted with its bytes. -/
def takeBasket (u : State) (core qi : Nat) (q : Queue) (n : Nat) (ds : List (BitVec 512)) : State :=
  setQueue (bumpStr (bumpStr u (clusterOf core) 0x28 1) (clusterOf core) 0x18 (64 * n)) core qi { q with basket := q.basket ++ ds }

section
variable {s : State} {core qi : Nat} {q : Queue}

/-- A basket that is read and found valid is taken up; a queue that waited for it begins its tile. -/
theorem basketArrival_valid {u : State} {bs : List Byte} (here : queueAt s core qi = q) (runs : queueRuns s core q = true)
    (room : q.basket.length ≤ 8) (more : nextDesc q < (streamEntry (streamImage s q) qi).count)
    (fetched : (fetchBasket s core qi q).run s = .ok bs u)
    (valid : basketInvalid (streamImage s q) (basketDescs (basketSize s qi q) bs) = none) : basketArrival s core qi =
    (let v := takeBasket u core qi q (basketSize s qi q) (basketDescs (basketSize s qi q) bs)
     if q.wait = .basket then runAhead (setQueue v core qi { queueAt v core qi with wait := .none }) core qi else v) := by
  subst here
  have takes : ¬ ((!queueRuns s core (queueAt s core qi)) = true ∨ (queueAt s core qi).basket.length > 8 ∨
      nextDesc (queueAt s core qi) ≥ (streamEntry (streamImage s (queueAt s core qi)) qi).count) := by
    rw [runs]
    simp only [Bool.not_true, Bool.false_eq_true, false_or]
    omega
  refine (if_neg takes).trans ?_
  simp only [fetchBasket, basketVa, basketSize, nextDesc] at fetched
  simp only [basketDescs, basketSize, nextDesc] at valid
  simp only [fetched, valid]
  rfl

end

/-! ### PLAN_LOAD and PLAN_UNLOAD (R207, R212) -/

/-- A plan of the store replaced, or removed. -/
def putPlan (s : State) (id : Nat) (x : Option Plan) : State := { s with str := { s.str with plans := tset none s.str.plans id x } }

/-- PLAN_LOAD of an image: it is read, and written where the store has room. -/
def loadPlan (k asid : Nat) (p : SlotWord) : Act Reply := do
  let bs ← readImage k asid (param p 0 64) (param p 8 32)
  match storeRoom (← get) (param p 0xC 16) (param p 8 32) with
  | none => abortWith 0x20
  | some off =>
    storeWrite k off bs
    modify (fun s => putPlan s (param p 0xC 16) (some ⟨off, param p 8 32⟩))
    return {}

/-- The body of the two rows, by the field that tells them apart. -/
theorem planLoad_body_eq (k : Nat) : planLoadDef.body k = (do
    let s ← get
    let p := slotAt s k
    if paramBit p 0xE 0 then do
      set (putPlan s (param p 0xC 16) none)
      return {}
    else loadPlan k (cmdAsid s k) p) := rfl

section
variable {k : Nat} {s : State}

/-- PLAN_UNLOAD removes its plan. -/
theorem planUnload_body (unload : paramBit (slotAt s k) 0xE 0 = true) :
    (planLoadDef.body k).run s = .ok {} (putPlan s (param (slotAt s k) 0xC 16) none) := by
  rw [planLoad_body_eq, run_get_bind]
  simp only [unload, if_true]
  rfl

theorem planLoad_body (load : paramBit (slotAt s k) 0xE 0 = false) :
    (planLoadDef.body k).run s = (loadPlan k (cmdAsid s k) (slotAt s k)).run s := by
  rw [planLoad_body_eq, run_get_bind]
  simp only [load, Bool.false_eq_true, if_false]

/-- A PLAN_LOAD that ends has read the image, found room for it and written it there. -/
theorem loadPlan_ends {asid : Nat} {p : SlotWord} {r : Reply} {t : State} (ran : (loadPlan k asid p).run s = .ok r t) :
    ∃ (bs : List Byte) (off : Nat) (u v : State), (readImage k asid (param p 0 64) (param p 8 32)).run s = .ok bs u ∧
      storeRoom u (param p 0xC 16) (param p 8 32) = some off ∧ (storeWrite k off bs).run u = .ok () v ∧
      r = {} ∧ t = putPlan v (param p 0xC 16) (some ⟨off, param p 8 32⟩) := by
  obtain ⟨bs, u, image, ran⟩ := run_bind_ok.1 ran
  rw [run_get_bind] at ran
  split at ran
  · cases ran
  · next off room =>
    obtain ⟨_, v, written, ran⟩ := run_bind_ok.1 ran
    cases ran
    exact ⟨bs, off, u, v, image, room, written, rfl, rfl⟩

end

/-! ### STREAM_HALT (R216) -/

/-- The end of STREAM_HALT with the resume record and the state that the halt leaves. -/
def endHalt (k : Nat) (p : SlotWord) (r : List Byte × State) : Act Reply := do
  set r.2
  if hdrField p 0x10 64 = 0 then return {} else longAct k r.1 {}

theorem streamHalt_body_eq (k : Nat) : streamHaltDef.body k = (do
    let s ← get
    let t := handleTarget (param (slotAt s k) 0 64)
    endHalt k (slotAt s k) (haltStream s t.1 t.2)) := rfl

theorem streamHalt_body (k : Nat) (s : State) : (streamHaltDef.body k).run s =
    (let t := handleTarget (param (slotAt s k) 0 64)
     (endHalt k (slotAt s k) (haltStream s t.1 t.2)).run s) := by
  rw [streamHalt_body_eq, run_get_bind]

section
variable {k : Nat} {p : SlotWord} (r : List Byte × State) (s : State)

/-- Without an address for it, the resume record is written nowhere. -/
theorem endHalt_plain (plain : hdrField p 0x10 64 = 0) : (endHalt k p r).run s = .ok {} r.2 := by
  rw [endHalt, if_pos plain]
  rfl

theorem endHalt_record (asked : hdrField p 0x10 64 ≠ 0) : (endHalt k p r).run s =
    .ok { longWritten := (longReply r.2 k r.1).1.1, trunc := (longReply r.2 k r.1).1.2 } (longReply r.2 k r.1).2 := by
  rw [endHalt, if_neg asked]
  rfl

end

/-- Settles O27: a basket that is read and valid, a plan image that is read and written, a plan removed, and a stream halted with or
without a record of it. -/
theorem basketsArrive : Obligations.BasketsArrive := by
  refine ⟨fun core queue s => ?_, fun port slot hdr h k s => ?_⟩
  · intro c n q img next_ size va fetched descs runs room more valid
    obtain ⟨⟨bs, u⟩, read, valid⟩ := (Option.any_eq_true _ _).1 valid
    refine ⟨bs, u, read, ?_⟩
    rw [exec_basketArrival, execBasketArrival, basketArrival_valid rfl runs room more (ends_elim read) (Option.isNone_iff_eq_none.1 valid)]
    rfl
  · intro a p id put may
    refine ⟨fun row load ended => ?_, fun row unload => ?_, fun row => ?_⟩
    · obtain rfl := Option.some.inj row
      obtain ⟨⟨r, t⟩, ended⟩ := Option.isSome_iff_exists.1 ended
      have ran := (planLoad_body load).symm.trans (ends_elim ended)
      obtain ⟨bs, off, u, v, image, room, written, rfl, rfl⟩ := loadPlan_ends ran
      exact ⟨bs, off, u, v, ends_of_run image, room, ends_of_run written, exec_bodyEnds row may rfl (ends_elim ended)⟩
    · obtain rfl := Option.some.inj row
      exact exec_bodyEnds row may rfl (planUnload_body unload)
    · obtain rfl := Option.some.inj row
      intro target r
      exact ⟨fun plain => exec_bodyEnds row may rfl ((streamHalt_body k a).trans (endHalt_plain r a plain)),
        fun asked => exec_bodyEnds row may rfl ((streamHalt_body k a).trans (endHalt_record r a asked))⟩

end Sys2Proof.Proofs
end

section
/-! The ends of walks and faults: WALK_END by what the walk finds, FAULT_FETCH and FAULT_RESOLVE (R18, R246, R249, R252 to R254). -/
namespace Sys2Proof.Proofs

open Sys2Proof.Machine Sys2Proof.Laws Sys2Proof.Safety

/-! ### WALK_END (R246) -/

/-- The walk of a miss-table entry, in the name of its oldest request. -/
def missWalk (s : State) (die : Nat) (m : MissEntry) (w : Waiter) : WalkEnd × State :=
  walk { die := die, key := some w.key, cluster := w.cluster } m.retryFor.isSome m.asid w.va s

/-- What the end of its walk does to an entry's requests: a leaf goes into the die's cache and to them all, a walk without a translation stops
them and raises one fault, and one that meets fenced memory ends their commands. -/
def answerRequests (s : State) (die : Nat) (m : MissEntry) (w : Waiter) : WalkEnd → State
  | .leaf e => leafWaiters (fillDie s die e) die m.asid e m.waiters
  | .fault cause level => raiseFault (m.waiters.foldl stopWaiter s) die m.asid w.va w.access cause level m.waiters
  | .fenced => abortWaiters s m.waiters

/-- An entry that a walker of a working unit has is freed when its walk ends, and its requests are answered before those held retry. -/
theorem walkEnd_walks {s : State} {die idx : Nat} {m : MissEntry} {w : Waiter} {rest : List Waiter} (here : missAt s die idx = some m)
    (served : isFenced s (xltSource die) = false) (walks : hasWalker s die m = true) (waiting : m.waiters = w :: rest) :
    walkEnd s die idx =
      retryHeld (answerRequests (setMiss (missWalk s die m w).2 die idx none) die m w (missWalk s die m w).1) die := by
  rcases found : (missWalk s die m w).1 with e | ⟨cause, level⟩ | _ <;>
    · simp only [missWalk] at found
      simp only [walkEnd, here, served, walks, waiting, Bool.not_true, Bool.false_eq_true, or_self, if_false, found, missWalk, answerRequests]

/-! ### FAULT_FETCH (R252, R253) -/

/-- The records that a FAULT_FETCH takes: the oldest of the queue, as many as it asks for. -/
def fetchedRecords (s : State) (k : Nat) : List QueuedFault := s.xlt.queue.take (param (slotAt s k) 0 16)

/-- The records gone from the queue, and their pending faults marked fetched. -/
def dropRecords (s : State) (take : List QueuedFault) : State :=
  take.foldl (fun s q => markCopied s q.faultId) { s with xlt := { s.xlt with queue := s.xlt.queue.drop take.length } }

/-- Held faults in the places of the records gone; the overflow flag clears when none is left held. -/
def refillQueue (s : State) : State :=
  let v := writeHeld (s.xlt.heldOrder.length + 1) s
  if v.xlt.heldOrder = [] then { v with xlt := { v.xlt with overflow := false } } else v

/-- FAULT_FETCH copies the records into its long reply, then drops and refills. -/
theorem faultFetch_body (k : Nat) (s : State) : (faultFetchDef.body k).run s =
    (let take := fetchedRecords s k
     let l := longReply s k (take.flatMap (fun q => q.bytes))
     let u := dropRecords l.2 take
     .ok { result := BitVec.ofNat 64
             (take.length + 2 ^ 16 * u.xlt.queue.length + 2 ^ 32 * min u.xlt.heldOrder.length 0xFFFF + 2 ^ 63 * bit s.xlt.overflow)
           longWritten := l.1.1, trunc := l.1.2 } (refillQueue u)) := by
  simp only [refillQueue, ← List.isEmpty_iff]
  rfl

/-! ### FAULT_RESOLVE (R254) -/

/-- The state in which a FAULT_RESOLVE has invalidated its range, where it has one. -/
def rangeInvalidated (s : State) (p : SlotWord) : State :=
  if param p 8 32 = 0 then s else invalidate s (paramBit p 0xE 0) (param p 0xC 8) (param p 0 52) (param p 8 32 * 2 ^ 25)

theorem faultResolve_body (k : Nat) (s : State) : (faultResolveDef.body k).run s =
    .error (.park .inProgress) (rangeInvalidated s (slotAt s k)) := rfl

/-- A command that may run, and whose body has it wait, waits in the stage that the body names. -/
theorem runBody_parks {d : OpDef} {k : Nat} {s t : State} {st : Stage} (now : runsNow k s = true)
    (ran : (d.body k).run s = .error (.park st) t) : runBody d k s = updCmd t k (fun c => { c with stage := st }) := by
  simp only [runsNow, Bool.and_eq_true, Option.any_eq_true, Bool.not_eq_true'] at now
  obtain ⟨⟨c, known, free⟩, -⟩ := now
  simp only [runBody, known, free, Bool.false_eq_true, if_false, ran]

/-- A row whose command runs at its handover, and whose body has it wait. -/
theorem exec_bodyParks {i : Instr} {h : Handed} {k : Nat} {s t : State} {st : Stage} (row : handed i = some h) (may : mayRun h k s = true)
    (unplaced : (opDef h.op).placed = false) (ran : ((opDef h.op).body k).run (working h k s) = .error (.park st) t) :
    exec i s = .next (settle (updCmd t k (fun c => { c with stage := st }))) := by
  obtain ⟨-, now⟩ := Bool.and_eq_true_iff.1 may
  rw [exec_mayRun row may unplaced, runBody_parks now ran]

section
variable {s : State} {k : Nat} {c : Cmd} (known : cmdOf s k = some c)
include known

/-- Nothing is left to apply once every answer has been applied. -/
theorem applyAnswers_done {p : SlotWord} (done : param p 0xD 8 ≤ c.round) (fuel : Nat) : applyAnswers k p fuel s = s := by
  cases fuel with
  | zero => rfl
  | succ fuel => simp only [applyAnswers, known, Option.elim_some, ge_iff_le, done, if_true]

/-- A FAULT_RESOLVE completes with the answers that it has applied and those that were stale. -/
theorem settleResolve_done (done : param (slotAt s k) 0xD 8 ≤ c.round)
    (ended : ∀ e ∈ s.xlt.miss, ∀ m, e.2 = some m → m.retryFor ≠ some k) :
    settleResolve s k = completeCmd s k { result := BitVec.ofNat 64 (c.applied + 2 ^ 16 * c.stale) } := by
  have noWalk : s.xlt.miss.any (fun e => e.2.any (fun m => decide (m.retryFor = some k))) = false := by
    simpa only [List.any_eq_false, Option.any_eq_true, decide_eq_true_eq, not_exists, not_and] using ended
  simp only [settleResolve, applyAnswers_done known done, known, noWalk, ge_iff_le, done, decide_true, Bool.not_false, Bool.and_self,
    if_true]

end

/-- Settles O44: what a walk finds decides what its requests meet; FAULT_FETCH ends with its records copied, FAULT_RESOLVE waits until its
answers are applied and its walks have ended. -/
theorem walksEnd : Obligations.WalksEnd := by
  refine ⟨fun die entry s m w rest => ?_, fun port slot hdr h k s => ?_⟩
  · intro d n r u here served walks waiting
    rw [exec_walkEnd, execWalkEnd, walkEnd_walks here served walks waiting]
    rfl
  · intro a p may
    refine ⟨fun row => ?_, fun row => ?_, fun t c known done ended => settleResolve_done known done ended⟩
    · obtain rfl := Option.some.inj row
      exact exec_bodyEnds row may rfl (faultFetch_body k a)
    · obtain rfl := Option.some.inj row
      exact exec_bodyParks row may rfl (faultResolve_body k a)

end Sys2Proof.Proofs
end

section
/-! The operations of an update program on a unit's lane: which words R263 takes, what an operation writes, and the value of SEL, where no
NaN keeps its payload (R25, R262). -/
namespace Sys2Proof.Proofs

open Sys2Proof.Machine

/-! ### The word of an operation (R261, R263) -/

theorem toNat_append_eq {n m : Nat} (x : BitVec n) (y : BitVec m) : (x ++ y).toNat = x.toNat * 2 ^ m + y.toNat := by
  rw [BitVec.toNat_append, ← Nat.shiftLeft_add_eq_or_of_lt y.isLt, Nat.shiftLeft_eq]

section
variable (op rd ra rb rc : BitVec 5)

theorem updWord_toNat : (updWord op rd ra rb rc).toNat =
    ((((op.toNat * 32 + rd.toNat) * 32 + ra.toNat) * 32 + rb.toNat) * 32 + rc.toNat) * 128 := by
  refine (toNat_append_eq (op ++ rd ++ ra ++ rb ++ rc) 0#7).trans ?_
  rw [toNat_append_eq (op ++ rd ++ ra ++ rb), toNat_append_eq (op ++ rd ++ ra), toNat_append_eq (op ++ rd), toNat_append_eq op]
  rfl

/-- A field of an operation's word is the word's number divided and cut. -/
theorem updWord_field (lo n : Nat) : ((updWord op rd ra rb rc).extractLsb' lo n).toNat =
    ((((op.toNat * 32 + rd.toNat) * 32 + ra.toNat) * 32 + rb.toNat) * 32 + rc.toNat) * 128 / 2 ^ lo % 2 ^ n := by
  rw [BitVec.extractLsb'_toNat, updWord_toNat, Nat.shiftRight_eq_div_pow]

@[simp] theorem updOp_updWord : updOp (updWord op rd ra rb rc) = op.toNat := by
  rw [updOp, updWord_field]
  omega

@[simp] theorem updRd_updWord : updRd (updWord op rd ra rb rc) = rd.toNat := by
  rw [updRd, updWord_field]
  omega

@[simp] theorem updRa_updWord : updRa (updWord op rd ra rb rc) = ra.toNat := by
  rw [updRa, updWord_field]
  omega

@[simp] theorem updRb_updWord : updRb (updWord op rd ra rb rc) = rb.toNat := by
  rw [updRb, updWord_field]
  omega

@[simp] theorem updRc_updWord : updRc (updWord op rd ra rb rc) = rc.toNat := by
  rw [updRc, updWord_field]
  omega

@[simp] theorem updWord_spare : (updWord op rd ra rb rc).extractLsb' 0 7 = 0#7 :=
  BitVec.extractLsb'_append_eq_right (a := op ++ rd ++ ra ++ rb ++ rc)

end

/-- The registers that R260 lets an operation write are those of a well-formed command. -/
theorem updWritable_eq (r : Nat) : updWritable r = (decide (1 ≤ r ∧ r ≤ 3) || decide (16 ≤ r ∧ r ≤ 23)) := by
  rw [Bool.eq_iff_iff]
  simp only [updWritable, Bool.or_eq_true, beq_iff_eq, decide_eq_true_eq]
  omega

/-- R263 takes an operation of R262 exactly when its registers are those of a well-formed command. -/
theorem updOpCheck_updWord {op : BitVec 5} (known : 1 ≤ op.toNat ∧ op.toNat ≤ 9) (rd ra rb rc : BitVec 5) :
    (updOpCheck (updWord op rd ra rb rc)).isSome = !updOperands (updHasB op.toNat) (updHasC op.toNat) rd ra rb rc := by
  have named : ¬ (op.toNat < 1 ∨ op.toNat > 9) := by omega
  have source (used : Bool) (r : BitVec 5) : (if used then decide (r.toNat < 24) else r.toNat == 0) = updSource used r := by
    cases used with
    | true => rfl
    | false => exact Bool.eq_iff_iff.2 (by simp [updSource, BitVec.toNat_eq])
  simp only [updOpCheck, updOp_updWord, updRd_updWord, updRa_updWord, updRb_updWord, updRc_updWord, updWord_spare, named, if_false,
    updWritable_eq, source, ne_eq, not_true_eq_false, updOperands]
  grind

/-! ### Operations on a lane (R262, R263) -/

/-- An operation of R262 writes its value where its registers are those of a well-formed command, and changes nothing elsewhere. -/
theorem unitOp_eq (s : State) (stack : Nat) {op : Nat} (known : 1 ≤ op ∧ op ≤ 9) (rd ra rb rc : BitVec 5) :
    unitOp s stack op rd.toNat ra.toNat rb.toNat rc.toNat =
      let u := unitAt s stack
      if updOperands (updHasB op) (updHasC op) rd ra rb rc then
        setUnit s stack { u with regs := tset 0 u.regs rd.toNat (laneOp (storedParam u.fmtP u.rem u.rand) op
          (laneGet u.regs ra.toNat) (laneGet u.regs rb.toNat) (laneGet u.regs rc.toNat)) }
      else s := by
  have code : (BitVec.ofNat 5 op).toNat = op := by rw [BitVec.toNat_ofNat]; omega
  have check := updOpCheck_updWord (op := BitVec.ofNat 5 op) (by rwa [code]) rd ra rb rc
  rw [code] at check
  simp only [unitOp, BitVec.ofNat_toNat, BitVec.setWidth_eq, check, laneStep, updOp_updWord, updRd_updWord, updRa_updWord, updRb_updWord,
    updRc_updWord, code, Bool.not_eq_true']
  cases updOperands (updHasB op) (updHasC op) rd ra rb rc <;> rfl

/-- SEL writes the source that it selects with a NaN in its one form (R25). -/
theorem exec_updSel_taken {stack rd ra rb rc : BitVec 5} {s : State} (taken : updOperands true true rd ra rb rc = true) :
    let u := unitAt s stack.toNat
    let v := if fPositive (laneGet u.regs ra.toNat) then laneGet u.regs rb.toNat else laneGet u.regs rc.toNat
    exec (.updSel stack rd ra rb rc) s =
      .next (setUnit s stack.toNat { u with regs := tset 0 u.regs rd.toNat (f32OfNum (f32Num v)) }) := by
  rw [exec_updSel, execUpdSel, unitOp_eq s stack.toNat (by decide) rd ra rb rc]
  exact congrArg Host.Outcome.next (if_pos taken)

/-! ### SEL of a NaN with a payload -/

/-- Unit 0 with 1.0 in register 7 and a NaN that carries a payload in register 8, the scalar S0 of an UPD_STEP, whose bits R270 leaves
free. -/
def payloadLane : State :=
  { State.reset with upd := { State.reset.upd with units := [(0, { UpdUnit.reset with regs := [(7, f32One), (8, 0x7FC00001#32)] })] } }

/-- `payloadLane` with a value written to register 16. -/
def payloadLaneWith (v : F32) : State :=
  setUnit payloadLane 0 { unitAt payloadLane 0 with regs := tset 0 (unitAt payloadLane 0).regs 16 v }

theorem exec_updSel_payloadLane : exec (.updSel 0 16 7 8 8) payloadLane = .next (payloadLaneWith f32NaN) := by
  have canonical : f32OfNum (f32Num (laneGet (unitAt payloadLane 0).regs 8)) = f32NaN := by decide +kernel
  rw [exec_updSel_taken (by decide), ite_self]
  exact congrArg (fun v => Host.Outcome.next (payloadLaneWith v)) canonical

/-- Refutes O48: where SEL selects a NaN with a payload, the operation writes the canonical NaN (R25), and the statement the payload too. -/
theorem not_updateUnits : ¬ Obligations.UpdateUnits := by
  rintro ⟨lane, -, -⟩
  obtain ⟨⟨-, -, -, -, -, -, -, sel, -⟩, -⟩ := lane 0 16 7 8 8 payloadLane
  have stated : exec (.updSel 0 16 7 8 8) payloadLane = .next (payloadLaneWith 0x7FC00001#32) :=
    sel ⟨⟨by decide, by decide⟩, by decide, by decide⟩
  rw [exec_updSel_payloadLane] at stated
  have read := congrArg (fun t => laneGet (unitAt t 0).regs 16) (Host.Outcome.next.inj stated)
  exact absurd read (by decide)

end Sys2Proof.Proofs
end

section
/-! Received kettle frames: which frame each row takes (R284, R286, R288, R292), and what the rows do with it. -/
namespace Sys2Proof.Proofs

open Sys2Proof.Machine Sys2Proof.Laws

/-! ### The kind of a received frame -/

/-- A frame has its 33 granules, and may have the lane layer's 34th (log 64). -/
def WholeFrame (f : List Granule) : Prop := f.length = 33 ∨ f.length = 34

/-- The frames that `frameKind` does not pass over are the whole ones. -/
theorem wholeFrame_iff {f : List Granule} : WholeFrame f ↔ ¬ (f.length ≠ 33 ∧ f.length ≠ 34) := by
  rw [WholeFrame]
  omega

/-- A port exchanges traffic: it is in ACTIVE or DRAIN (R288). -/
def Trafficking (p : KtlPort) : Prop := p.state = 4 ∨ p.state = 6

/-- A port with lane lock waits for an IDENT: it is in IDENT, or in RETRAIN after its lock (R288). -/
def AwaitsIdent (p : KtlPort) : Prop := p.state = 3 ∨ (p.state = 5 ∧ p.lanesLocked ≠ 0)

/-- A frame whose codewords and granules its port counts without taking it. -/
def Unheard (s : State) (k : Nat) (f : List Granule) : Prop :=
  WholeFrame f ∧
    ((AwaitsIdent (portAt s k) ∧ (frameBroken f = true ∨ (frameHead f).type ≠ 8)) ∨
      ((portAt s k).state = 0 ∧ (portAt s k).ackDetach = true ∧
        (frameBroken f = true ∨ ((frameHead f).type ≠ 0 ∧ ¬ ((frameHead f).type = 7 ∧ (frameHead f).addr % 256 = 0)))))

/-- A frame of a type that ends at a unit of a package: it is neither of the link itself nor reserved (R284). -/
def EndsAtUnit (f : List Granule) : Prop := (frameHead f).type < 10 ∧ (frameHead f).type ∉ [0, 7, 8]

/-- The frame that a port in traffic takes and delivers at this package: decodable, the next in order, for a unit here. -/
structure Delivered (s : State) (k : Nat) (f : List Granule) : Prop where
  whole : WholeFrame f
  traffic : Trafficking (portAt s k)
  sound : frameBroken f = false
  next : headSeq (frameTop f) = (portAt s k).rxSeq
  unit : EndsAtUnit f
  mine : (frameHead f).dst = ownPkg s

/-- The kinds of the frames that are not delivered. -/
def undelivered : List FrameKind := [.notHere, .unheard, .discard, .idle, .nak, .ident, .detach, .detachAck, .forward]

section
variable {s : State} {k : Nat} {f : List Granule}

theorem frameKind_traffic (whole : WholeFrame f) (traffic : Trafficking (portAt s k)) : frameKind s k f = trafficKind s k f :=
  (if_neg (wholeFrame_iff.1 whole)).trans (if_pos traffic)

/-- A frame that cannot be decoded, is of a reserved type, or has a seq and not the next one. -/
theorem trafficKind_discard
    (refused : frameBroken f = true ∨ 10 ≤ (frameHead f).type ∨ ((frameHead f).type = 7 ∧ 3 ≤ (frameHead f).addr % 256) ∨
      ((frameHead f).type ≠ 0 ∧ ¬ ((frameHead f).type = 7 ∧ (frameHead f).addr % 256 = 0) ∧
        headSeq (frameTop f) ≠ (portAt s k).rxSeq)) : trafficKind s k f = .discard := by
  rcases refused with broken | reserved | reserved | ⟨notIdle, notNak, late⟩
  · simp [trafficKind, broken]
  · simp [trafficKind, reserved]
  · simp [trafficKind, reserved]
  · simp [trafficKind, notIdle, notNak, late]

theorem trafficKind_idle (sound : frameBroken f = false) (typed : (frameHead f).type = 0) : trafficKind s k f = .idle := by
  simp [trafficKind, sound, typed]

theorem trafficKind_nak (sound : frameBroken f = false) (typed : (frameHead f).type = 7) (sub : (frameHead f).addr % 256 = 0) :
    trafficKind s k f = .nak := by
  simp [trafficKind, sound, typed, sub]

section
variable (sound : frameBroken f = false) (next : headSeq (frameTop f) = (portAt s k).rxSeq)
include sound next

theorem trafficKind_detach (typed : (frameHead f).type = 7) (sub : (frameHead f).addr % 256 = 1) : trafficKind s k f = .detach := by
  simp [trafficKind, sound, next, typed, sub]

theorem trafficKind_detachAck (typed : (frameHead f).type = 7) (sub : (frameHead f).addr % 256 = 2) :
    trafficKind s k f = .detachAck := by
  simp [trafficKind, sound, next, typed, sub]

/-- A frame for a unit goes on where it is another package's, and ends here where it is this one's. -/
theorem trafficKind_unit (unit : EndsAtUnit f) :
    trafficKind s k f = if (frameHead f).dst ≠ ownPkg s then .forward else endKind f := by
  obtain ⟨known, notLink⟩ := unit
  simp only [List.mem_cons, List.not_mem_nil, or_false, not_or] at notLink
  obtain ⟨notIdle, notLink, notIdent⟩ := notLink
  simp [trafficKind, sound, next, notIdle, notLink, notIdent, Nat.not_le.2 known]

end

theorem ite_undelivered {c : Prop} [Decidable c] {a b : FrameKind} (pos : a ∈ undelivered) (neg : ¬ c → b ∈ undelivered) :
    (if c then a else b) ∈ undelivered :=
  iteInduction (fun _ => pos) neg

/-- A frame in traffic that is not for a unit of this package, or not the next in order, is of an undelivered kind. -/
theorem trafficKind_undelivered (other : ¬ (frameBroken f = false ∧ headSeq (frameTop f) = (portAt s k).rxSeq ∧ EndsAtUnit f ∧
    (frameHead f).dst = ownPkg s)) : trafficKind s k f ∈ undelivered := by
  refine ite_undelivered (by decide) fun sound => ite_undelivered (by decide) fun known => ite_undelivered (by decide) fun notIdle =>
    ite_undelivered (by decide) fun _ => ite_undelivered (by decide) fun next => ite_undelivered
      (ite_undelivered (by decide) fun _ => by decide) fun notLink => ite_undelivered (by decide) fun notIdent =>
        ite_undelivered (by decide) fun mine => ?_
  have unit : EndsAtUnit f := ⟨by omega, by simp [notIdle, notLink, notIdent]⟩
  exact absurd ⟨Bool.eq_false_iff.2 sound, Decidable.of_not_not next, unit, Decidable.of_not_not mine⟩ other

/-- The kind of a frame that is delivered. -/
theorem frameKind_delivered (d : Delivered s k f) : frameKind s k f = endKind f := by
  rw [frameKind_traffic d.whole d.traffic, trafficKind_unit d.sound d.next d.unit, if_neg (not_not_intro d.mine)]

/-- Every other frame is of an undelivered kind. -/
theorem frameKind_undelivered (other : ¬ Delivered s k f) : frameKind s k f ∈ undelivered := by
  refine ite_undelivered (by decide) fun whole => iteInduction (motive := (· ∈ undelivered)) (fun traffic => ?_) fun _ =>
    ite_undelivered (ite_undelivered (by decide) fun _ => by decide) fun _ => ite_undelivered (ite_undelivered (by decide) fun _ =>
      ite_undelivered (by decide) fun _ => ite_undelivered (by decide) fun _ => by decide) fun _ => by decide
  exact trafficKind_undelivered fun ⟨sound, next, unit, mine⟩ =>
    other ⟨wholeFrame_iff.2 whole, traffic, sound, next, unit, mine⟩

end

/-! ### Frames that a port with lane lock does not take -/

theorem endKind_ne_unheard (f : List Granule) : endKind f ≠ .unheard := by
  unfold endKind
  split
  case h_6 => split <;> decide
  all_goals decide

theorem trafficKind_ne_unheard (s : State) (k : Nat) (f : List Granule) : trafficKind s k f ≠ .unheard := by
  have step {c : Prop} [Decidable c] {a b : FrameKind} (pos : a ≠ .unheard) (neg : b ≠ .unheard) :
      (if c then a else b) ≠ .unheard := by
    split
    · exact pos
    · exact neg
  exact step (by decide) <| step (by decide) <| step (by decide) <| step (by decide) <| step (by decide) <|
    step (step (by decide) (by decide)) <| step (by decide) <| step (by decide) (endKind_ne_unheard f)

section
variable {s : State} {k : Nat} {f : List Granule}

theorem frameKind_short (short : ¬ WholeFrame f) : frameKind s k f = .notHere :=
  if_pos (Decidable.of_not_not (mt wholeFrame_iff.2 short))

/-- A port that waits for an IDENT takes nothing else (R288). -/
theorem frameKind_awaiting (whole : WholeFrame f) (awaits : AwaitsIdent (portAt s k)) :
    frameKind s k f = if (frameHead f).type = 8 ∧ frameBroken f = false then .ident else .unheard := by
  have silent : ¬ ((portAt s k).state = 4 ∨ (portAt s k).state = 6) := by
    rw [AwaitsIdent] at awaits
    omega
  rw [show frameKind s k f = _ from (if_neg (wholeFrame_iff.1 whole)).trans ((if_neg silent).trans (if_pos awaits))]
  simp only [Bool.not_eq_true']

/-- A port in OFF takes the acknowledgements that its peer's DETACH waits for, and one in another state nothing (R288). -/
theorem frameKind_silent (whole : WholeFrame f) (silent : ¬ Trafficking (portAt s k)) (deaf : ¬ AwaitsIdent (portAt s k)) :
    frameKind s k f = if (portAt s k).state = 0 ∧ (portAt s k).ackDetach = true then
      (if frameBroken f = true then .unheard else if (frameHead f).type = 0 then .idle
        else if (frameHead f).type = 7 ∧ (frameHead f).addr % 256 = 0 then .nak else .unheard) else .notHere :=
  (if_neg (wholeFrame_iff.1 whole)).trans ((if_neg silent).trans (if_neg deaf))

theorem frameKind_awaiting_unheard_iff (whole : WholeFrame f) (awaits : AwaitsIdent (portAt s k)) :
    frameKind s k f = .unheard ↔ frameBroken f = true ∨ (frameHead f).type ≠ 8 := by
  rw [frameKind_awaiting whole awaits]
  by_cases taken : (frameHead f).type = 8 ∧ frameBroken f = false
  · rw [if_pos taken]
    obtain ⟨typed, sound⟩ := taken
    exact iff_of_false (by decide) fun refused => refused.elim (Bool.eq_false_iff.1 sound) (· typed)
  · rw [if_neg taken]
    refine iff_of_true rfl ?_
    by_cases typed : (frameHead f).type = 8
    · exact .inl (eq_true_of_ne_false fun sound => taken ⟨typed, sound⟩)
    · exact .inr typed

/-- A port in OFF that owes a DETACH_ACK counts the frames that bring it no acknowledgement; in another state it counts none. -/
theorem frameKind_silent_unheard_iff (whole : WholeFrame f) (silent : ¬ Trafficking (portAt s k)) (deaf : ¬ AwaitsIdent (portAt s k)) :
    frameKind s k f = .unheard ↔ (portAt s k).state = 0 ∧ (portAt s k).ackDetach = true ∧
      (frameBroken f = true ∨ ((frameHead f).type ≠ 0 ∧ ¬ ((frameHead f).type = 7 ∧ (frameHead f).addr % 256 = 0))) := by
  rw [frameKind_silent whole silent deaf]
  by_cases off : (portAt s k).state = 0 ∧ (portAt s k).ackDetach = true
  · rw [if_pos off, ← and_assoc, and_iff_right off]
    by_cases broken : frameBroken f = true
    · rw [if_pos broken]
      exact iff_of_true rfl (.inl broken)
    · rw [if_neg broken, or_iff_right broken]
      by_cases idle : (frameHead f).type = 0
      · rw [if_pos idle]
        exact iff_of_false (by decide) fun other => other.1 idle
      · rw [if_neg idle, and_iff_right idle]
        by_cases nak : (frameHead f).type = 7 ∧ (frameHead f).addr % 256 = 0
        · rw [if_pos nak]
          exact iff_of_false (by decide) fun other => other nak
        · rw [if_neg nak]
          exact iff_of_true rfl nak
  · rw [if_neg off]
    exact iff_of_false (by decide) fun refused => off ⟨refused.1, refused.2.1⟩

theorem frameKind_unheard_iff : frameKind s k f = .unheard ↔ Unheard s k f := by
  by_cases whole : WholeFrame f
  · by_cases awaits : AwaitsIdent (portAt s k)
    · have on : (portAt s k).state ≠ 0 := by
        rw [AwaitsIdent] at awaits
        omega
      rw [frameKind_awaiting_unheard_iff whole awaits]
      simp only [Unheard, whole, awaits, on, true_and, false_and, or_false]
    · by_cases traffic : Trafficking (portAt s k)
      · have on : (portAt s k).state ≠ 0 := by
          rw [Trafficking] at traffic
          omega
        rw [frameKind_traffic whole traffic]
        refine iff_of_false (trafficKind_ne_unheard s k f) ?_
        rintro ⟨-, ⟨awaiting, -⟩ | ⟨off, -⟩⟩
        · exact awaits awaiting
        · exact on off
      · rw [frameKind_silent_unheard_iff whole traffic awaits]
        simp only [Unheard, whole, awaits, true_and, false_and, false_or]
  · rw [frameKind_short whole]
    exact iff_of_false (by decide) fun unheard => whole unheard.1

end

/-! ### Frames delivered at this package -/

/-- The type of a CTRL frame's message (R386). -/
def ctrlType (f : List Granule) : Nat := ((frameWord f 1).1.extractLsb' 112 16).toNat

/-- The kind of frame, the type and the CTRL message of each row of a delivered frame. -/
def deliveredRows : List (FrameKind × Nat × List Nat) :=
  [(.dataWin, 1, []), (.dataRing, 2, []), (.credit, 3, []), (.done, 4, []), (.refuse, 5, []), (.echo, 6, [1]), (.echoReply, 6, [2]),
    (.clock, 6, [3]), (.topo, 9, [])]

section
variable {s : State} {k : Nat} {f : List Granule} {kind : FrameKind} {type : Nat} {message : List Nat}

theorem deliveredRows_kind (row : (kind, type, message) ∈ deliveredRows) : kind ∉ undelivered :=
  (by decide : ∀ e ∈ deliveredRows, e.1 ∉ undelivered) _ row

theorem deliveredRows_type (row : (kind, type, message) ∈ deliveredRows) : type < 10 ∧ type ∉ [0, 7, 8] :=
  (by decide : ∀ e ∈ deliveredRows, e.2.1 < 10 ∧ e.2.1 ∉ [0, 7, 8]) _ row

/-- A frame of a row's type and message is of the row's kind. -/
theorem endKind_of_row (row : (kind, type, message) ∈ deliveredRows) (typed : (frameHead f).type = type)
    (said : ∀ m ∈ message, ctrlType f = m) : endKind f = kind := by
  simp only [deliveredRows, List.mem_cons, Prod.mk.injEq, List.not_mem_nil, or_false] at row
  rcases row with ⟨rfl, rfl, rfl⟩ | ⟨rfl, rfl, rfl⟩ | ⟨rfl, rfl, rfl⟩ | ⟨rfl, rfl, rfl⟩ | ⟨rfl, rfl, rfl⟩ | ⟨rfl, rfl, rfl⟩ |
    ⟨rfl, rfl, rfl⟩ | ⟨rfl, rfl, rfl⟩ | ⟨rfl, rfl, rfl⟩ <;>
    simp_all [endKind, ctrlType]

/-- A frame of a row's kind that ends at a unit is of the row's type and message. -/
theorem row_of_endKind (unit : EndsAtUnit f) (row : (endKind f, type, message) ∈ deliveredRows) :
    (frameHead f).type = type ∧ ∀ m ∈ message, ctrlType f = m := by
  obtain ⟨known, notLink⟩ := unit
  simp only [List.mem_cons, List.not_mem_nil, or_false] at notLink
  unfold endKind at row
  split at row
  case h_6 typed =>
    split at row <;> simp_all [deliveredRows, ctrlType]
  case h_7 not1 not2 not3 not4 not5 not6 =>
    obtain ⟨rfl, rfl⟩ : type = 9 ∧ message = [] := by simpa [deliveredRows] using row
    simp only [imp_false] at not1 not2 not3 not4 not5 not6
    exact ⟨by omega, by simp⟩
  all_goals simp_all [deliveredRows]

/-- A row's frame is one that is delivered, and is of the row's type and message. -/
theorem frameKind_row_iff (row : (kind, type, message) ∈ deliveredRows) : frameKind s k f = kind ↔
    WholeFrame f ∧ Trafficking (portAt s k) ∧ frameBroken f = false ∧ (frameHead f).dst = ownPkg s ∧
      headSeq (frameTop f) = (portAt s k).rxSeq ∧ (frameHead f).type = type ∧ ∀ m ∈ message, ctrlType f = m := by
  constructor
  · rintro rfl
    have d : Delivered s k f := Classical.byContradiction fun other => deliveredRows_kind row (frameKind_undelivered other)
    obtain ⟨typed, said⟩ := row_of_endKind d.unit (frameKind_delivered d ▸ row)
    exact ⟨d.whole, d.traffic, d.sound, d.mine, d.next, typed, said⟩
  · rintro ⟨whole, traffic, sound, mine, next, typed, said⟩
    have unit : EndsAtUnit f := by
      rw [EndsAtUnit, typed]
      exact deliveredRows_type row
    have d : Delivered s k f := ⟨whole, traffic, sound, next, unit, mine⟩
    rw [frameKind_delivered d, endKind_of_row row typed said]

theorem onKind_taken {act : State → State} (taken : frameKind s k f = kind) : onKind kind k f s act = .next (sendIdles (act s)) := by
  rw [onKind, if_pos taken]

/-- A row leaves the frames of other kinds alone, but counts those that no row takes. -/
theorem onKind_other {act : State → State} (other : frameKind s k f ≠ kind) :
    onKind kind k f s act = .next (if frameKind s k f = .unheard then noteCorrections s k f else s) := by
  rw [onKind, if_neg other]

/-- A row of a delivered frame: the frame is taken, then held for a unit that is down or carried out (R286, R292). -/
theorem onKind_deliver (row : (kind, type, message) ∈ deliveredRows) {carried : State}
    (carries : endKind f = kind → carryFrame (linkTakeOwn s k f true) k f = carried) :
    let p := portAt s k
    let t := linkTakeOwn s k f true
    let mine := WholeFrame f ∧ Trafficking p ∧ frameBroken f = false ∧ (frameHead f).dst = ownPkg s ∧
      headSeq (frameTop f) = p.rxSeq ∧ (frameHead f).type = type ∧ ∀ m ∈ message, ctrlType f = m
    (mine → onKind kind k f s (fun s => deliverFrame s k f) =
      .next (sendIdles (if (type = 1 ∨ type = 2) ∧ mustHold t f = true then holdFrame t k f else carried))) ∧
    (¬ mine → ¬ Unheard s k f → onKind kind k f s (fun s => deliverFrame s k f) = .next s) ∧
    (Unheard s k f → onKind kind k f s (fun s => deliverFrame s k f) = .next (noteCorrections s k f)) := by
  intro p t mine
  refine ⟨fun here => ?_, fun away heard => ?_, fun unheard => ?_⟩
  · have taken := (frameKind_row_iff row).2 here
    obtain ⟨-, -, -, -, -, typed, said⟩ := here
    rw [onKind_taken taken, ← carries (endKind_of_row row typed said), ← typed]
    rfl
  · rw [onKind_other (mt (frameKind_row_iff row).1 away), if_neg (mt frameKind_unheard_iff.1 heard)]
  · have uncarried : kind ≠ .unheard := fun same => deliveredRows_kind row (same ▸ by decide)
    have counted := frameKind_unheard_iff.2 unheard
    rw [onKind_other (counted ▸ uncarried.symm), if_pos counted]

end

/-- Settles O58: each row acts on the delivered frames of its type and message (`frameKind_row_iff`), and on an unheard frame as every
row does. -/
theorem kettleFramesAreCarried : Obligations.KettleFramesAreCarried := by
  intro port f s i type message row
  simp only [List.mem_cons, Prod.mk.injEq, List.not_mem_nil, or_false] at row
  rcases row with ⟨rfl, rfl, rfl⟩ | ⟨rfl, rfl, rfl⟩ | ⟨rfl, rfl, rfl⟩ | ⟨rfl, rfl, rfl⟩ | ⟨rfl, rfl, rfl⟩ | ⟨rfl, rfl, rfl⟩ |
    ⟨rfl, rfl, rfl⟩ | ⟨rfl, rfl, rfl⟩ | ⟨rfl, rfl, rfl⟩ <;>
    exact onKind_deliver (by decide) fun ended => by simp only [carryFrame, ended]

/-! ### Frames of the link level (R286, R288, R292) -/

/-- A frame that cannot be taken is answered by a NAK (R286). -/
theorem exec_ktlReservedFrame_discard {port : BitVec 2} {f : List Granule} {s : State}
    (refused : frameKind s port.toNat f = .discard) :
    exec (.ktlReservedFrame port f) s = .next (sendNak (noteCorrections s port.toNat f) port.toNat) := by
  simp only [exec_ktlReservedFrame, execKtlReservedFrame, refused]

theorem exec_ktlReservedFrame_otherCtrl {port : BitVec 2} {f : List Granule} {s : State}
    (other : frameKind s port.toNat f = .otherCtrl) :
    exec (.ktlReservedFrame port f) s = .next (sendIdles (linkTakeOwn s port.toNat f true)) := by
  simp only [exec_ktlReservedFrame, execKtlReservedFrame, other]

/-- A CTRL message of a type that no row has (R386). -/
theorem endKind_otherCtrl {f : List Granule} (typed : (frameHead f).type = 6) (unknown : ctrlType f ∉ [1, 2, 3]) :
    endKind f = .otherCtrl := by
  simp only [List.mem_cons, List.not_mem_nil, or_false, not_or, ctrlType] at unknown
  obtain ⟨notEcho, notReply, notClock⟩ := unknown
  simp only [endKind, typed]

/-- An IDENT at a port that waits for one: it brings its ack, and the port's state decides what it does (R288). -/
theorem exec_ident_awaiting {port : BitVec 2} {f : List Granule} {s : State} (whole : WholeFrame f)
    (awaits : AwaitsIdent (portAt s port.toNat)) (sound : frameBroken f = false) (typed : (frameHead f).type = 8) :
    let k := port.toNat
    let w := (frameWord f 1).1
    let t := noteIdent (linkTakeOwn s k f false) k w
    let u := setPort t k { portAt t k with rxSeq := (headSeq (frameTop f) + 1) % 4096 }
    exec (.ident port f) s = .next (sendIdles (
      if (portAt s k).state = 3 then
        if identAgrees u k w = true then moveState u k 4 none else linkRecord (moveState u k 7 none) k 0x10
      else if identAgrees t k w = true then backToActive t k else t)) := by
  have taken : frameKind s port.toNat f = .ident := by rw [frameKind_awaiting whole awaits, if_pos ⟨typed, sound⟩]
  rw [AwaitsIdent] at awaits
  have early : ((portAt s port.toNat).state == 4 || (portAt s port.toNat).state == 6) = false := by
    simp only [Bool.or_eq_false_iff, beq_eq_false_iff_ne]
    omega
  have retrains (other : (portAt s port.toNat).state ≠ 3) : (portAt s port.toNat).state = 5 := by omega
  intro k w t u
  rw [exec_ident, execIdent, onKind_taken taken]
  dsimp only
  rw [early]
  refine congrArg (fun x => Host.Outcome.next (sendIdles x)) (ite_congr rfl (fun _ => rfl) fun other => ?_)
  simp only [retrains other, true_and]
  rfl

/-- A frame passed on goes by its route, one hop further, and ends here at the fifteenth (R284, R292). -/
theorem exec_ktlForward_away {port : BitVec 2} {f : List Granule} {s : State} (away : frameKind s port.toNat f = .forward) :
    let k := port.toNat
    let h := frameHead f
    let r := forwardPort (linkTake s k f true) h
    exec (.ktlForward port f) s = .next (sendIdles (
      match r.1 with
      | none => r.2
      | some out =>
        if 15 ≤ h.hops + 1 then bumpKtl r.2 out 0x70 1
        else enqueue r.2 out [⟨buildFrame { h with hops := h.hops + 1 } 0 0 ((List.range 32).map (fun i => frameWord f (i + 1))),
          some (k, headSeq (frameTop f)), none⟩])) := by
  rw [exec_ktlForward, execKtlForward, onKind_taken away]
  refine congrArg (fun x => Host.Outcome.next (sendIdles x)) ?_
  dsimp only
  rcases forwardPort (linkTake s port.toNat f true) (frameHead f) with ⟨_ | out, t⟩ <;> rfl

/-- Settles O59: the kind that a frame in traffic has by its type and seq, and an IDENT at a port that waits for one. -/
theorem kettleLinkFramesAct : Obligations.KettleLinkFramesAct := by
  intro port f s k p h sub here inOrder
  have kinds (reaches : here) : frameKind s k f = trafficKind s k f := frameKind_traffic reaches.1 reaches.2
  refine ⟨fun reaches sound typed => ?_, fun reaches sound typed nak => ?_, fun reaches refused => ?_,
    fun reaches sound next typed mine unknown => ?_, fun reaches sound next typed ack => ?_,
    fun reaches sound next typed leave => ?_, exec_ident_awaiting, fun reaches sound next known other away => ?_⟩
  · rw [exec_ktlIdle, execKtlIdle, onKind_taken ((kinds reaches).trans (trafficKind_idle sound typed))]
  · rw [exec_ktlNak, execKtlNak, onKind_taken ((kinds reaches).trans (trafficKind_nak sound typed nak))]
  · exact exec_ktlReservedFrame_discard ((kinds reaches).trans (trafficKind_discard refused))
  · have unit : EndsAtUnit f := ⟨typed ▸ by decide, typed ▸ by decide⟩
    refine exec_ktlReservedFrame_otherCtrl ((kinds reaches).trans ?_)
    rw [trafficKind_unit sound next unit, if_neg (not_not_intro mine), endKind_otherCtrl typed unknown]
  · rw [exec_detachAck, execDetachAck, onKind_taken ((kinds reaches).trans (trafficKind_detachAck sound next typed ack))]
  · rw [exec_detach, execDetach, onKind_taken ((kinds reaches).trans (trafficKind_detach sound next typed leave))]
  · exact exec_ktlForward_away ((kinds reaches).trans ((trafficKind_unit sound next ⟨known, other⟩).trans (if_pos away)))

end Sys2Proof.Proofs
end

section
/-! The states of the kettle ports: what the lane layer and timers do to them, the end of a ring command's wait, and the link commands
(R288, R293 to R295, R300, R302). -/
namespace Sys2Proof.Proofs

open Sys2Proof.Machine Sys2Proof.Laws Sys2Proof.Safety

/-! ### Rows that act under a condition, or from a time on -/

/-- A port has been in its state for a number of ticks. -/
def Lasted (s : State) (k ticks : Nat) : Prop := (portAt s k).changedAt + ticks ≤ s.now

section
variable {s t : State} {k ticks : Nat} {p : Prop} [Decidable p]

theorem row_acts (here : p) : Host.Outcome.next (φ := Fault) (ρ := Refusal) (if p then t else s) = .next t :=
  congrArg Host.Outcome.next (if_pos here)

theorem row_rests (away : ¬ p) : Host.Outcome.next (φ := Fault) (ρ := Refusal) (if p then t else s) = .next s :=
  congrArg Host.Outcome.next (if_neg away)

theorem since_iff : since s k ticks = true ↔ Lasted s k ticks := decide_eq_true_iff

theorem timer_acts (here : p) (due : Lasted s k ticks) :
    Host.Outcome.next (φ := Fault) (ρ := Refusal) (if p ∧ since s k ticks = true then t else s) = .next t :=
  row_acts ⟨here, since_iff.2 due⟩

theorem timer_rests (idle : ¬ p ∨ ¬ Lasted s k ticks) :
    Host.Outcome.next (φ := Fault) (ρ := Refusal) (if p ∧ since s k ticks = true then t else s) = .next s :=
  row_rests fun ⟨here, due⟩ => idle.elim (· here) (· (since_iff.1 due))

end

/-! ### The lane layer -/

section
variable {port : BitVec 2} {s : State}

/-- A port's lock noted: the width it gives, and its lanes. -/
def noteLock (p : KtlPort) (w : Nat) (lanes inverted : BitVec 16) (reversed : Bool) : KtlPort :=
  { p with width := w, lanesLocked := lanes, lanesInverted := inverted, reversed := reversed }

section
variable {lanes inverted : BitVec 16} {reversed : Bool}

/-- Locked lanes that give no width, or a port that does not train, leave it as it is (R281, R288). -/
theorem exec_laneLock_idle (idle : lockWidth (portAt s port.toNat) lanes = 0 ∨
    ((portAt s port.toNat).state ≠ 2 ∧ (portAt s port.toNat).state ≠ 5)) : exec (.laneLock port lanes inverted reversed) s = .next s := by
  rw [exec_laneLock, execLaneLock]
  rcases idle with unlocked | ⟨notTrain, notRetrain⟩
  · exact row_acts unlocked
  · simp only [notTrain, notRetrain, if_false, ite_self]

variable (locked : lockWidth (portAt s port.toNat) lanes ≠ 0)
include locked

theorem exec_laneLock_train (train : (portAt s port.toNat).state = 2) :
    let k := port.toNat
    let t := clearLink (moveState s k 3 none) k
    exec (.laneLock port lanes inverted reversed) s =
      .next (sendIdent (setPort t k (noteLock (portAt t k) (lockWidth (portAt s k) lanes) lanes inverted reversed)) k) := by
  rw [exec_laneLock, execLaneLock]
  exact congrArg Host.Outcome.next ((if_neg locked).trans (if_pos train))

theorem exec_laneLock_retrain (retrain : (portAt s port.toNat).state = 5) :
    let k := port.toNat
    exec (.laneLock port lanes inverted reversed) s =
      .next (sendIdent (setPort s k (noteLock (portAt s k) (lockWidth (portAt s k) lanes) lanes inverted reversed)) k) := by
  have notTrain : (portAt s port.toNat).state ≠ 2 := by omega
  rw [exec_laneLock, execLaneLock]
  exact congrArg Host.Outcome.next ((if_neg locked).trans ((if_neg notTrain).trans (if_pos retrain)))

end

/-! ### Timers of a port -/

theorem exec_trainTimeout_due (train : (portAt s port.toNat).state = 2) (due : Lasted s port.toNat (ticksCeil 50000000)) :
    let k := port.toNat
    let p := portAt s k
    let t := setPort s k { p with trainFails := min (p.trainFails + 1) 255 }
    exec (.trainTimeout port) s =
      .next (if 2 ≤ p.trainFails then linkRecord (moveState t k 8 none) k 0x11 else moveState t k 1 none) := by
  have third : ((portAt s port.toNat).trainFails + 1 ≥ 3) = (2 ≤ (portAt s port.toNat).trainFails) := by
    rw [ge_iff_le, Nat.succ_le_succ_iff]
  rw [exec_trainTimeout, execTrainTimeout, timer_acts train due]
  simp only [third]

theorem exec_retrainHoldExpiry_idle (idle : (portAt s port.toNat).state ≠ 5 ∨ (portAt s port.toNat).routed = false ∨
    ¬ Lasted s port.toNat (retrainHold s port.toNat)) : exec (.retrainHoldExpiry port) s = .next s := by
  rw [exec_retrainHoldExpiry, execRetrainHoldExpiry]
  refine row_rests ?_
  rintro ⟨retrains, routed, due⟩
  rcases idle with other | out | early
  · exact other retrains
  · exact Bool.false_ne_true (out.symm.trans routed)
  · exact early (since_iff.1 due)

theorem replayFailed_iff (p : KtlPort) : replayFailed p = true ↔ ∃ e ∈ p.failedReplays, 8 < e.2 := by
  simp only [replayFailed, List.any_eq_true, decide_eq_true_eq, gt_iff_lt]

end

/-! ### The end of a ring command's wait (R300) -/

/-- The least of the times in a list that are not above one of them. -/
theorem foldl_min_eq {α : Type} (g : α → Nat) {t : Nat} (ws : List α) (m : Nat) (least : t ≤ m ∧ ∀ w ∈ ws, t ≤ g w)
    (reached : m = t ∨ ∃ w ∈ ws, g w = t) : ws.foldl (fun m x => min m (g x)) m = t := by
  induction ws generalizing m with
  | nil => simpa using reached
  | cons w ws ih =>
    obtain ⟨below, here, rest⟩ : t ≤ m ∧ t ≤ g w ∧ ∀ w ∈ ws, t ≤ g w := by simpa using least
    refine ih (min m (g w)) ⟨by omega, rest⟩ ?_
    rcases reached with rfl | ⟨x, member, rfl⟩
    · exact .inl (by omega)
    · rcases List.mem_cons.1 member with rfl | member
      · exact .inl (by omega)
      · exact .inr ⟨x, member, rfl⟩

/-- A command waits since the least of the times of its waits. -/
theorem waitingSince_least {c : Cmd} {t : Nat} (reached : ∃ w ∈ c.ringWaits, w.2 = t) (least : ∀ w ∈ c.ringWaits, t ≤ w.2) :
    waitingSince c = some t := by
  unfold waitingSince
  split
  · next none => simp [none] at reached
  · next w ws waits =>
    rw [waits] at reached least
    simp only [List.mem_cons, exists_eq_or_imp, forall_eq_or_imp] at reached least
    exact congrArg some (foldl_min_eq Prod.snd ws w.2 least reached)

theorem exec_e2eTimeout_waits {slot : BitVec 6} {s : State} {c : Cmd} {t : Nat} (known : cmdOf s slot.toNat = some c)
    (waits : waitingSince c = some t) : exec (.e2eTimeout slot) s =
      .next (if t + ticksCeil (cmdVal s c 0x700C 0) ≤ s.now then abortCmd (bumpKtl s (waitPort s c) 0x58 1) c.key 0x21 else s) := by
  simp only [exec_e2eTimeout, execE2eTimeout, known, waits, ge_iff_le]

theorem exec_e2eTimeout_idle {slot : BitVec 6} {s : State} (idle : ∀ c, cmdOf s slot.toNat = some c → c.ringWaits = []) :
    exec (.e2eTimeout slot) s = .next s := by
  rw [exec_e2eTimeout, execE2eTimeout]
  cases known : cmdOf s slot.toNat with
  | none => rfl
  | some c => simp only [waitingSince, idle c known]

/-! ### Link commands (R293 to R295) -/

/-- LINK_STATUS copies the records of its ports, and clears their change bits where it acknowledges (R295). -/
theorem linkStatus_body (k : Nat) (s : State) :
    let p := slotAt s k
    let l := longReply s k ((maskPorts p).flatMap (linkRecordBytes s))
    (linkStatusDef.body k).run s = .ok
      { result := BitVec.ofNat 64 ((List.range 4).foldl (fun b i => b + portStat (portAt s i) % 256 * 2 ^ (8 * i)) 0)
        longWritten := l.1.1, trunc := l.1.2 }
      (if paramBit p 1 0 then (maskPorts p).foldl (fun s i => setPort s i { portAt s i with changed := false }) l.2 else l.2) := by
  simp only [linkStatusDef]
  rw [run_get_bind]
  cases paramBit (slotAt s k) 1 0 <;> rfl

/-- A port as LINK_ATTACH leaves it for its training: its fence lifted, and what it expects of its peer (R293). -/
def prepareAttach (s : State) (n : Nat) (p : SlotWord) : State :=
  let b : State := { s with ras := { s.ras with
    fenced := s.ras.fenced.filter (fun x => x ≠ 0xC010 + n), history := tset [] s.ras.history (0xC010 + n) [] } }
  setPort b n { portAt b n with
    expectPkg := param p 1 8, expectPort := param p 2 8, width8 := paramBit p 3 0, ackDetach := false, trainFails := 0, lost := 0 }

theorem linkAttach_body (k : Nat) (s : State) :
    let n := param (slotAt s k) 0 8
    (linkAttachDef.body k).run s =
      .ok { result := 1 } (clearLink (moveState (prepareAttach s n (slotAt s k)) n 1 none) n) := rfl

/-- The frames of a port that its detachment answers as never acknowledged (R294). -/
def lostFrames (p : KtlPort) : Nat := p.lost + p.replayBuf.length

section
variable {k : Nat} {s : State}

/-- LINK_DETACH of an OFF port does nothing. -/
theorem linkDetach_body_off (off : (portAt s (param (slotAt s k) 0 8)).state = 0) : (linkDetachDef.body k).run s = .ok {} s := by
  simp only [linkDetachDef]
  rw [run_get_bind]
  simp only [off, if_true]
  rfl

/-- With FORCE, a port in ACTIVE or RETRAIN goes OFF, and its frames are answered lost. -/
theorem linkDetach_body_force (force : paramBit (slotAt s k) 1 0 = true)
    (linked : (portAt s (param (slotAt s k) 0 8)).state = 4 ∨ (portAt s (param (slotAt s k) 0 8)).state = 5) :
    let n := param (slotAt s k) 0 8
    (linkDetachDef.body k).run s = .ok { result := BitVec.ofNat 64 (lostFrames (portAt s n)) } (goOff s n (some 6)) := by
  have on : (portAt s (param (slotAt s k) 0 8)).state ≠ 0 := by omega
  simp only [linkDetachDef]
  rw [run_get_bind]
  simp only [on, force, linked, true_and, if_false, if_true]
  rfl

/-- Without FORCE, a port in ACTIVE drains, and the command waits for it. -/
theorem linkDetach_body_drain (gentle : paramBit (slotAt s k) 1 0 = false)
    (active : (portAt s (param (slotAt s k) 0 8)).state = 4) :
    let n := param (slotAt s k) 0 8
    let port := portAt s n
    (linkDetachDef.body k).run s =
      .error (.park .inProgress) (startDrain (setPort s n { port with detaching := port.detaching ++ [k] }) n) := by
  have on : (portAt s (param (slotAt s k) 0 8)).state ≠ 0 := by omega
  simp only [linkDetachDef]
  rw [run_get_bind]
  simp only [gentle, active, Bool.false_eq_true, false_and, if_false, if_true]
  rfl

/-- Before ACTIVE, a port goes OFF with or without FORCE. -/
theorem linkDetach_body_unlinked (on : (portAt s (param (slotAt s k) 0 8)).state ≠ 0)
    (notActive : (portAt s (param (slotAt s k) 0 8)).state ≠ 4) (notRetrain : (portAt s (param (slotAt s k) 0 8)).state ≠ 5)
    (notDrain : (portAt s (param (slotAt s k) 0 8)).state ≠ 6) :
    let n := param (slotAt s k) 0 8
    (linkDetachDef.body k).run s = .ok { result := BitVec.ofNat 64 (lostFrames (portAt s n)) } (goOff s n none) := by
  simp only [linkDetachDef]
  rw [run_get_bind]
  simp only [on, notActive, notRetrain, notDrain, or_self, and_false, if_false]
  rfl

end

/-- Settles O60: the bodies of the link commands by the state of their port, each row of the lane layer and of a timer by the state and the
time that it acts at (`row_acts`, `timer_acts`) and the others (`row_rests`, `timer_rests`), and the longest of a ring command's waits. -/
theorem kettlePortsChangeState : Obligations.KettlePortsChangeState := by
  refine ⟨fun name slot hdr h k s => ?_, fun port lanes inverted reversed s => ?_⟩
  · intro a p n port may
    refine ⟨fun row => ?_, fun row => ?_, fun row => ?_⟩
    · obtain rfl := Option.some.inj row
      exact exec_bodyEnds row may rfl (linkStatus_body k a)
    · obtain rfl := Option.some.inj row
      exact exec_bodyEnds row may rfl (linkAttach_body k a)
    · obtain rfl := Option.some.inj row
      exact ⟨fun off => exec_bodyEnds row may rfl (linkDetach_body_off off),
        fun force linked => exec_bodyEnds row may rfl (linkDetach_body_force force linked),
        fun gentle active => exec_bodyParks row may rfl (linkDetach_body_drain gentle active),
        fun on notActive notRetrain notDrain => exec_bodyEnds row may rfl (linkDetach_body_unlinked on notActive notRetrain notDrain)⟩
  · intro k p after
    refine ⟨fun detect signal => row_acts ⟨detect, signal⟩,
      fun idle => row_rests fun ⟨detect, signal⟩ => idle.elim (· detect) (Nat.not_lt.2 signal),
      exec_laneLock_train, fun unlocked => exec_laneLock_idle (.inl unlocked), exec_laneLock_retrain,
      fun notTrain notRetrain => exec_laneLock_idle (.inr ⟨notTrain, notRetrain⟩),
      fun awaits due => row_acts ⟨awaits, due⟩,
      fun early => row_rests fun ⟨_, due⟩ => Nat.not_lt.2 due early,
      exec_trainTimeout_due,
      fun early => timer_rests (.inr early), fun early => timer_rests (.inr early),
      fun early => timer_rests (.inr early), fun early => timer_rests (.inr early),
      fun waits due => timer_acts waits due,
      fun active => row_acts active,
      fun active failed => row_acts ⟨active, (replayFailed_iff p).2 failed⟩,
      fun retrains due => timer_acts retrains due,
      fun drains due => timer_acts drains due,
      fun retrains routed due => row_acts ⟨retrains, routed, since_iff.2 due⟩,
      fun other => timer_rests (.inl other), fun other => timer_rests (.inl other),
      fun other => ⟨row_rests other, row_rests fun both => other both.1⟩,
      fun other => ⟨timer_rests (.inl other), exec_retrainHoldExpiry_idle (.inl other)⟩,
      fun idle => exec_retrainHoldExpiry_idle (.inr idle),
      fun other => timer_rests (.inl other),
      fun slot idle => exec_e2eTimeout_idle idle, fun slot c t known reached least => ⟨fun due => ?_, fun early => ?_⟩⟩
    · rw [exec_e2eTimeout_waits known (waitingSince_least reached least), if_pos due]
    · rw [exec_e2eTimeout_waits known (waitingSince_least reached least), if_neg (Nat.not_le.2 early)]

end Sys2Proof.Proofs
end

section
/-! The 144/128 code: a changed symbol adds a multiple of its column to the syndrome; the columns lie on a quadric, on which no sum of
multiples of two is a multiple of a third (R405 to R407). -/
namespace Sys2Proof.Proofs

open Sys2Proof.Machine Sys2Proof.Laws Sys2Proof.Safety

/-! ### Products in GF(16) -/

theorem gfMul_comm : ∀ a < 16, ∀ b < 16, gfMul a b = gfMul b a := by decide +kernel

theorem gfMul_assoc : ∀ a < 16, ∀ b < 16, ∀ c < 16, gfMul (gfMul a b) c = gfMul a (gfMul b c) := by decide +kernel

theorem gfMul_xor_right : ∀ a < 16, ∀ b < 16, ∀ c < 16, gfMul a (b ^^^ c) = gfMul a b ^^^ gfMul a c := by decide +kernel

theorem gfMul_xor_left {a b c : Nat} (ha : a < 16) (hb : b < 16) (hc : c < 16) : gfMul (a ^^^ b) c = gfMul a c ^^^ gfMul b c := by
  rw [gfMul_comm _ (xor_lt_16 ha hb) _ hc, gfMul_xor_right _ hc _ ha _ hb, gfMul_comm _ hc _ ha, gfMul_comm _ hc _ hb]

theorem gfMul_left_comm {a b c : Nat} (ha : a < 16) (hb : b < 16) (hc : c < 16) : gfMul a (gfMul b c) = gfMul b (gfMul a c) := by
  rw [← gfMul_assoc a ha b hb c hc, gfMul_comm a ha b hb, gfMul_assoc b hb a ha c hc]

theorem gfMul_zero_left : ∀ a < 16, gfMul 0 a = 0 := by decide

theorem gfMul_ne_zero : ∀ a < 16, ∀ b < 16, 0 < a → b ≠ 0 → gfMul a b ≠ 0 := by decide +kernel

/-! ### The quadric of the columns -/

/-- The bilinear form x₀y₃ + x₁y₁ + x₁y₂ + 8·x₂y₂; on a column of data it is the last entry plus the a² + ab + 8b² that R405 puts there. -/
def colForm (x y : GfVec) : Nat :=
  gfMul x.1 y.2.2.2 ^^^ gfMul x.2.1 y.2.1 ^^^ gfMul x.2.1 y.2.2.1 ^^^ gfMul 8 (gfMul x.2.2.1 y.2.2.1)

theorem colForm_lt {x : GfVec} (hx : GfBounded x) (y : GfVec) : colForm x y < 16 := by
  obtain ⟨x0, x1, x2, x3⟩ := hx
  exact xor_lt_16 (xor_lt_16 (xor_lt_16 (gfMul_lt x0 _) (gfMul_lt x1 _)) (gfMul_lt x1 _)) (gfMul_lt (by decide) _)

section
variable {x y z : GfVec} (hx : GfBounded x) (hy : GfBounded y) (hz : GfBounded z)
include hx hy

theorem colForm_scale_left {e : Nat} (he : e < 16) : colForm (gfScale e x) y = gfMul e (colForm x y) := by
  obtain ⟨x0, x1, x2, x3⟩ := hx
  obtain ⟨y0, y1, y2, y3⟩ := hy
  have h8 : 8 < 16 := by decide
  simp only [colForm, gfScale]
  rw [gfMul_assoc e he _ x0 _ y3, gfMul_assoc e he _ x1 _ y1, gfMul_assoc e he _ x1 _ y2, gfMul_assoc e he _ x2 _ y2,
    gfMul_left_comm h8 he (gfMul_lt x2 _),
    gfMul_xor_right e he _ (xor_lt_16 (xor_lt_16 (gfMul_lt x0 _) (gfMul_lt x1 _)) (gfMul_lt x1 _)) _ (gfMul_lt h8 _),
    gfMul_xor_right e he _ (xor_lt_16 (gfMul_lt x0 _) (gfMul_lt x1 _)) _ (gfMul_lt x1 _),
    gfMul_xor_right e he _ (gfMul_lt x0 _) _ (gfMul_lt x1 _)]

theorem colForm_scale_right {e : Nat} (he : e < 16) : colForm x (gfScale e y) = gfMul e (colForm x y) := by
  rw [← colForm_scale_left hx hy he]
  obtain ⟨x0, x1, x2, x3⟩ := hx
  obtain ⟨y0, y1, y2, y3⟩ := hy
  simp only [colForm, gfScale]
  rw [gfMul_assoc e he _ x0 _ y3, gfMul_assoc e he _ x1 _ y1, gfMul_assoc e he _ x1 _ y2, gfMul_assoc e he _ x2 _ y2,
    gfMul_left_comm x0 he y3, gfMul_left_comm x1 he y1, gfMul_left_comm x1 he y2, gfMul_left_comm x2 he y2]

include hz

theorem colForm_add_left : colForm (gfAdd x y) z = colForm x z ^^^ colForm y z := by
  obtain ⟨x0, x1, x2, x3⟩ := hx
  obtain ⟨y0, y1, y2, y3⟩ := hy
  obtain ⟨z0, z1, z2, z3⟩ := hz
  simp only [colForm, gfAdd]
  rw [gfMul_xor_left x0 y0 z3, gfMul_xor_left x1 y1 z1, gfMul_xor_left x1 y1 z2, gfMul_xor_left x2 y2 z2,
    gfMul_eight_xor _ (gfMul_lt x2 _) _ (gfMul_lt y2 _)]
  ac_rfl

theorem colForm_add_right : colForm x (gfAdd y z) = colForm x y ^^^ colForm x z := by
  obtain ⟨x0, x1, x2, x3⟩ := hx
  obtain ⟨y0, y1, y2, y3⟩ := hy
  obtain ⟨z0, z1, z2, z3⟩ := hz
  simp only [colForm, gfAdd]
  rw [gfMul_xor_right _ x0 _ y3 _ z3, gfMul_xor_right _ x1 _ y1 _ z1, gfMul_xor_right _ x1 _ y2 _ z2, gfMul_xor_right _ x2 _ y2 _ z2,
    gfMul_eight_xor _ (gfMul_lt x2 _) _ (gfMul_lt x2 _)]
  ac_rfl

end

theorem column_bounded : ∀ i < 36, GfBounded (column i) := by
  simp only [GfBounded]
  decide +kernel

/-- Every column lies on the quadric. -/
theorem colForm_column_self : ∀ i < 36, colForm (column i) (column i) = 0 := by decide +kernel

/-- The line through two columns is no tangent of the quadric. -/
theorem colForm_column_polar : ∀ i < 36, ∀ j < 36, i ≠ j → colForm (column i) (column j) ^^^ colForm (column j) (column i) ≠ 0 := by
  decide +kernel

/-- A multiple of a vector of the quadric lies on it. -/
theorem colForm_scale_self {e : Nat} {x : GfVec} (he : e < 16) (hx : GfBounded x) (on : colForm x x = 0) :
    colForm (gfScale e x) (gfScale e x) = 0 := by
  rw [colForm_scale_left hx (gfScale_bounded he x) he, colForm_scale_right hx hx he, on, gfMul_zero_right e he, gfMul_zero_right e he]

/-- No sum of multiples of two columns is a multiple of a column: any three columns are independent, so the code's distance is 4. -/
theorem column_sum_ne_scale {i j k e f g : Nat} (hi : i < 36) (hj : j < 36) (hk : k < 36) (ne : i ≠ j) (he : e < 16) (hf : f < 16)
    (hg : g < 16) (e0 : 0 < e) (f0 : 0 < f) :
    gfAdd (gfScale e (column i)) (gfScale f (column j)) ≠ gfScale g (column k) := by
  intro equal
  have bi := column_bounded i hi
  have bj := column_bounded j hj
  have be := gfScale_bounded he (column i)
  have bf := gfScale_bounded hf (column j)
  have polarBound := xor_lt_16 (colForm_lt bi (column j)) (colForm_lt bj (column i))
  have onQuadric : colForm (gfAdd (gfScale e (column i)) (gfScale f (column j))) (gfAdd (gfScale e (column i)) (gfScale f (column j))) =
      0 := by rw [equal, colForm_scale_self hg (column_bounded k hk) (colForm_column_self k hk)]
  have polar : gfMul e (gfMul f (colForm (column i) (column j) ^^^ colForm (column j) (column i))) = 0 := by
    rw [← onQuadric, colForm_add_left be bf (gfAdd_bounded be bf), colForm_add_right be be bf, colForm_add_right bf be bf,
      colForm_scale_self he bi (colForm_column_self i hi), colForm_scale_self hf bj (colForm_column_self j hj), Nat.zero_xor, Nat.xor_zero,
      colForm_scale_left bi bf he, colForm_scale_right bi bj hf, colForm_scale_left bj be hf, colForm_scale_right bj bi he,
      gfMul_left_comm hf he (colForm_lt bj _), gfMul_xor_right f hf _ (colForm_lt bi _) _ (colForm_lt bj _),
      gfMul_xor_right e he _ (gfMul_lt hf _) _ (gfMul_lt hf _)]
  exact gfMul_ne_zero e he _ (gfMul_lt hf _) e0 (gfMul_ne_zero f hf _ polarBound f0 (colForm_column_polar i hi j hj ne)) polar

/-! ### The decoder's decision (R407) -/

theorem gfScale_zero : ∀ i < 36, gfScale 0 (column i) = (0, 0, 0, 0) := by decide

/-- The multiple of a column that a syndrome can be (R407). -/
def leadOf (x : GfVec) : Nat := if x.1 ≠ 0 then x.1 else x.2.2.2

theorem decideSyndrome_eq {x : GfVec} (clean : x ≠ (0, 0, 0, 0)) (poison : x ≠ (0, 0, 1, 0)) :
    decideSyndrome x = ((List.range 36).find? (fun i => gfScale (leadOf x) (column i) == x)).elim .uncorrectable
      (fun i => .corrected i (leadOf x)) := by
  rw [decideSyndrome, if_neg clean, if_neg poison]
  simp only [leadOf]
  split <;> next found => rw [found]; rfl

/-- A multiple of a vector that leads with 1 leads with its factor. -/
theorem leadOf_multiple {e : Nat} {x : GfVec} (he : e < 16) (bounded : GfBounded x) (leads : x.1 = 1 ∨ x.1 = 0 ∧ x.2.2.2 = 1) :
    leadOf (gfScale e x) = e := by
  obtain ⟨-, -, -, x3⟩ := bounded
  simp only [leadOf, gfScale]
  rcases leads with one | ⟨none, one⟩
  · simp only [one, gfMul_one_right e he]
    split
    · rfl
    · next zero =>
      obtain rfl : e = 0 := not_not.1 zero
      exact gfMul_zero_left _ x3
  · simp only [none, one, gfMul_zero_right e he, gfMul_one_right e he, ne_eq, not_true, if_false]

theorem column_leads : ∀ i < 36, (column i).1 = 1 ∨ (column i).1 = 0 ∧ (column i).2.2.2 = 1 := by decide

theorem leadOf_scale {i e : Nat} (hi : i < 36) (he : e < 16) : leadOf (gfScale e (column i)) = e :=
  leadOf_multiple he (column_bounded i hi) (column_leads i hi)

theorem gfMul_cancel {e x y : Nat} (he : e < 16) (e0 : 0 < e) (hx : x < 16) (hy : y < 16) (equal : gfMul e x = gfMul e y) : x = y := by
  by_contra differ
  refine gfMul_ne_zero e he (x ^^^ y) (xor_lt_16 hx hy) e0 (fun zero => differ (Nat.xor_eq_zero_iff.1 zero)) ?_
  rw [gfMul_xor_right e he x hx y hy, equal, Nat.xor_self]

/-- Equal multiples of two columns are of one column: even their entries beside the third tell them apart. -/
theorem column_scale_inj {i k e : Nat} (hi : i < 36) (hk : k < 36) (he : e < 16) (e0 : 0 < e)
    (first : gfMul e (column i).1 = gfMul e (column k).1) (second : gfMul e (column i).2.1 = gfMul e (column k).2.1)
    (last : gfMul e (column i).2.2.2 = gfMul e (column k).2.2.2) : i = k := by
  have apart : ∀ i < 36, ∀ k < 36, (column i).1 = (column k).1 → (column i).2.1 = (column k).2.1 →
      (column i).2.2.2 = (column k).2.2.2 → i = k := by decide +kernel
  obtain ⟨i0, i1, -, i3⟩ := column_bounded i hi
  obtain ⟨k0, k1, -, k3⟩ := column_bounded k hk
  exact apart i hi k hk (gfMul_cancel he e0 i0 k0 first) (gfMul_cancel he e0 i1 k1 second) (gfMul_cancel he e0 i3 k3 last)

theorem decideSyndrome_scale {i e : Nat} (hi : i < 36) (he : e < 16) (e0 : 0 < e) :
    decideSyndrome (gfScale e (column i)) = .corrected i e := by
  have lead := leadOf_scale hi he
  have nonzero {x : GfVec} (leadZero : leadOf x = 0) : gfScale e (column i) ≠ x := by
    rintro rfl
    omega
  have found : (List.range 36).find? (fun j => gfScale e (column j) == gfScale e (column i)) = some i := by
    rw [List.find?_range_eq_some]
    refine ⟨beq_self_eq_true _, List.mem_range.2 hi, fun j before => ?_⟩
    rw [Bool.not_eq_true', beq_eq_false_iff_ne]
    intro same
    simp only [gfScale, Prod.mk.injEq] at same
    obtain ⟨first, second, -, last⟩ := same
    exact Nat.ne_of_lt before (column_scale_inj (by omega) hi he e0 first second last)
  rw [decideSyndrome_eq (nonzero rfl) (nonzero rfl), lead, found]
  rfl

theorem gfAdd_comm (x y : GfVec) : gfAdd x y = gfAdd y x := by
  simp only [gfAdd, Nat.xor_comm]

/-- The syndrome of poison added to a multiple of a column gives no multiple of a column. -/
theorem poison_add_ne_scale {i k e g : Nat} (hi : i < 36) (hk : k < 36) (he : e < 16) (hg : g < 16) (e0 : 0 < e) :
    gfAdd (0, 0, 1, 0) (gfScale e (column i)) ≠ gfScale g (column k) := by
  intro equal
  have lead : leadOf (gfAdd (0, 0, 1, 0) (gfScale e (column i))) = leadOf (gfScale e (column i)) := by
    simp only [leadOf, gfAdd, Nat.zero_xor]
  rw [equal, leadOf_scale hk hg, leadOf_scale hi he] at lead
  subst lead
  simp only [gfAdd, gfScale, Nat.zero_xor, Prod.mk.injEq] at equal
  obtain ⟨first, second, third, last⟩ := equal
  obtain rfl := column_scale_inj hi hk he e0 first second last
  have one := congrArg (· ^^^ gfMul g (column i).2.2.1) third
  simp only [Nat.xor_assoc, Nat.xor_self, Nat.xor_zero] at one
  exact absurd one (by decide)

/-- A syndrome that is neither 0, nor that of poison, nor a multiple of a column is not correctable. -/
theorem decideSyndrome_uncorrectable {x : GfVec} (bounded : GfBounded x) (clean : x ≠ (0, 0, 0, 0)) (poison : x ≠ (0, 0, 1, 0))
    (single : ∀ i e, i < 36 → 0 < e → e < 16 → x ≠ gfScale e (column i)) : decideSyndrome x = .uncorrectable := by
  obtain ⟨x0, -, -, x3⟩ := bounded
  have leadBound : leadOf x < 16 := by
    rw [leadOf]
    split <;> assumption
  have missed : (List.range 36).find? (fun i => gfScale (leadOf x) (column i) == x) = none := by
    rw [List.find?_eq_none]
    intro i hi found
    rw [List.mem_range] at hi
    rw [beq_iff_eq] at found
    rcases Nat.eq_zero_or_pos (leadOf x) with zero | positive
    · exact clean (found.symm.trans (zero ▸ gfScale_zero i hi))
    · exact single i _ hi positive leadBound found.symm
  rw [decideSyndrome_eq clean poison, missed]
  rfl

theorem decideSyndrome_poison_add {i e : Nat} (hi : i < 36) (he : e < 16) (e0 : 0 < e) :
    decideSyndrome (gfAdd (0, 0, 1, 0) (gfScale e (column i))) = .uncorrectable := by
  have noScale {k g : Nat} (hk : k < 36) (hg : g < 16) := poison_add_ne_scale hi hk he hg e0
  refine decideSyndrome_uncorrectable (gfAdd_bounded (by simp [GfBounded]) (gfScale_bounded he _))
    (noScale (k := 0) (g := 0) (by decide) (by decide)) (fun poison => ?_) (fun k g hk _ hg => noScale hk hg)
  have lead := leadOf_scale hi he
  rw [← gfAdd_self_left (0, 0, 1, 0) (gfScale e (column i)), poison] at lead
  exact Nat.ne_of_gt e0 lead.symm

/-- Two symbols in error are detected. -/
theorem decideSyndrome_two {i j e f : Nat} (hi : i < 36) (hj : j < 36) (ne : i ≠ j) (he : e < 16) (hf : f < 16) (e0 : 0 < e) (f0 : 0 < f) :
    decideSyndrome (gfAdd (gfScale e (column i)) (gfScale f (column j))) = .uncorrectable := by
  have noScale {k g : Nat} (hk : k < 36) (hg : g < 16) := column_sum_ne_scale hi hj hk ne he hf hg e0 f0
  refine decideSyndrome_uncorrectable (gfAdd_bounded (gfScale_bounded he _) (gfScale_bounded hf _)) (noScale (k := 0) (g := 0) (by decide)
    (by decide)) (fun poison => ?_) (fun k g hk _ hg => noScale hk hg)
  refine poison_add_ne_scale hi hj he hf e0 ?_
  rw [← poison, gfAdd_comm, gfAdd_self_left]

/-! ### A symbol changed -/

theorem testBit_symbol {e k : Nat} (he : e < 16) (hk : 4 ≤ k) : e.testBit k = false :=
  Nat.testBit_lt_two_pow (lt_of_lt_of_le he (Nat.pow_le_pow_right (n := 2) (by decide) hk))

/-- The mask of an error has its bits in its symbol. -/
theorem getLsbD_errorMask {e : Nat} (he : e < 16) (i k : Nat) (hk : k < 144) :
    (BitVec.ofNat 144 e <<< (4 * i)).getLsbD k = (decide (k / 4 = i) && e.testBit (k % 4)) := by
  simp only [BitVec.getLsbD_shiftLeft, BitVec.getLsbD_ofNat, hk, decide_true, Bool.true_and, show k - 4 * i < 144 by omega]
  rcases Nat.lt_trichotomy (k / 4) i with below | here | above
  · simp [show k < 4 * i by omega, show ¬ k / 4 = i by omega]
  · simp [show ¬ k < 4 * i by omega, here, show k - 4 * i = k % 4 by omega]
  · simp [show ¬ k / 4 = i by omega, testBit_symbol he (show 4 ≤ k - 4 * i by omega)]

theorem symbol_errorMask {i j e : Nat} (hj : j < 36) (he : e < 16) :
    symbol (BitVec.ofNat 144 e <<< (4 * i)) j = if j = i then e else 0 := by
  apply Nat.eq_of_testBit_eq
  intro k
  rw [symbol, BitVec.testBit_toNat, BitVec.getLsbD_extractLsb']
  by_cases low : k < 4
  · rw [getLsbD_errorMask he i _ (by omega)]
    by_cases here : j = i
    · simp [low, here, show (4 * i + k) / 4 = i by omega, Nat.mod_eq_of_lt low]
    · simp [low, here, show ¬ (4 * j + k) / 4 = i by omega]
  · have high : e.testBit k = false := testBit_symbol he (by omega)
    by_cases here : j = i <;> simp [low, here, high]

@[simp] theorem gfAdd_zero (x : GfVec) : gfAdd x (0, 0, 0, 0) = x := by
  simp only [gfAdd, Nat.xor_zero]

theorem gfScale_xor {e f : Nat} {x : GfVec} (he : e < 16) (hf : f < 16) (hx : GfBounded x) :
    gfScale (e ^^^ f) x = gfAdd (gfScale e x) (gfScale f x) := by
  obtain ⟨x0, x1, x2, x3⟩ := hx
  simp only [gfScale, gfAdd, gfMul_xor_left he hf x0, gfMul_xor_left he hf x1, gfMul_xor_left he hf x2, gfMul_xor_left he hf x3]

theorem gfAdd_add_add (a b c d : GfVec) : gfAdd (gfAdd a b) (gfAdd c d) = gfAdd (gfAdd a c) (gfAdd b d) := by
  simp only [gfAdd]
  ac_rfl

/-- The syndrome is linear. -/
theorem syndromeOver_xor (g h : Granule) {n : Nat} (hn : n ≤ 36) :
    syndromeOver (g ^^^ h) (List.range n) = gfAdd (syndromeOver g (List.range n)) (syndromeOver h (List.range n)) := by
  induction n with
  | zero => simp [syndromeOver]
  | succ n ih =>
    have symbols : symbol (g ^^^ h) n = symbol g n ^^^ symbol h n := by
      rw [symbol, BitVec.extractLsb'_xor, BitVec.toNat_xor]
      rfl
    simp only [List.range_succ, syndromeOver_concat, ih (by omega), symbols,
      gfScale_xor (symbol_lt g n) (symbol_lt h n) (column_bounded n (by omega)), gfAdd_add_add]

theorem syndromeOver_errorMask {i e n : Nat} (he : e < 16) (hn : n ≤ 36) :
    syndromeOver (BitVec.ofNat 144 e <<< (4 * i)) (List.range n) = if i < n then gfScale e (column i) else (0, 0, 0, 0) := by
  induction n with
  | zero => rfl
  | succ n ih =>
    rw [List.range_succ, syndromeOver_concat, ih (by omega), symbol_errorMask (by omega) he]
    rcases Nat.lt_trichotomy i n with below | rfl | above
    · rw [if_pos below, if_neg (Nat.ne_of_gt below), if_pos (by omega), gfScale_zero n (by omega), gfAdd_zero]
    · rw [if_neg (by omega), if_pos rfl, if_pos (by omega), gfAdd_comm, gfAdd_zero]
    · rw [if_neg (by omega), if_neg (by omega), if_neg (by omega), gfScale_zero n (by omega), gfAdd_zero]

/-- A changed symbol adds a multiple of its column to the syndrome. -/
theorem syndromeOver_correctSymbol (g : Granule) {i e : Nat} (hi : i < 36) (he : e < 16) :
    syndromeOver (correctSymbol g i e) (List.range 36) = gfAdd (syndromeOver g (List.range 36)) (gfScale e (column i)) := by
  rw [correctSymbol, syndromeOver_xor _ _ (by decide), syndromeOver_errorMask he (by decide), if_pos hi]

theorem correctSymbol_twice (g : Granule) (i e : Nat) : correctSymbol (correctSymbol g i e) i e = g := by
  rw [correctSymbol, correctSymbol, BitVec.xor_assoc, BitVec.xor_self, BitVec.xor_zero]

/-! ### What a granule delivers -/

theorem syndromeOver_codeword (w : Word128) : syndromeOver (encodeGranule w false) (List.range 36) = (0, 0, 0, 0) := by
  rw [encodeGranule, syndromeOver_granuleOf]
  rfl

theorem syndromeOver_poisoned (w : Word128) : syndromeOver (encodeGranule w true) (List.range 36) = (0, 0, 1, 0) := by
  rw [encodeGranule, syndromeOver_granuleOf]
  rfl

theorem deliverGranule_corrected {g : Granule} {i e : Nat} (found : decodeOutcome g = .corrected i e) :
    deliverGranule g = (granuleData (correctSymbol g i e), false) := by
  rw [deliverGranule, found]

theorem deliverGranule_encode (w : Word128) (p : Bool) : deliverGranule (encodeGranule w p) = (w, p) := by
  cases p with
  | false =>
    have clean : decodeOutcome (encodeGranule w false) = .clean := by rw [decodeOutcome, syndromeOver_codeword, decideSyndrome, if_pos rfl]
    rw [deliverGranule, clean, encodeGranule, granuleData_granuleOf]
  | true => exact deliverGranule_poison w

section
variable (w : Word128) {i j e f : Nat} (hi : i < 36) (hj : j < 36) (he : e < 16) (hf : f < 16) (e0 : 0 < e) (f0 : 0 < f)
include hi he e0

theorem decodeOutcome_oneError : decodeOutcome (correctSymbol (encodeGranule w false) i e) = .corrected i e := by
  rw [decodeOutcome, syndromeOver_correctSymbol _ hi he, syndromeOver_codeword, gfAdd_comm, gfAdd_zero, decideSyndrome_scale hi he e0]

theorem deliverGranule_oneError : deliverGranule (correctSymbol (encodeGranule w false) i e) = (w, false) := by
  rw [deliverGranule_corrected (decodeOutcome_oneError w hi he e0), correctSymbol_twice, encodeGranule, granuleData_granuleOf]

theorem decodeOutcome_poison_oneError : decodeOutcome (correctSymbol (encodeGranule w true) i e) = .uncorrectable := by
  rw [decodeOutcome, syndromeOver_correctSymbol _ hi he, syndromeOver_poisoned, decideSyndrome_poison_add hi he e0]

include hj hf f0

theorem decodeOutcome_twoErrors (ne : i ≠ j) :
    decodeOutcome (correctSymbol (correctSymbol (encodeGranule w false) i e) j f) = .uncorrectable := by
  rw [decodeOutcome, syndromeOver_correctSymbol _ hj hf, syndromeOver_correctSymbol _ hi he, syndromeOver_codeword,
    gfAdd_comm (0, 0, 0, 0), gfAdd_zero, decideSyndrome_two hi hj ne he hf e0 f0]

end

/-- Settles O34: the decoder goes by the syndrome, which one error makes a multiple of a column, and two, or one over poison, nothing that
is corrected. -/
theorem codeGuarantees : Obligations.CodeGuarantees := by
  refine ⟨fun g => ?_, fun w i j e f hi hj ne e0 he f0 hf => ?_, fun s who source memory place scrub => ⟨rfl, rfl⟩⟩
  · intro x
    refine ⟨fun clean => ?_, fun poison => ?_, fun i e hi e0 he single => ?_, fun clean poison single => ?_, fun bad => ?_⟩
    · rw [decodeOutcome, show syndromeOver g (List.range 36) = _ from clean]
      rfl
    · rw [decodeOutcome, show syndromeOver g (List.range 36) = _ from poison]
      rfl
    · have found : decodeOutcome g = .corrected i e := by
        rw [decodeOutcome, show syndromeOver g (List.range 36) = _ from single, decideSyndrome_scale hi he e0]
      exact ⟨found, deliverGranule_corrected found⟩
    · exact decideSyndrome_uncorrectable (syndromeOver_bounded g 36) clean poison single
    · rcases bad with bad | bad <;> rw [deliverGranule, bad]
  · exact ⟨deliverGranule_encode w false, deliverGranule_encode w true, decodeOutcome_oneError w hi he e0,
      deliverGranule_oneError w hi he e0, decodeOutcome_twoErrors w hi hj he hf e0 f0 ne, decodeOutcome_poison_oneError w hi he e0⟩

end Sys2Proof.Proofs
end

section
/-! Handovers that do not reach Kerur, packets that the checks of R319 reject or the device state makes wait, and the rows of commands that
the scheduler places (R307 to R311, R319, R322, R324). -/
namespace Sys2Proof.Proofs

open Sys2Proof.Machine Sys2Proof.Laws Sys2Proof.Safety

/-! ### Fields of a packet -/

theorem getLsbD_setBits (p : SlotWord) (o w v : Nat) {i : Nat} (hi : i < 2048) :
    (setBits p o w v).getLsbD i = if o ≤ i ∧ i < o + w then v.testBit (i - o) else p.getLsbD i := by
  simp only [setBits, BitVec.getLsbD_or, BitVec.getLsbD_and, BitVec.getLsbD_not, BitVec.getLsbD_ofNat, hi, decide_true, Bool.true_and,
    Nat.testBit_mul_two_pow, Nat.testBit_two_pow_sub_one, Nat.testBit_mod_two_pow]
  by_cases above : o ≤ i
  · by_cases below : i < o + w
    · simp [above, below, show i - o < w by omega]
    · simp [above, below, show ¬ i - o < w by omega]
  · simp [above]

/-- A row forces its form into the parameter area alone. -/
theorem form_cases {i : Instr} {h : Handed} (row : handed i = some h) : h.form = id ∨ ∃ o b w v, h.form = forceParam o b w v := by
  cases i <;> simp only [handed, Option.some.injEq, reduceCtorEq] at row <;> subst row <;> first | exact .inl rfl | exact .inr ⟨_, _, _, _, rfl⟩

/-- A packet handed over has OWN set (R310). -/
theorem packet_own {i : Instr} {h : Handed} (row : handed i = some h) (k : Nat) (s : State) : (packet h k s).getLsbD 63 = true := by
  have own (p : SlotWord) : (forceOpcode h.op (setBits p 63 1 1)).getLsbD 63 = true := by
    rw [forceOpcode, getLsbD_setBits _ _ _ _ (by decide), if_neg (by decide), getLsbD_setBits _ _ _ _ (by decide), if_pos (by decide)]
    rfl
  rcases form_cases row with plain | ⟨o, b, w, v, forced⟩
  · rw [packet, plain]
    exact own _
  · rw [packet, forced, forceParam, getLsbD_setBits _ _ _ _ (by decide), if_neg (by omega)]
    exact own _

/-- A written slot whose OWN bit is set reads back. -/
theorem slotAt_setSlot_owned (s : State) (k : Nat) {p : SlotWord} (own : p.getLsbD 63 = true) : slotAt (setSlot s k p) k = p := by
  have listed : p ≠ 0 := by
    rintro rfl
    simp at own
  exact (tget_tset_listed _ k k listed).trans (if_pos rfl)

theorem slotOwned_offered {i : Instr} {h : Handed} (row : handed i = some h) (k : Nat) (s : State) :
    slotOwned (offered h k s) k = true := by
  rw [slotOwned, offered, slotAt_setSlot_owned s k (packet_own row k s), packet_own row]

/-! ### Handovers that do not reach Kerur -/

/-- Settles O5. -/
theorem handoversThatDoNotReach : Obligations.HandoversThatDoNotReach := by
  refine ⟨fun i h k s row key unlocked owned => ?_, fun i h s row debug locked => ?_⟩
  · have reaches : ¬ (h.port = .debug ∧ s.host.debugUnlocked = false) := by
      rintro ⟨debug, locked⟩
      rw [unlocked debug] at locked
      exact Bool.noConfusion locked
    rw [exec_handed s row, handOpcode, handover, key]
    simp only [reaches, owned, if_false, if_true]
    rfl
  · rw [exec_handed s row, handOpcode, handover]
    cases slotKey h.port h.slot.toNat with
    | none => rfl
    | some k => simp only [debug, locked, and_self, if_true]

/-! ### Packets that arrive (R319, R322) -/

/-- A row that is offered goes where its packet's arrival takes it. -/
theorem exec_offered {i : Instr} {h : Handed} {k : Nat} {s : State} (row : handed i = some h) (may : mayOffer h k s = true) :
    exec i s = .next (settle (arrive (opDef h.op) k (offered h k s))) := by
  rw [exec_handed s row, handOpcode_offered may]

/-- A slot that waits to be taken, at the end of the queue (R322). -/
def enqueued (s : State) (k : Nat) : State := { s with host := { s.host with handovers := s.host.handovers ++ [k] } }

section
variable {d : OpDef} {k : Nat} {s : State}

theorem arrive_unanswered (silent : nothingAnswers s = true) : arrive d k s = enqueued s k := by
  simp only [arrive, silent, if_true]
  rfl

theorem arrive_early {r : Reject} (answers : nothingAnswers s = false) (first : queueReady s = false) (bad : earlyCheck s k = some r) :
    arrive d k s = rejectCmd s k r := by
  simp only [arrive, answers, first, bad, Bool.false_eq_true, if_false]

theorem reachesGate_elim (reaches : reachesGate k s = true) :
    nothingAnswers s = false ∧ queueReady s = false ∧ earlyCheck s k = none := by
  simpa only [reachesGate, Bool.and_eq_true, Bool.not_eq_true', Option.isNone_iff_eq_none, and_assoc] using reaches

/-- A packet past steps 1 and 2 goes where the device state sends it. -/
theorem arrive_reachesGate (reaches : reachesGate k s = true) : arrive d k s =
    match gate s.dev (slotBits (slotAt s k) 0 16) with
    | .busy => rejectCmd s k busyReject
    | .wait => enqueued s k
    | .accept => takeSlot d k s := by
  obtain ⟨answers, first, good⟩ := reachesGate_elim reaches
  simp only [arrive, answers, first, good, Bool.false_eq_true, if_false]
  rfl

/-- A packet that passes steps 1 to 5 meets its checks of steps 6 to 9. -/
theorem arrive_runCheck {op : Nat} (passes : Safety.passes op k s = true) :
    arrive (opDef op) k s = runCheck (opDef op) k (taken k s) := by
  simp only [Safety.passes, Bool.and_eq_true, Option.isNone_iff_eq_none, Bool.not_eq_true', beq_iff_eq] at passes
  obtain ⟨⟨⟨reaches, accepts⟩, late⟩, awake⟩ := passes
  have awake : mustWake (taken k s) k (slotBits (slotAt s k) 0 16) = false := awake
  simp only [arrive_reachesGate reaches, accepts, takeSlot, late]
  exact if_neg (fun wakes => Bool.false_ne_true (awake.symm.trans wakes))

end

@[simp] theorem rejectCmd_cmds (s : State) (k : Nat) (r : Reject) : (rejectCmd s k r).cmds = s.cmds.filter (fun c => c.key ≠ k) := by
  simp only [rejectCmd, writeReply]
  split <;> rfl

@[simp] theorem rejectCmd_admitted (s : State) (k : Nat) (r : Reject) : (rejectCmd s k r).host.admitted = s.host.admitted := by
  simp only [rejectCmd, writeReply]
  split <;> rfl

theorem runCheck_rejects {d : OpDef} {k : Nat} {s t : State} {r : Reject} (ran : (d.check k).run s = .error (.reject r) t)
    (undone : r.keep = false) : runCheck d k s = rejectCmd s k r := by
  simp only [runCheck, ran, undone, Bool.false_eq_true, if_false]

/-- Settles O6: an early check answers before the packet is taken, a later one on the state in which it was taken. -/
theorem checksRejectInOrder : Obligations.ChecksRejectInOrder := by
  refine ⟨fun i h k s r row may answers first bad => ⟨?_, rejectCmd_cmds _ k r, rejectCmd_admitted _ k r⟩,
    fun i h k s t r row may passes ran undone => ?_⟩
  · have answers : nothingAnswers (offered h k s) = false := answers
    rw [exec_offered row may, arrive_early answers first bad]
  · rw [exec_offered row may, arrive_runCheck passes, runCheck_rejects ran undone]

/-! ### The table of R322 -/

/-- The first slot of the queue that the state does not make wait, and accepts, is taken. -/
theorem admitWaiting_accepts {s : State} {l r : List Nat} {k : Nat} (answers : nothingAnswers s = false)
    (queue : s.host.handovers = l ++ k :: r) (before : ∀ b ∈ l, gate s.dev (slotBits (slotAt s b) 0 16) = .wait) (notBefore : k ∉ l)
    (notAfter : k ∉ r) (accepts : gate s.dev (slotBits (slotAt s k) 0 16) = .accept) (good : earlyCheck s k = none) :
    admitWaiting s = takeSlot (opDef (slotBits (slotAt s k) 0 16)) k { s with host := { s.host with handovers := l ++ r } } := by
  have first : firstReady s = some k := by
    rw [firstReady, queue, List.find?_append, List.find?_eq_none.2 (by simpa using before)]
    simp [accepts]
  have others : s.host.handovers.filter (fun x => x ≠ k) = l ++ r := by
    have kept {l : List Nat} (absent : k ∉ l) : l.filter (fun x => x ≠ k) = l :=
      List.filter_eq_self.2 (fun x member => decide_eq_true (fun same => absent (same ▸ member)))
    rw [queue, List.filter_append, List.filter_cons_of_neg (by simp), kept notBefore, kept notAfter]
  have good : earlyCheck { s with host := { s.host with handovers := l ++ r } } k = none := good
  have accepts : gate s.dev (slotBits (slotAt { s with host := { s.host with handovers := l ++ r } } k) 0 16) = .accept := accepts
  simp only [admitWaiting, answers, first, others, good, accepts, Bool.false_eq_true, if_false]
  rfl

theorem gate_table (op : Nat) :
    let ready := op ≠ 0x0701 ∧ op ≠ 0x0702
    let drain := [0x0A05, 0x0101, 0x0104, 0x0901, 0x0902, 0x0903, 0x0904, 0x0704, 0x0601, 0x0A03, 0x0A04, 0x0801, 0x0802]
    (gate .load op = .accept ↔ op ∈ [0x0A05, 0x0701, 0x0702, 0x0801]) ∧ gate .load op ≠ .wait ∧
    (gate .starting op = .accept ↔ op = 0x0A05) ∧ (gate .starting op = .wait ↔ ready ∧ op ≠ 0x0A05) ∧
    (gate .ready op = .accept ↔ ready) ∧ gate .ready op ≠ .wait ∧
    (gate .draining op = .accept ↔ op ∈ drain) ∧ (gate .draining op = .wait ↔ ready ∧ op ∉ drain) ∧
    gate .restarting op = .wait ∧
    (gate .orphaned op = .accept ↔ op ∈ [0x0A05, 0x0101, 0x0A04, 0x0801]) ∧ gate .orphaned op ≠ .wait ∧
    (gate .fwHalt op = .accept ↔ op ∈ [0x0A05, 0x0903, 0x0704]) ∧ gate .fwHalt op ≠ .wait := by
  intro ready drain
  have twoWay (c : Prop) [Decidable c] : ((if c then Gate.accept else .busy) = .accept ↔ c) ∧ (if c then Gate.accept else .busy) ≠ .wait := by
    by_cases h : c <;> simp [h]
  have threeWay (c : Prop) [Decidable c] : ((if c then Gate.accept else if decide ready then .wait else .busy) = .accept ↔ c) ∧
      ((if c then Gate.accept else if decide ready then .wait else .busy) = .wait ↔ ready ∧ ¬ c) := by
    by_cases h : c <;> by_cases g : ready <;> simp [h, g]
  obtain ⟨loadAccepts, loadWaits⟩ := twoWay (op ∈ [0x0A05, 0x0701, 0x0702, 0x0801])
  obtain ⟨startAccepts, startWaits⟩ := threeWay (op = 0x0A05)
  obtain ⟨readyAccepts, readyWaits⟩ := twoWay (decide ready = true)
  obtain ⟨drainAccepts, drainWaits⟩ := threeWay (op ∈ drain)
  obtain ⟨orphanAccepts, orphanWaits⟩ := twoWay (op ∈ [0x0A05, 0x0101, 0x0A04, 0x0801])
  obtain ⟨haltAccepts, haltWaits⟩ := twoWay (op ∈ [0x0A05, 0x0903, 0x0704])
  exact ⟨loadAccepts, loadWaits, startAccepts, startWaits, readyAccepts.trans decide_eq_true_iff, readyWaits, drainAccepts, drainWaits,
    rfl, orphanAccepts, orphanWaits, haltAccepts, haltWaits⟩

/-- Settles O7. -/
theorem deviceStatesAdmitOpcodes : Obligations.DeviceStatesAdmitOpcodes := by
  refine ⟨gate_table, fun i h k s row may => ?_, fun s l r k answers queue before notBefore notAfter accepts good => ?_⟩
  · intro t g
    refine ⟨fun reaches busy => ?_, fun waits => ⟨slotOwned_offered row k s, ?_⟩⟩
    · have busy : gate t.dev (slotBits (slotAt t k) 0 16) = .busy := busy
      rw [exec_offered row may, arrive_reachesGate reaches, busy]
      rfl
    · rcases waits with ⟨reaches, waits⟩ | silent
      · have waits : gate t.dev (slotBits (slotAt t k) 0 16) = .wait := waits
        rw [exec_offered row may, arrive_reachesGate reaches, waits]
        rfl
      · have silent : nothingAnswers t = true := silent
        rw [exec_offered row may, arrive_unanswered silent]
        rfl
  · rw [exec_waitingCommandAdmit, execWaitingCommandAdmit, admitWaiting_accepts answers queue before notBefore notAfter accepts good]

end Sys2Proof.Proofs
end

section
/-! Commands that are admitted: those that the scheduler places wait for it, with what admission notes of them; for the others, what the
terms of the statements say of one another (R307, R311, R319, R338). -/
namespace Sys2Proof.Proofs

open Sys2Proof.Machine Sys2Proof.Laws Sys2Proof.Safety

/-! ### Records of commands -/

/-- A change of a slot's command that keeps its slot is what is found there. -/
theorem cmdOf_updCmd (s : State) (k : Nat) (f : Cmd → Cmd) (keeps : ∀ c, (f c).key = c.key) :
    cmdOf (updCmd s k f) k = (cmdOf s k).map f := by
  have same : ((fun c => c.key == k) ∘ fun c => if c.key = k then f c else c) = fun c : Cmd => c.key == k := by
    funext c
    simp only [Function.comp]
    split
    · rw [keeps]
    · rfl
  simp only [cmdOf, updCmd, List.find?_map, same]
  refine Option.map_congr (fun c found => if_pos ?_)
  simpa using List.find?_some found

/-- A record in which an interim status is noted. -/
def noteInterim (s : State) (k : Nat) (c : Cmd) : Cmd :=
  { c with lastInterim := some s.now, lastStatus := BitVec.ofNat 32 (statusWord s (interimCode c) (slotSeq s k)) }

theorem cmdOf_interim (s : State) (k : Nat) : cmdOf (interim s k) k = (cmdOf s k).map (noteInterim s k) := by
  cases known : cmdOf s k with
  | none => simp only [interim, known, Option.map_none]
  | some c =>
    simp only [interim, known]
    rw [cmdOf_updCmd (keeps := fun _ => by rfl), show ∀ p, cmdOf (setSlot s k p) k = cmdOf s k from fun _ => rfl, known]
    rfl

@[simp] theorem interim_admitted (s : State) (k : Nat) : (interim s k).host.admitted = s.host.admitted := by
  simp only [interim]
  split <;> rfl

theorem advanceReclaim_frame (s : State) : ∃ g, advanceReclaim s = { s with pgk := g } := by
  simp only [advanceReclaim]
  split <;> exact ⟨_, rfl⟩

/-- A record that admission stamps. -/
def stampCmd (s : State) (cl : List ClampEntry) (c : Cmd) : Cmd :=
  { c with stage := .queued, clamps := cl, admittedAt := s.now, startEpoch := s.pgk.epoch }

/-- The state in which a command is stamped and counted, before its interim status is written. -/
def stamped (s : State) (k : Nat) (cl : List ClampEntry) : State :=
  { updCmd s k (stampCmd s cl) with host := { s.host with admitted := satCount s.host.admitted 1 } }

theorem admitted_eq (k : Nat) (cl : List ClampEntry) (s : State) : admitted k cl s = interim (stamped (advanceReclaim s) k cl) k := rfl

@[simp] theorem advanceReclaim_now (s : State) : (advanceReclaim s).now = s.now := by
  obtain ⟨g, advanced⟩ := advanceReclaim_frame s
  rw [advanced]

@[simp] theorem advanceReclaim_host (s : State) : (advanceReclaim s).host = s.host := by
  obtain ⟨g, advanced⟩ := advanceReclaim_frame s
  rw [advanced]

/-- What admission notes in a command's record. -/
theorem cmdOf_admitted (k : Nat) (cl : List ClampEntry) (s : State) {c : Cmd} (known : cmdOf (admitted k cl s) k = some c) :
    c.stage = .queued ∧ c.admittedAt = s.now ∧ c.clamps = cl ∧ c.lastInterim = some s.now := by
  have stamps : cmdOf (stamped (advanceReclaim s) k cl) k = (cmdOf (advanceReclaim s) k).map (stampCmd (advanceReclaim s) cl) :=
    cmdOf_updCmd _ _ _ (fun _ => rfl)
  rw [admitted_eq, cmdOf_interim, stamps, Option.map_map] at known
  obtain ⟨b, -, rfl⟩ := Option.map_eq_some_iff.1 known
  exact ⟨rfl, advanceReclaim_now s, rfl, congrArg some (advanceReclaim_now s)⟩

/-- Admission is counted. -/
theorem admitted_counted (k : Nat) (cl : List ClampEntry) (s : State) :
    (admitted k cl s).host.admitted = satCount s.host.admitted 1 := by
  rw [admitted_eq, interim_admitted]
  simp only [stamped, advanceReclaim_host]

/-! ### Commands that wait for their placement -/

theorem admitChecked_placed {d : OpDef} {k : Nat} {cl : List ClampEntry} {s : State} (placed : d.placed = true)
    (inTime : isLate (admitted k cl s) k = false) : admitChecked d k cl s = admitted k cl s := by
  simp only [admitted] at inTime
  simp only [admitChecked, admitted, inTime, placed, Bool.false_eq_true, if_false, if_true]

/-- Settles O9. -/
theorem placedCommandWaits : Obligations.PlacedCommandWaits := by
  intro port slot hdr i h k s rows row may
  simp only [mayQueue, Bool.and_eq_true, Bool.not_eq_true', Option.isSome_iff_exists] at may
  obtain ⟨⟨passes, c, known⟩, inTime⟩ := may
  obtain ⟨-, -, ⟨cl, u⟩, checks⟩ := passesAll_elim passes
  obtain ⟨execution, work⟩ := exec_passesAll row passes checks
  have placed : (opDef h.op).placed = true := by
    simp only [List.mem_cons, List.not_mem_nil, or_false] at rows
    rcases rows with rfl | rfl | rfl | rfl | rfl | rfl | rfl <;> cases row <;> rfl
  rw [work] at known inTime ⊢
  obtain ⟨queued, since, clamps, written⟩ := cmdOf_admitted k cl u known
  rw [execution, admitChecked_placed placed inTime]
  exact ⟨rfl, cl, u, c, checks, known, queued, since, clamps, written, admitted_counted k cl u⟩

/-! ### Accepted packets -/

section
variable {h : Handed} {k : Nat} {cl : List ClampEntry} {s : State} (accepts : accepted h k cl s)
include accepts

/-- A packet that is accepted passes its checks on the state in which it was taken. -/
theorem checked_accepted : checked h k s = some (cl, taken k (offered h k s)) := by
  obtain ⟨-, -, ran, -⟩ := accepts
  exact ends_of_run ran

theorem working_accepted : working h k s = atWork h k cl s := by
  rw [working, checked_accepted accepts]
  rfl

theorem mayRun_accepted : mayRun h k s = true := by
  have work := working_accepted accepts
  have checks := checked_accepted accepts
  obtain ⟨offer, passes, -, runs⟩ := accepts
  rw [mayRun, passesAll, offer, passes, checks, work, runs]
  rfl

/-- A row whose packet is accepted, and whose body ends, completes with the body's reply. -/
theorem exec_accepted {i : Instr} {t : State} {r : Reply} (row : handed i = some h) (unplaced : (opDef h.op).placed = false)
    (ran : ((opDef h.op).body k).run (atWork h k cl s) = .ok r t) : exec i s = .next (settle (completeCmd t k r)) :=
  exec_bodyEnds row (mayRun_accepted accepts) unplaced (by rw [working_accepted accepts]; exact ran)

end

/-- What a command's acceptance changes: the page keepers' epoch, its slot, its record, the counts of admission. -/
theorem atWork_frame (h : Handed) (k : Nat) (cl : List ClampEntry) (s : State) : ∃ g e c n,
    atWork h k cl s = { s with pgk := g, host := e, cmds := c, admitSeq := n } := by
  obtain ⟨g, advanced⟩ := advanceReclaim_frame (taken k (offered h k s))
  obtain ⟨e, c, written⟩ := interim_frame (stamped { taken k (offered h k s) with pgk := g } k cl) k
  exact ⟨g, e, c, s.admitSeq + 1, by rw [atWork, admitted_eq, advanced, written]; rfl⟩

end Sys2Proof.Proofs
end

section
/-! The bodies of NOP, LEASE_RENEW, LOG_READ, TRACE_CTL and the commands of sessions and the lease (R331, R333 to R337, R350 to R354, R382 to
R385). -/
namespace Sys2Proof.Proofs

open Sys2Proof.Machine Sys2Proof.Laws Sys2Proof.Safety

/-! ### NOP and LEASE_RENEW -/

@[simp] theorem atWork_now (h : Handed) (k : Nat) (cl : List ClampEntry) (s : State) : (atWork h k cl s).now = s.now := by
  obtain ⟨g, e, c, n, work⟩ := atWork_frame h k cl s
  rw [work]

@[simp] theorem atWork_lease (h : Handed) (k : Nat) (cl : List ClampEntry) (s : State) : (atWork h k cl s).lease = s.lease := by
  obtain ⟨g, e, c, n, work⟩ := atWork_frame h k cl s
  rw [work]

@[simp] theorem atWork_log (h : Handed) (k : Nat) (cl : List ClampEntry) (s : State) : (atWork h k cl s).log = s.log := by
  obtain ⟨g, e, c, n, work⟩ := atWork_frame h k cl s
  rw [work]

theorem nop_body (k : Nat) (s : State) : (nopDef.body k).run s = .ok { result := BitVec.ofNat 64 s.now } s := rfl

theorem leaseRenew_body (k : Nat) (s : State) :
    let t := releaseHost (rearmWake (renewLease s))
    (leaseRenewDef.body k).run s = .ok { result := BitVec.ofNat 64 t.lease.expiry } t := rfl

/-- Arming the wake for the next known event leaves the lease. -/
@[simp] theorem rearmWake_lease (s : State) : (rearmWake s).lease = s.lease := by
  rw [rearmWake]
  split <;> rfl

@[simp] theorem releaseHost_lease (s : State) : (releaseHost s).lease = s.lease := rfl

/-- Settles O11. -/
theorem nopAndLeaseRenewAnswer : Obligations.NopAndLeaseRenewAnswer := by
  refine ⟨fun port slot hdr h k cl s row accepts => ?_, fun port slot hdr h k cl s row accepts => ?_⟩
  · obtain rfl := Option.some.inj row
    have completes := exec_accepted accepts row rfl (nop_body k _)
    rwa [atWork_now] at completes
  · obtain rfl := Option.some.inj row
    intro t
    have lease : t.lease = (renewLease (atWork ⟨port, slot, hdr, 0x0A03, id⟩ k cl s)).lease := by simp only [t, releaseHost_lease, rearmWake_lease]
    refine ⟨exec_accepted accepts row rfl (leaseRenew_body k _), ?_⟩
    simp only [lease, renewLease, atWork_now, atWork_lease, and_self]

/-! ### LOG_READ and TRACE_CTL -/

theorem longAct_run (k : Nat) (bs : List Byte) (r : Reply) (s : State) :
    let l := longReply s k bs
    (longAct k bs r).run s = .ok { r with longWritten := l.1.1, trunc := r.trunc || l.1.2 } l.2 := rfl

theorem logStatus_body {k : Nat} {s : State} (status : paramBit (slotAt s k) 0xC 0 = true) :
    let l := longReply s k (fwStatusBlock s)
    (logReadDef.body k).run s = .ok { longWritten := l.1.1, trunc := l.1.2 } l.2 := by
  simp only [logReadDef]
  rw [run_get_bind]
  simp only [status, if_true]
  rfl

/-- The records that a LOG_READ copies. -/
def logRecords (s : State) (p : SlotWord) : List LogRecord :=
  (s.log.ring.filter (fun r => decide (param p 0 48 ≤ r.serial))).take (param p 8 32)

theorem logRead_body {k : Nat} {s : State} (records : paramBit (slotAt s k) 0xC 0 = false) :
    let p := slotAt s k
    let rs := logRecords s p
    let l := longReply s k (rs.flatMap logBytes)
    let nxt := (rs.getLast?.map (fun r => r.serial + 1)).getD (param p 0 48)
    let lost := s.log.ring.head?.any (fun r => decide (param p 0 48 < r.serial))
    (logReadDef.body k).run s = .ok
      { result := BitVec.ofNat 64 (nxt % 2 ^ 48 + (if lost then 2 ^ 63 else 0)), longWritten := l.1.1, trunc := l.1.2 } l.2 := by
  have next (o : Option LogRecord) (n : Nat) :
      (match o with | some r => r.serial + 1 | none => n) = (o.map (fun r => r.serial + 1)).getD n := by cases o <;> rfl
  simp only [logReadDef]
  rw [run_get_bind]
  simp only [records, Bool.false_eq_true, if_false]
  rw [longAct_run]
  simp only [Bool.false_or, ← next]
  rfl

/-- The IDs enabled after a TRACE_CTL. -/
def tracedAfter (on : BitVec 65536) (p : SlotWord) : BitVec 65536 :=
  let ranges := (List.range (param p 1 8)).map (fun j => (param p (8 + 4 * j) 32 % 65536, param p (8 + 4 * j) 32 / 65536))
  if param p 0 8 = 0 then ranges.foldl (fun t r => t ||| traceMask r.1 r.2) on
  else if param p 0 8 = 1 then ranges.foldl (fun t r => t &&& ~~~(traceMask r.1 r.2)) on
  else if param p 0 8 = 2 then 0 else on

theorem traceCtl_body (k : Nat) (s : State) :
    let on := tracedAfter s.log.traceOn (slotAt s k)
    (traceCtlDef.body k).run s = .ok { result := BitVec.ofNat 64 (traceCount on) } { s with log := { s.log with traceOn := on } } := by
  have byOp (n : Nat) (a b c d : BitVec 65536) : (match n with | 0 => a | 1 => b | 2 => c | _ => d) =
      if n = 0 then a else if n = 1 then b else if n = 2 then c else d := by
    rcases n with _ | _ | _ | n <;> rfl
  simp only [tracedAfter, ← byOp]
  rfl

/-- Settles O16. -/
theorem logAndTraceCommands : Obligations.LogAndTraceCommands := by
  refine ⟨fun port slot hdr h k cl s i rows row accepts => ?_, fun port slot hdr h k cl s i rows row accepts => ?_⟩
  · have op : h.op = 0x0704 := by rcases rows with rfl | rfl <;> cases row <;> rfl
    exact ⟨fun status => exec_accepted accepts row (by rw [op]; rfl) (by rw [op]; exact logStatus_body status),
      fun records => exec_accepted accepts row (by rw [op]; rfl) (by rw [op]; exact logRead_body records)⟩
  · simp only [List.mem_cons, List.not_mem_nil, or_false] at rows
    have op : h.op = 0x0705 := by rcases rows with rfl | rfl | rfl | rfl <;> cases row <;> rfl
    have ran := traceCtl_body k (atWork h k cl s)
    simp only [atWork_log] at ran ⊢
    exact exec_accepted accepts row (by rw [op]; rfl) (by rw [op]; exact ran)

/-! ### Sessions -/

section
variable {k : Nat} {s : State}

theorem sessionOpen_body {n : Nat} (opens : paramBit (slotAt s k) 0x12 2 = false)
    (free : (List.range 256).find? (fun j => (tget Session.reset s.sessions j).state == .free) = some n) :
    let p := slotAt s k
    let e : Session := ⟨.opened, (tget Session.reset s.sessions n).gen, param p 0x10 8, decide (param p 0x11 8 = 1),
      paramBit p 0x12 0, paramBit p 0x12 1, param p 0x14 8, s.now⟩
    (sessionOpenDef.body k).run s = .ok { result := BitVec.ofNat 64 (n + 256 * e.gen) } (setSession (notePeriods s p) n e) := by
  have free : (List.range 256).find? (fun j => (tget Session.reset (notePeriods s (slotAt s k)).sessions j).state == .free) = some n := free
  simp only [sessionOpenDef]
  rw [run_get_bind]
  simp only [opens, Bool.false_eq_true, if_false, free, Option.getD_some]
  rfl

theorem sessionAdopt_body (adopts : paramBit (slotAt s k) 0x12 2 = true) :
    let p := slotAt s k
    let id := param p 0x16 16
    let u := setSession (notePeriods s p) (id % 256) { tget Session.reset s.sessions (id % 256) with state := .opened }
    (sessionOpenDef.body k).run s = .ok { result := BitVec.ofNat 64 id }
      (releaseHost ((u.cmds.filter (fun c => cmdSession u c.key == id)).foldl (fun s c => missCheck s c.key) u)) := by
  simp only [sessionOpenDef]
  rw [run_get_bind]
  simp only [adopts, if_true]
  rfl

theorem sessionClose_body (k : Nat) (s : State) :
    let r := freeSession s (cmdSession s k % 256) k
    (sessionCloseDef.body k).run s = .ok { result := BitVec.ofNat 64 (r.1.1 % 65536 + 65536 * (r.1.2 % 65536)) } r.2 := rfl

/-- The state in which ATTACH has renewed the lease and made sessions ADOPTABLE (R352). -/
def attached (s : State) (p : SlotWord) : State :=
  let b := renewLease (notePeriods s p)
  { b with
    dev := if b.dev = .orphaned then .ready else b.dev
    lease := { b.lease with adoptBy := some (b.now + ticksCeil (clampWindow (param p 0x10 64)).1) }
    sessions := b.sessions.map (fun e =>
      (e.1, if e.2.state = .opened ∨ e.2.state = .orphaned then { e.2 with state := .adoptable } else e.2)) }

theorem attach_body (k : Nat) (s : State) :
    let p := slotAt s k
    let c := attached s p
    let d := requeueFaults c
    let all := orphanEntries d k
    let out := all.take ((hdrField p 0x18 32 - 64) / 32)
    let n := (d.sessions.filter (fun e => e.2.state == .adoptable)).length
    let l := longReply d k (orphanHeader d out.length (bit (s.lease.state == .orphaned)) (allPendings d).length
      ((allPendings c).filter (fun e => e.2.2.record == .fetched)).length ++ out.flatten)
    (attachDef.body k).run s = .ok
      { result := BitVec.ofNat 64 (out.length % 65536 + 65536 * (n % 65536) + 2 ^ 32 * (reportedCmds d k % 65536))
        longWritten := l.1.1, trunc := decide (out.length < all.length) || l.1.2 } (releaseHost l.2) := rfl

end

/-- Settles O17. -/
theorem sessionsOpenAndAdopt : Obligations.SessionsOpenAndAdopt := by
  intro port slot hdr h k s w p a may
  refine ⟨fun i rows row => ⟨fun opens n free => ?_, fun adopts => ?_⟩, fun row => ?_, fun row => ?_⟩
  · have op : h.op = 0x0A01 := by rcases rows with rfl | rfl <;> cases row <;> rfl
    exact exec_bodyEnds row may (by rw [op]; rfl) (by rw [op]; exact sessionOpen_body opens free)
  · have op : h.op = 0x0A01 := by rcases rows with rfl | rfl <;> cases row <;> rfl
    exact exec_bodyEnds row may (by rw [op]; rfl) (by rw [op]; exact sessionAdopt_body adopts)
  · obtain rfl := Option.some.inj row
    exact exec_bodyEnds row may rfl (sessionClose_body k w)
  · obtain rfl := Option.some.inj row
    exact exec_bodyEnds row may rfl (attach_body k w)

end Sys2Proof.Proofs
end

section
/-! The configuration commands: what a read or a status answers, the entries that a write stages, and a commit (R326 to R329, R347, R349). -/
namespace Sys2Proof.Proofs

open Sys2Proof.Machine Sys2Proof.Laws Sys2Proof.Safety

/-! ### CFG_READ and CFG_STATUS -/

theorem cfgRead_body (k : Nat) (s : State) :
    let p := slotAt s k
    let n := param p 0 8
    (cfgReadDef.body k).run s = .ok { kind := 4, count := n, detail := readEntries s (portOf k) p n } s := rfl

theorem cfgStatus_body (k : Nat) (s : State) :
    let sel := param (slotAt s k) 0 8
    let bs : List Byte := (List.range 8).map (fun i => clusterEpoch s (8 * sel + i))
    let n := if sel < 4 then bytesNat bs else epochSummary s (portOf k)
    (cfgStatusDef.body k).run s = .ok { result := BitVec.ofNat 64 n } s := by
  simp only [cfgStatusDef]
  rw [run_get_bind]
  split <;> rfl

/-! ### CFG_WRITE -/

/-- An action that looks at the state and changes none of it. -/
def Looks {α : Type} (a : Act α) : Prop := ∀ s x t, a.run s = .ok x t → t = s

theorem Looks.pure {α : Type} (x : α) : Looks (pure x : Act α) := by
  intro s y t ran
  cases ran
  rfl

theorem Looks.throw {α : Type} (e : Stop) : Looks (throw e : Act α) := fun _ _ _ ran => nomatch ran

theorem Looks.bind {α β : Type} {a : Act α} {f : α → Act β} (first : Looks a) (rest : ∀ x, Looks (f x)) : Looks (a >>= f) := by
  intro s y t ran
  obtain ⟨x, u, ran, after⟩ := run_bind_ok.1 ran
  rw [rest x u y t after, first s x u ran]

theorem Looks.ite {α : Type} {c : Prop} [Decidable c] {a b : Act α} (yes : Looks a) (no : Looks b) : Looks (if c then a else b) := by
  split <;> assumption

/-- A loop that only looks in each round. -/
theorem Looks.forIn {α β : Type} (l : List α) {f : α → β → Act (ForInStep β)} (round : ∀ x b, Looks (f x b)) (b : β) :
    Looks (ForIn.forIn l b f) := by
  induction l generalizing b with
  | nil => exact Looks.pure b
  | cons x l ih =>
    rw [List.forIn_cons]
    refine (round x b).bind (fun r => ?_)
    cases r with
    | done b => exact Looks.pure b
    | yield b => exact ih b

theorem rejectItem_looks {α : Type} (locator i check hi lo found limit : Nat) : Looks (rejectItem locator i check hi lo found limit : Act α) :=
  Looks.throw _

theorem checkEmptyEntry_looks (p : SlotWord) (i : Nat) : Looks (checkEmptyEntry p i) :=
  (Looks.forIn _ (fun _ _ => ((rejectItem_looks _ _ _ _ _ _ _).bind (fun _ => Looks.pure _)).ite (Looks.pure _)) _).bind (fun _ => Looks.pure _)

theorem checkEntryName_looks (p : SlotWord) (i : Nat) (allDies : Bool) : Looks (checkEntryName p i allDies) := by
  simp only [checkEntryName]
  split
  · exact rejectItem_looks _ _ _ _ _ _ _
  · exact (rejectItem_looks _ _ _ _ _ _ _).ite ((rejectItem_looks _ _ _ _ _ _ _).ite (Looks.pure _))

theorem stageValue_looks (committed : Table Nat) (i id inst v : Nat) (staged : Table Nat) : Looks (stageValue committed i id inst v staged) := by
  simp only [stageValue]
  split
  · exact rejectItem_looks _ _ _ _ _ _ _
  · exact Looks.pure _

/-- Staging entries changes no state before all have passed. -/
theorem stageEntries_looks (p : SlotWord) (n : Nat) (committed staged : Table Nat) : Looks (stageEntries p n committed staged) := by
  refine (Looks.forIn _ (fun i b => ?_) _).bind (fun _ => Looks.pure _)
  refine Looks.ite ?_ ?_
  · refine (checkEntryName_looks p i true).bind (fun e => ?_)
    refine (Looks.forIn _ (fun d b => ?_) _).bind (fun _ => Looks.pure _)
    exact (stageValue_looks _ _ _ _ _ _).bind (fun _ => Looks.pure _)
  · exact (checkEmptyEntry_looks p i).bind (fun _ => Looks.pure _)

/-- What a CFG_WRITE answers of its count and its clamps, where it writes no clamp report of its own (R326). -/
def writeResult (m : Nat) (cl : List ClampEntry) : BitVec 64 := BitVec.ofNat 64 (m + 65536 * cl.length)

section
variable {k : Nat} {s : State} {st : Table Nat} {cl : List ClampEntry} {m : Nat}
  (staged : (stageEntries (slotAt s k) (param (slotAt s k) 0 8) s.cfg.committed (staging s (portOf k))).run s = .ok (st, cl, m) s)
include staged

theorem cfgWrite_body_plain (plain : cl = [] ∨ hdrField (slotAt s k) 0x10 64 = 0) :
    (cfgWriteDef.body k).run s = .ok { result := writeResult m cl } (setStaging s (portOf k) st) := by
  have plain : cl.isEmpty = true ∨ hdrField (slotAt s k) 0x10 64 = 0 := by rwa [List.isEmpty_iff]
  simp only [cfgWriteDef]
  rw [run_get_bind, EStateM.run_bind, staged]
  simp only [plain, if_true]
  rfl

theorem cfgWrite_body_report (clamped : cl ≠ []) (asked : hdrField (slotAt s k) 0x10 64 ≠ 0) :
    let l := longReply (setStaging s (portOf k) st) k (cl.flatMap clampBytes)
    (cfgWriteDef.body k).run s = .ok
      { result := writeResult m cl, longWritten := l.1.1, trunc := l.1.2 && decide (8 < cl.length), kind := 2, count := min cl.length 8
        detail := (cl.take 8).flatMap clampBytes } l.2 := by
  have reports : ¬ (cl.isEmpty = true ∨ hdrField (slotAt s k) 0x10 64 = 0) := by
    rw [List.isEmpty_iff]
    exact not_or.2 ⟨clamped, asked⟩
  simp only [cfgWriteDef]
  rw [run_get_bind, EStateM.run_bind, staged]
  simp only [reports, if_false]
  rfl

end

/-! ### CFG_COMMIT -/

section
variable {k : Nat} {s : State}

theorem cfgCommit_body_discard (discards : paramBit (slotAt s k) 0 2 = true) :
    (cfgCommitDef.body k).run s = .ok { result := nothingCommitted s } (setStaging s (portOf k) []) := by
  simp only [cfgCommitDef]
  rw [run_get_bind]
  simp only [discards, if_true]
  rfl

theorem cfgCommit_body_empty (commits : paramBit (slotAt s k) 0 2 = false) (empty : staging s (portOf k) = []) :
    (cfgCommitDef.body k).run s = .ok { result := nothingCommitted s } s := by
  simp only [cfgCommitDef]
  rw [run_get_bind]
  simp only [commits, empty, List.isEmpty_nil, Bool.false_eq_true, if_false, if_true]
  rfl

/-- A commit that is reported at once, its command noting the result and the clamps. -/
def noteCommit (s : State) (k : Nat) : State :=
  let r := commitStaging s (portOf k)
  updCmd r.1 k (fun c => { c with result := r.2.1, clamps := c.clamps ++ r.2.2 })

theorem setStaging_host (s : State) (p : Port) (t : Table Nat) : (setStaging s p t).host = s.host := by
  cases p <;> rfl

/-- A commit leaves the slots. -/
theorem noteCommit_slotAt (s : State) (k j : Nat) : slotAt (noteCommit s k) j = slotAt s j :=
  congrArg (fun h : HostIf => tget 0 h.slots j) (setStaging_host (commitValues s (recheck s.cfg.committed (staging s (portOf k))).1) (portOf k) [])

/-- The answer to a commit that is made: WAIT has its command wait until the epoch is in force everywhere (R347). -/
def answerCommit (k : Nat) (result : BitVec 64) (s : State) : Act Reply := do
  set s
  if paramBit (slotAt s k) 0 1 && oldestEpoch s ≠ s.cfg.epoch then
    modify (fun s => refreshInterim (updCmd s k (fun c => { c with stage := .waitEpoch })) k)
    throw (.park .waitEpoch)
  else return { result := result }

theorem finishCommit_eq (k : Nat) : finishCommit k = (do
    let s ← get
    answerCommit k (commitStaging s (portOf k)).2.1 (noteCommit s k)) := rfl

theorem answerCommit_plain {t : State} (result : BitVec 64) (plain : paramBit (slotAt t k) 0 1 = false) :
    (answerCommit k result t).run s = .ok { result := result } t := by
  rw [answerCommit, plain, Bool.false_and, if_neg Bool.false_ne_true]
  rfl

theorem finishCommit_run (plain : paramBit (slotAt s k) 0 1 = false) :
    (finishCommit k).run s = .ok { result := (commitStaging s (portOf k)).2.1 } (noteCommit s k) := by
  rw [finishCommit_eq, run_get_bind]
  exact answerCommit_plain _ (by rwa [noteCommit_slotAt])

theorem cfgCommit_body_now (commits : paramBit (slotAt s k) 0 2 = false) (filled : staging s (portOf k) ≠ [])
    (undrained : paramBit (slotAt s k) 0 0 = false) (plain : paramBit (slotAt s k) 0 1 = false) :
    (cfgCommitDef.body k).run s = .ok { result := (commitStaging s (portOf k)).2.1 } (noteCommit s k) := by
  have filled : (staging s (portOf k)).isEmpty = false := by rwa [List.isEmpty_eq_false_iff]
  rw [← finishCommit_run plain]
  simp only [cfgCommitDef]
  rw [run_get_bind]
  simp only [commits, filled, undrained, Bool.false_eq_true, if_false]

end

/-- Settles O12. -/
theorem configurationReadsAndCommits : Obligations.ConfigurationReadsAndCommits := by
  refine ⟨fun port slot hdr h k cl s => ⟨fun row accepts => ?_, fun row accepts => ?_⟩, fun port slot hdr h k s => ?_,
    fun port slot hdr h k cl s i rows row accepts => ?_⟩
  · obtain rfl := Option.some.inj row
    exact exec_accepted accepts row rfl (cfgRead_body k _)
  · obtain rfl := Option.some.inj row
    exact exec_accepted accepts row rfl (cfgStatus_body k _)
  · intro a p entries row may passes
    obtain rfl := Option.some.inj row
    obtain ⟨⟨⟨st, cl, m⟩, t⟩, passes⟩ := Option.isSome_iff_exists.1 passes
    have staged := ends_elim passes
    obtain rfl := stageEntries_looks _ _ _ _ _ _ _ staged
    exact ⟨st, cl, m, passes, fun plain => exec_bodyEnds row may rfl (cfgWrite_body_plain staged plain),
      fun clamped asked => exec_bodyEnds row may rfl (cfgWrite_body_report staged clamped asked)⟩
  · have op : h.op = 0x0103 := by rcases rows with rfl | rfl <;> cases row <;> rfl
    have unplaced : (opDef h.op).placed = false := by rw [op]; rfl
    exact ⟨fun discards => exec_accepted accepts row unplaced (by rw [op]; exact cfgCommit_body_discard discards),
      fun commits empty => exec_accepted accepts row unplaced (by rw [op]; exact cfgCommit_body_empty commits empty),
      fun commits filled undrained plain =>
        exec_accepted accepts row unplaced (by rw [op]; exact cfgCommit_body_now commits filled undrained plain)⟩

end Sys2Proof.Proofs
end

section
/-! The other two ports and the events of the command slots: I3C codes and transfers of the bus owner, the TAP and the debug lock, a handover that names
no opcode, interim status, drains and hints (R311, R317, R323, R324, R348, R380, R396). -/
namespace Sys2Proof.Proofs

open Sys2Proof.Machine Sys2Proof.Laws Sys2Proof.Safety

/-! ### The management bus (R323) -/

section
variable {s : State}

theorem i3cAnswer_addressed (addressed : s.host.i3cAddress.isSome = true) (bs : List Byte) :
    i3cAnswer s bs = { s with host := { s.host with i3cOut := bs } } := if_pos addressed

theorem i3cAnswer_unaddressed (silent : s.host.i3cAddress = none) (bs : List Byte) : i3cAnswer s bs = s :=
  if_neg (by rw [silent]; exact Bool.false_ne_true)

theorem exec_i3cPrivateWrite_addressed (addressed : s.host.i3cAddress.isSome = true) (bytes : List Byte) :
    exec (.i3cPrivateWrite bytes) s = .next (settle (privateWrite s bytes)) := by
  rw [exec_i3cPrivateWrite, execI3cPrivateWrite, if_pos addressed]

theorem privateWrite_short (b : Byte) {bytes : List Byte} (short : bytes = [] ∨ bytes = [b]) : privateWrite s bytes = discardWrite s := by
  rcases short with rfl | rfl <;> rfl

theorem privateWrite_offset (lo hi : Byte) (aligned : lo.toNat % 4 = 0) :
    privateWrite s [lo, hi] = { s with host := { s.host with mgmtOffset := lo.toNat + 256 * hi.toNat } } := by
  have offset : bytesNat [lo, hi] = lo.toNat + 256 * hi.toNat := by simp [bytesNat]
  have whole : ¬ ((lo.toNat + 256 * hi.toNat) % 4 ≠ 0 ∨ ([] : List Byte).length % 4 ≠ 0) := by
    rw [List.length_nil]
    omega
  rw [privateWrite, offset, mgmtWrite, if_neg whole]
  rfl

theorem extractLsb'_append_middle (x y z : BitVec 16) : (x ++ y ++ z).extractLsb' 16 16 = y := by
  apply BitVec.eq_of_getLsbD_eq
  intro i hi
  have past : ¬ 16 + i < 16 := by omega
  rw [BitVec.getLsbD_extractLsb', BitVec.getLsbD_append, if_neg past, Nat.add_sub_cancel_left, BitVec.getLsbD_append, if_pos hi]
  simp only [hi, decide_true, Bool.true_and]

/-- The provisional ID carries bits [23:8] of CMD_ID_MEMBER. -/
theorem i3cPid_part : i3cPid.extractLsb' 16 16 = 0x0400#16 := extractLsb'_append_middle _ _ _

theorem privateRead_at {n i : Nat} (below : i < n) :
    let o := s.host.mgmtOffset + i
    (privateRead s n).length = n ∧ (privateRead s n)[i]? = some ((windowRead s .mgmt o).extractLsb' (o % 8 * 8) 8) := by
  intro o
  refine ⟨?_, ?_⟩
  · rw [privateRead, List.length_map, List.length_range]
  · rw [privateRead, List.getElem?_map, List.getElem?_range below]
    rfl

/-! ### The debug port (R324, R380) -/

theorem exec_dbgSlot_locked (locked : s.host.debugUnlocked = false) (scanned : SlotWord) :
    exec .dbgSlotCapture s = .next { s with host := { s.host with tapIr := 0 } } ∧
      exec (.dbgSlotUpdate scanned) s = .next { s with host := { s.host with tapIr := 0 } } := by
  simp only [exec_dbgSlotCapture, execDbgSlotCapture, exec_dbgSlotUpdate, execDbgSlotUpdate, locked, Bool.not_false, Bool.false_eq_true,
    if_false, if_true, and_self]

theorem exec_dbgSlotCapture_unlocked (unlocked : s.host.debugUnlocked = true) :
    exec .dbgSlotCapture s = .next { s with host := { s.host with tapIr := 2, tapDr := slotAt s 68 } } := by
  rw [exec_dbgSlotCapture, execDbgSlotCapture, if_pos unlocked]
  rfl

theorem exec_dbgSlotUpdate_unlocked {scanned : SlotWord} (unlocked : s.host.debugUnlocked = true) (free : slotOwned s 68 = false)
    (keeps : scanned.getLsbD 63 = false) :
    exec (.dbgSlotUpdate scanned) s = .next (settle (setSlot { s with host := { s.host with tapIr := 2, tapDr := scanned } } 68 scanned)) := by
  have stays : ¬ slotOwned (setTap s 2 scanned) 68 = true := fun owned => Bool.false_ne_true (free.symm.trans owned)
  have unbarred : ¬ (!s.host.debugUnlocked) = true := by rw [unlocked]; exact Bool.false_ne_true
  have bare : ¬ scanned.getLsbD 63 = true := by rw [keeps]; exact Bool.false_ne_true
  rw [exec_dbgSlotUpdate, execDbgSlotUpdate, if_neg unbarred]
  refine congrArg (fun t => Host.Outcome.next (settle t)) ?_
  exact (if_neg stays).trans (if_neg bare)

end

/-- Settles O46. -/
theorem managementAndDebugPorts : Obligations.ManagementAndDebugPorts := by
  refine ⟨fun address bytes s => ?_, fun s n i below => privateRead_at below, fun tdi scanned s => ?_⟩
  · intro sends
    refine ⟨rfl, i3cPid_part, fun silent => ?_, fun addressed => ?_⟩
    · have unaddressed : ¬ s.host.i3cAddress.isSome = true := by rw [silent]; exact Bool.false_ne_true
      refine ⟨?_, ?_, ?_, ?_, ?_, ?_⟩
      · rw [exec_entdaa, execEntdaa, if_neg unaddressed]
      · rw [exec_getpid, execGetpid, i3cAnswer_unaddressed silent]
      · rw [exec_getbcr, execGetbcr, i3cAnswer_unaddressed silent]
      · rw [exec_getdcr, execGetdcr, i3cAnswer_unaddressed silent]
      · rw [exec_getmxds, execGetmxds, i3cAnswer_unaddressed silent]
      · rw [exec_i3cPrivateWrite, execI3cPrivateWrite, if_neg unaddressed]
    · refine ⟨?_, ?_, ?_, ?_, ?_, ?_, fun b short => ?_, fun lo hi offset aligned => ?_⟩
      · rw [exec_entdaa, execEntdaa, if_pos addressed]
      · rw [exec_getpid, execGetpid, i3cAnswer_addressed addressed]
      · rw [exec_getbcr, execGetbcr, i3cAnswer_addressed addressed]
      · rw [exec_getdcr, execGetdcr, i3cAnswer_addressed addressed]
      · rw [exec_getmxds, execGetmxds, i3cAnswer_addressed addressed]
      · rw [exec_getstatus, execGetstatus, i3cAnswer_addressed (s := { s with freeCtr := s.freeCtr + 1 }) addressed]
      · rw [exec_i3cPrivateWrite_addressed addressed, privateWrite_short b short]
        rfl
      · rw [exec_i3cPrivateWrite_addressed addressed, offset, privateWrite_offset lo hi aligned]
  · intro bypass
    refine ⟨by cases tdi <;> rfl, rfl, fun locked => exec_dbgSlot_locked locked scanned,
      fun unlocked => ⟨exec_dbgSlotCapture_unlocked unlocked, exec_dbgSlotUpdate_unlocked unlocked⟩,
      fun asks locked works => ?_, fun asks unlocked works => ?_, fun idle => ?_⟩
    · rw [exec_debugUnlock, execDebugUnlock, if_pos ⟨asks, by rw [locked]; rfl, works⟩]
    · rw [exec_debugLock, execDebugLock, if_pos ⟨asks, unlocked, works⟩]
    · have stopped : ¬ secWorks s = true := by rw [idle]; exact Bool.false_ne_true
      rw [exec_debugUnlock, execDebugUnlock, if_neg (fun ⟨_, _, works⟩ => stopped works), exec_debugLock, execDebugLock,
        if_neg (fun ⟨_, _, works⟩ => stopped works)]
      exact ⟨rfl, rfl⟩

/-! ### A handover that names no opcode (R317) -/

/-- A header write leaves its low bits in the packet that is handed over (R310). -/
theorem getLsbD_headerWrite (p : SlotWord) (hdr : BitVec 64) {i : Nat} (low : i < 63) :
    (setBits (setBits p 0 64 hdr.toNat) 63 1 1).getLsbD i = hdr.getLsbD i := by
  rw [getLsbD_setBits _ _ _ _ (by omega), if_neg (by omega), getLsbD_setBits _ _ _ _ (by omega), if_pos (by omega)]
  rfl

theorem slotBits_headerWrite (p : SlotWord) (hdr : BitVec 64) :
    slotBits (setBits (setBits p 0 64 hdr.toNat) 63 1 1) 0 16 = hdr.toNat % 65536 := by
  have field : (setBits (setBits p 0 64 hdr.toNat) 63 1 1).extractLsb' 0 16 = hdr.setWidth 16 := by
    apply BitVec.eq_of_getLsbD_eq
    intro i hi
    rw [BitVec.getLsbD_extractLsb', BitVec.getLsbD_setWidth, Nat.zero_add, getLsbD_headerWrite p hdr (by omega)]
  rw [slotBits, field, BitVec.toNat_setWidth]

/-- A packet's own opcode forced into it changes nothing. -/
theorem forceOpcode_own (p : SlotWord) : forceOpcode (slotBits p 0 16) p = p := by
  apply BitVec.eq_of_getLsbD_eq
  intro i hi
  rw [forceOpcode, getLsbD_setBits _ _ _ _ hi]
  split
  · next low =>
    rw [slotBits, BitVec.testBit_toNat, BitVec.getLsbD_extractLsb', Nat.sub_zero, Nat.zero_add, decide_eq_true (by omega), Bool.true_and]
  · rfl

/-- A packet whose header has nothing wrong but its opcode is rejected for it. -/
theorem headerCheck_opcode {p : SlotWord} (version : slotBits p 56 4 = 1) (flags : slotBits p 32 8 = 0) (drop : slotBits p 49 7 = 0)
    (top : slotBits p 60 3 = 0) (r1c : hdrField p 0x1C 32 = 0) (r20 : hdrField p 0x20 64 = 0) (r28 : hdrField p 0x28 64 = 0)
    (r30 : hdrField p 0x30 64 = 0) (r38 : hdrField p 0x38 64 = 0)
    (unknown : opcodeTable.any (fun e => e.1 == slotBits p 0 16) = false) :
    headerCheck p = some (headerReject 0x10 0 6 15 0 (slotBits p 0 16) 0) := by
  simp only [hdrField] at r1c r20 r28 r30 r38
  simp only [headerCheck, headerReserved, firstFail, version, flags, drop, top, Nat.mul_zero, Nat.zero_add, Nat.add_zero, r1c, r20, r28,
    r30, r38, unknown, beq_self_eq_true, Bool.false_eq_true, if_true, if_false]

section
variable {port : Port} {slot : BitVec 6} {hdr : BitVec 64} {s : State} {k : Nat}

/-- A handover that names no opcode is that opcode's. -/
theorem exec_invalidOpcode_arrive (key : slotKey port slot.toNat = some k) (free : slotOwned s k = false)
    (reaches : port = .debug → s.host.debugUnlocked = true) (unknown : opcodeTable.any (fun e => e.1 == hdr.toNat % 65536) = false) :
    exec (.invalidOpcode port slot hdr) s = .next (settle (arrive (opDef (hdr.toNat % 65536)) k
      (setSlot s k (setBits (setBits (slotAt s k) 0 64 hdr.toNat) 63 1 1)))) := by
  have unbarred : ¬ (port = .debug ∧ s.host.debugUnlocked = false) := by
    rintro ⟨debug, locked⟩
    exact Bool.false_ne_true (locked.symm.trans (reaches debug))
  have own := forceOpcode_own (setBits (setBits (slotAt s k) 0 64 hdr.toNat) 63 1 1)
  rw [slotBits_headerWrite] at own
  simp only [exec_invalidOpcode, execInvalidOpcode, unknown, handOpcode, handover, key, unbarred, free, own, Bool.false_eq_true, if_false, id]

theorem exec_invalidOpcode_rejects (key : slotKey port slot.toNat = some k) (free : slotOwned s k = false)
    (reaches : port = .debug → s.host.debugUnlocked = true) (answers : nothingAnswers s = false) (first : s.host.handovers = [])
    (unknown : opcodeTable.any (fun e => e.1 == hdr.toNat % 65536) = false) :
    let t := setSlot s k (setBits (setBits (slotAt s k) 0 64 hdr.toNat) 63 1 1)
    slotBits (slotAt t k) 56 4 = 1 → slotBits (slotAt t k) 32 8 = 0 → slotBits (slotAt t k) 49 7 = 0 → slotBits (slotAt t k) 60 3 = 0 →
    hdrField (slotAt t k) 0x1C 32 = 0 → hdrField (slotAt t k) 0x20 64 = 0 → hdrField (slotAt t k) 0x28 64 = 0 →
    hdrField (slotAt t k) 0x30 64 = 0 → hdrField (slotAt t k) 0x38 64 = 0 →
      exec (.invalidOpcode port slot hdr) s = .next (settle (rejectCmd t k (headerReject 0x10 0 6 15 0 (hdr.toNat % 65536) 0))) := by
  intro t version flags drop top r1c r20 r28 r30 r38
  have own : (setBits (setBits (slotAt s k) 0 64 hdr.toNat) 63 1 1).getLsbD 63 = true := by
    rw [getLsbD_setBits _ _ _ _ (by decide), if_pos (by decide)]
    rfl
  have opcode : slotBits (slotAt t k) 0 16 = hdr.toNat % 65536 := by rw [slotAt_setSlot_owned s k own, slotBits_headerWrite]
  have unknown' : opcodeTable.any (fun e => e.1 == slotBits (slotAt t k) 0 16) = false := by rw [opcode]; exact unknown
  have bad : earlyCheck t k = some (headerReject 0x10 0 6 15 0 (hdr.toNat % 65536) 0) := by
    rw [earlyCheck, headerCheck_opcode version flags drop top r1c r20 r28 r30 r38 unknown', opcode]
  have alone : queueReady t = false := by
    rw [queueReady, show t.host.handovers = [] from first, List.any_nil]
  rw [exec_invalidOpcode_arrive key free reaches unknown, arrive_early (s := t) answers alone bad]

/-! ### Interim status, drains and hints -/

theorem exec_interimStatusRefresh_due {c : Cmd} {t : Nat} (key : slotKey port slot.toNat = some k) (known : cmdOf s k = some c)
    (last : c.lastInterim = some t) (up : schedulerDown s = false) (passed : t + ticksCeil 10000 ≤ s.now)
    (changed : BitVec.ofNat 32 (statusWord s (interimCode c) (slotSeq s k)) ≠ c.lastStatus) :
    exec (.interimStatusRefresh port slot) s = .next (interim s k) := by
  have due : interimDue s k = true := by
    simp only [interimDue, known, last, Option.any_some, passed, ge_iff_le, changed, ne_eq, not_false_eq_true, decide_true, Bool.true_or,
      Bool.and_self]
  simp only [exec_interimStatusRefresh, execInterimStatusRefresh, key, due, up, Bool.not_false, and_self, if_true]

theorem exec_drainQuiescent_commits {c : Cmd} {r : Reply} {t : State} (drains : drainingCommit s = some c) (state : s.dev = .draining)
    (quiet : quiescent s c.key = true) (ran : (finishCommit c.key).run { s with dev := .ready } = .ok r t) :
    exec .drainQuiescent s = .next (settle (completeCmd t c.key r)) := by
  simp only [exec_drainQuiescent, execDrainQuiescent, drainQuiescent, drains, state, quiet, and_self, if_true, ran]

theorem exec_hintExpiry_at {index : BitVec 3} {h : Hint} (valid : tget none s.pwr.hints index.toNat = some h) :
    exec (.hintExpiry index) s = .next (if h.at_ ≤ s.now then setHint s index.toNat none else s) := by
  simp only [exec_hintExpiry, execHintExpiry, valid, ge_iff_le]

end

/-- Settles O47. -/
theorem slotEventsAct : Obligations.SlotEventsAct := by
  intro port slot hdr s
  refine ⟨fun k key free reaches answers first unknown => exec_invalidOpcode_rejects key free reaches answers first unknown,
    fun k c t key known last up passed changed => exec_interimStatusRefresh_due key known last up passed changed,
    fun c r t drains state quiet ran => exec_drainQuiescent_commits drains state quiet ran, fun index h valid => ⟨fun due => ?_, fun early => ?_⟩⟩
  · rw [exec_hintExpiry_at valid, if_pos due]
  · rw [exec_hintExpiry_at valid, if_neg (Nat.not_le.2 early)]

end Sys2Proof.Proofs
end

section
/-! What a command answers at all, and SCRUB: the one command that can stop, and what it writes back (R407, R409; log 16). -/
namespace Sys2Proof.Proofs

open Sys2Proof.Machine Sys2Proof.Laws Sys2Proof.Safety

/-! ### SCRUB (R409) -/

/-- SCRUB's guard is the complement of `stackGranule`. -/
theorem stackGranule_iff {stack : BitVec 5} {granule : BitVec 48} :
    stackGranule stack granule = true ↔
      ¬ (granule.toNat ≥ 2 ^ 42 ∨ granule.toNat % 16 ≠ 0 ∨ granule.toNat % 2 ^ 39 ≥ 0x6000000000 ∨ stackOf granule.toNat ≠ stack.toNat) := by
  simp only [stackGranule, stackOf, decide_eq_true_eq, not_or, Nat.not_le, ge_iff_le, ne_eq, not_not]

section
variable {stack : BitVec 5} {granule : BitVec 48} {flip : Granule} {s : State}

theorem exec_scrub_outside (outside : stackGranule stack granule = false) : exec (.scrub stack granule flip) s = .fault .noSuchGranule := by
  rw [exec_scrub, execScrub]
  exact if_pos (not_not.1 (mt stackGranule_iff.2 (ne_true_of_eq_false outside)))

theorem exec_scrub_skipped (within : stackGranule stack granule = true)
    (skipped : (!dieCommonOn s || isFenced s (0xC080 + stack.toNat)) = true) : exec (.scrub stack granule flip) s = .next s := by
  rw [exec_scrub, execScrub]
  exact (if_neg (stackGranule_iff.1 within)).trans (if_pos skipped)

/-- What a scrub leaves of the granule that it read as `x`. -/
def scrubbed (s : State) (a : Nat) (x : Granule) : CodeOutcome → State
  | .corrected i e => { s with pmem := s.pmem.setGranule a (correctSymbol x i e) }
  | .uncorrectable => markBad { s with pmem := s.pmem.setWord a (granuleData x) true } a
  | _ => { s with pmem := s.pmem.setGranule a x }

theorem exec_scrub_read (within : stackGranule stack granule = true)
    (read : (!dieCommonOn s || isFenced s (0xC080 + stack.toNat)) = false) :
    let a := granule.toNat
    let x := s.pmem.granule a ^^^ flip
    exec (.scrub stack granule flip) s =
      .next (scrubbed (codeRecord s { die := a / 2 ^ 39 } (0xC080 + stack.toNat) 5 a (decodeOutcome x) true) a x (decodeOutcome x)) := by
  rw [exec_scrub, execScrub]
  exact ((if_neg (stackGranule_iff.1 within)).trans (if_neg (ne_true_of_eq_false read))).trans rfl

end

/-- Settles O35. -/
theorem scrubWritesBack : Obligations.ScrubWritesBack := by
  intro stack granule flip s
  refine ⟨exec_scrub_outside, fun within on unfenced => ?_⟩
  have read : (!dieCommonOn s || isFenced s (0xC080 + stack.toNat)) = false := by rw [on, unfenced]; rfl
  intro a x o u
  have done : exec (.scrub stack granule flip) s = .next (scrubbed u a x o) := exec_scrub_read within read
  refine ⟨fun n e corrected => ?_, fun uncorrectable => ?_, fun whole => ?_⟩
  · rw [done, corrected]
    rfl
  · rw [done, uncorrectable]
    rfl
  · rcases whole with clean | poison
    · rw [done, clean]
      rfl
    · rw [done, poison]
      rfl

/-! ### Every command answers -/

theorem exec_scrub_answers (stack : BitVec 5) (granule : BitVec 48) (flip : Granule) (s : State) :
    (∃ t, exec (.scrub stack granule flip) s = .next t) ∨
      (stackGranule stack granule = false ∧ exec (.scrub stack granule flip) s = .fault .noSuchGranule) := by
  cases within : stackGranule stack granule with
  | false => exact .inr ⟨rfl, exec_scrub_outside within⟩
  | true =>
    cases skipped : !dieCommonOn s || isFenced s (0xC080 + stack.toNat) with
    | false => exact .inl ⟨_, exec_scrub_read within skipped⟩
    | true => exact .inl ⟨_, exec_scrub_skipped within skipped⟩

/-! The rows whose meaning is a case distinction before it answers. -/

theorem execHintExpiry_answers (i : BitVec 3) (s : State) : ∃ t, execHintExpiry i s = .next t := by
  unfold execHintExpiry
  split <;> exact ⟨_, rfl⟩

theorem execRingReservedFlit_answers (die : BitVec 3) (up : Bool) (hdr : BitVec 32) (gs : List Granule) (s : State) :
    ∃ t, execRingReservedFlit die up hdr gs s = .next t := by
  unfold execRingReservedFlit
  dsimp only
  cases flitKind s die.toNat up hdr gs <;> exact ⟨_, rfl⟩

theorem execRingLinkDown_answers (die : BitVec 3) (up : Bool) (s : State) : ∃ t, execRingLinkDown die up s = .next t := by
  unfold execRingLinkDown
  dsimp only
  cases (ringAt s (ringEnd die.toNat up)).replayBuf <;> exact ⟨_, rfl⟩

theorem execKtlReservedFrame_answers (port : BitVec 2) (frame : List Granule) (s : State) :
    ∃ t, execKtlReservedFrame port frame s = .next t := by
  unfold execKtlReservedFrame
  dsimp only
  cases frameKind s port.toNat frame <;> exact ⟨_, rfl⟩

theorem execE2eTimeout_answers (slot : BitVec 6) (s : State) : ∃ t, execE2eTimeout slot s = .next t := by
  unfold execE2eTimeout
  cases cmdOf s slot.toNat with
  | none => exact ⟨_, rfl⟩
  | some c => cases waiting : waitingSince c <;> simp only [waiting] <;> exact ⟨_, rfl⟩

theorem execAdoptionWindowExpiry_answers (s : State) : ∃ t, execAdoptionWindowExpiry s = .next t := by
  unfold execAdoptionWindowExpiry
  split <;> exact ⟨_, rfl⟩

theorem execWakeStart_answers (s : State) : ∃ t, execWakeStart s = .next t := by
  unfold execWakeStart
  split <;> exact ⟨_, rfl⟩

/-- Settles O4. Every row but SCRUB answers by its meaning's own form, or by a case distinction that answers in each case. -/
theorem onlyScrubStops : Obligations.OnlyScrubStops := by
  intro c s
  cases c with
  | scrub stack granule flip =>
    rcases exec_scrub_answers stack granule flip s with answers | ⟨outside, stops⟩
    · exact .inl answers
    · exact .inr ⟨stack, granule, flip, rfl, outside, stops⟩
  | hintExpiry index => exact .inl (execHintExpiry_answers index s)
  | ringReservedFlit die up hdr granules => exact .inl (execRingReservedFlit_answers die up hdr granules s)
  | ringLinkDown die up => exact .inl (execRingLinkDown_answers die up s)
  | ktlReservedFrame port frame => exact .inl (execKtlReservedFrame_answers port frame s)
  | e2eTimeout slot => exact .inl (execE2eTimeout_answers slot s)
  | adoptionWindowExpiry => exact .inl (execAdoptionWindowExpiry_answers s)
  | wakeStart => exact .inl (execWakeStart_answers s)
  | _ => exact .inl ⟨_, rfl⟩

end Sys2Proof.Proofs
end

section
/-! The end of a step in a state in which nothing waits: each of its parts finds nothing to do (log 33). -/
namespace Sys2Proof.Proofs

open Sys2Proof.Machine Sys2Proof.Laws Sys2Proof.Safety

theorem foldl_eq_self {α β : Type} {f : α → β → α} {a : α} {l : List β} (fixed : ∀ b ∈ l, f a b = a) : l.foldl f a = a := by
  induction l with
  | nil => rfl
  | cons b l ih =>
    rw [List.foldl_cons, fixed b (List.mem_cons_self ..)]
    exact ih (fun c within => fixed c (List.mem_cons_of_mem _ within))

/-! ### Parts that look at the commands -/

section
variable {s : State} (idle : s.cmds = [])
include idle

theorem map_cmds_self (f : Cmd → Cmd) : { s with cmds := s.cmds.map f } = s := by
  have same : s.cmds.map f = s.cmds := by rw [idle]; rfl
  rw [same]

theorem runReady_idle : runReady s = s := by rw [runReady, idle]; rfl

theorem finishDrains_idle : finishDrains s = s := by rw [finishDrains, idle]; rfl

theorem settleCmds_idle : settleCmds s = s := by
  have replay : replayFenced s = s := by rw [replayFenced, idle]; rfl
  have abort : abortFenced s = s := by rw [abortFenced, idle]; rfl
  have boundary : boundaryChecks s = s := by rw [boundaryChecks, idle]; rfl
  have plan : planAhead s = s := map_cmds_self idle _
  have raised : noteRaised s = s := map_cmds_self idle _
  simp only [settleCmds, finishDrains_idle idle, idle, List.filter_nil, List.foldl_nil, replay, abort, boundary, plan, raised]

theorem settleMoves_idle : settleMoves s = s := by rw [settleMoves, idle]; rfl

theorem settleResolves_idle : settleResolves s = s := by rw [settleResolves, idle]; rfl

theorem settleEpochs_idle : settleEpochs s = s := by rw [settleEpochs, idle]; rfl

end

/-! ### Parts that look at the fences -/

section
variable {s : State}

theorem downFenced_self (down : ∀ d < 8, isFenced s (0xC070 + d) = true → (ringAt s (ringEnd d true)).down = true) : downFenced s = s :=
  foldl_eq_self fun d die => if_neg fun fencedUp => by
    obtain ⟨fenced, up⟩ := Bool.and_eq_true_iff.1 fencedUp
    rw [down d (List.mem_range.1 die) fenced] at up
    exact Bool.false_ne_true up

theorem settleRas_self (unasked : s.ras.restarts = [])
    (down : ∀ d < 8, isFenced s (0xC070 + d) = true → (ringAt s (ringEnd d true)).down = true) : settleRas s = s := by
  rw [settleRas, downFenced_self down, ite_self]
  exact if_pos (by rw [unasked]; rfl)

theorem pendings_nil (none : allPendings s = []) (d : Nat) : pendings s d = [] := by
  rw [allPendings, List.filterMap_eq_nil_iff] at none
  rw [pendings, List.filterMap_eq_nil_iff]
  intro e within
  rw [Option.map_eq_none_iff.1 (none e within), Option.map_none, ite_self]

theorem freeUnit_self {d : Nat} (pendings : pendings s d = []) (misses : misses s d = []) (regs : ∀ e ∈ s.xlt.missRegs, e.1 ≠ d) :
    freeUnit s d = s := by
  have held : s.xlt.missRegs.filter (fun e => e.1 == d) = [] := by
    rw [List.filter_eq_nil_iff]
    exact fun e within => by simpa using regs e within
  have kept : s.xlt.missRegs.filter (fun e => e.1 ≠ d) = s.xlt.missRegs := by
    rw [List.filter_eq_self]
    exact fun e within => decide_eq_true (regs e within)
  rw [freeUnit, pendings]
  dsimp only [List.foldl_nil]
  rw [misses]
  dsimp only [List.foldl_nil]
  rw [held, kept]
  rfl

theorem freeFenced_self (unasked : ∀ d < 8, isFenced s (xltSource d) = true → freeUnit s d = s) : freeFenced s = s :=
  foldl_eq_self fun d die => ite_eq_right_iff.2 fun fenced => unasked d (List.mem_range.1 die) fenced

end

/-! ### The page keepers -/

section
variable {s : State}

theorem markAllBad_self (none : s.pgk.bad = []) : markAllBad s = s := by
  have same : { s with pgk := { s.pgk with bad := [] } } = s := by rw [← none]
  rw [markAllBad, none, same]
  rfl

theorem reclaimAll_self (none : s.pgk.quarantine = []) : reclaimAll s = s :=
  foldl_eq_self fun d _ => ite_eq_left_iff.2 fun _ => by rw [none]; rfl

theorem demoteDie_self {d : Nat} (unframed : cfgVal s 0x1016 d = 0) : demoteDie s d = s := by
  rw [demoteDie]
  exact if_pos (.inl unframed)

theorem keeperWork_self (unmoved : s.pgk.moves = []) (unwaited : s.pgk.allocWaits = []) (unframed : ∀ d < 8, cfgVal s 0x1016 d = 0)
    (unevacuated : ∀ e ∈ s.xlt.farModules, e.2.state ≠ 2) : keeperWork s = s := by
  have served : serveWaits s = s := by rw [serveWaits, unwaited]; rfl
  have taken : takeUpMoves s = s := by rw [takeUpMoves, unmoved]; rfl
  have demoted : (List.range 8).foldl demoteDie s = s := foldl_eq_self fun d die => demoteDie_self (unframed d (List.mem_range.1 die))
  have evacuated : s.xlt.farModules.filter (fun e => e.2.state == 2) = [] := by
    rw [List.filter_eq_nil_iff]
    exact fun e within => by simpa using unevacuated e within
  simp only [keeperWork, served, taken, demoted, unwaited, List.foldl_nil, evacuated]

end

/-- Settles O2: part by part of `settle`, in its order. -/
theorem quietStateStands : Obligations.QuietStateStands := by
  intro s still
  simp only [quiet, Bool.and_eq_true, List.isEmpty_iff, List.all_eq_true, List.mem_range, beq_iff_eq, bne_iff_ne, Bool.or_eq_true,
    Bool.not_eq_true'] at still
  obtain ⟨⟨⟨⟨⟨⟨⟨⟨⟨⟨cmds, moves⟩, quarantine⟩, bad⟩, waits⟩, pendings⟩, frames⟩, modules⟩, restarts⟩, links⟩, units⟩ := still
  have ras : settleRas s = s :=
    settleRas_self restarts (fun d die fenced => (links d die).resolve_left (ne_false_of_eq_true fenced))
  have freed : freeFenced s = s := freeFenced_self fun d die fenced =>
    let ⟨misses, regs⟩ := (units d die).resolve_left (ne_false_of_eq_true fenced)
    freeUnit_self (pendings_nil pendings d) misses regs
  rw [settle, ras, runReady_idle cmds, settleCmds_idle cmds, settleMoves_idle cmds, settleResolves_idle cmds, freed,
    markAllBad_self bad, reclaimAll_self quarantine, settleEpochs_idle cmds, keeperWork_self moves waits frames modules]

end Sys2Proof.Proofs
end

section
/-! The scheduler core and the control cores: which command is placed, and what a drain stores and counts (R338, R339, R366, R369). -/
namespace Sys2Proof.Proofs

open Sys2Proof.Machine Sys2Proof.Laws Sys2Proof.Safety

/-! ### Drains (R366, R369) -/

section
variable {s u : State} {c : Cmd} {h : Hold} {g r : Nat}

/-- The stores of a staged step end, and its record says so. -/
theorem stepAct_stored (stored : (drainAll (jobOf s c h) h.staged).run s = .ok () u) :
    stepAct s c.key g (do
        drainAll (jobOf s c h) h.staged
        modify (fun s => updHold s c.key g (fun h => { h with recState := 3, staged := [] }))) =
      updHold u c.key g (fun h => { h with recState := 3, staged := [] }) := by
  rw [stepAct, EStateM.run_bind, stored]
  rfl

theorem drainDone_staged
    (drains : s.cmds.findSome? (fun c => (c.holds.find? (fun h => h.cluster == g && h.rslot == r && midStep h && h.unit.isNone)).map
      (fun h => (c, h))) = some (c, h))
    (sound : h.faulted = false) (staged : h.recState = 1) (stored : (drainAll (jobOf s c h) h.staged).run s = .ok () u) :
    let v := updHold u c.key g (fun h => { h with recState := 3, staged := [] })
    drainDone s g r =
      if (holdOf v c.key g).any (fun h => h.recState == 3) && procRunning v (3 + g) then finishDrain v c.key g else v := by
  have goesOn : ¬ h.faulted = true := ne_true_of_eq_false sound
  rw [drainDone, drains]
  simp only [if_neg goesOn, if_pos staged, stepAct_stored stored]

end

/-- Settles O38. -/
theorem drainsStoreAndCount : Obligations.DrainsStoreAndCount := by
  intro cluster record s c h g drained drains sound staged stores
  obtain ⟨⟨⟨⟩, u⟩, stores⟩ := Option.isSome_iff_exists.1 stores
  have done := drainDone_staged drains sound staged (ends_elim stores)
  refine ⟨u, stores, fun marked runs => ?_, fun down => ?_⟩
  · rw [exec_drainDone, execDrainDone, done, marked, runs]
    rfl
  · rw [exec_drainDone, execDrainDone, done, down, Bool.and_false]
    rfl

/-! ### Placement (R338) -/

/-- The clusters kept from the commands after those of a list, which the scheduler could not act for, in the order of their keys. -/
def keptFrom (held : List Nat) (s : State) (l : List Cmd) : List Nat := l.foldl (fun held b => held ++ waitsFor held s b) held

section
variable {s t : State} {c : Cmd}

theorem placeFirst_append {l r : List Cmd} {held : List Nat}
    (stuck : ∀ i b, l[i]? = some b → placeOne (keptFrom held s (l.take i)) s b = none)
    (acts : placeOne (keptFrom held s l) s c = some t) : placeFirst s held (l ++ c :: r) = some t := by
  induction l generalizing held with
  | nil =>
    have acts : placeOne held s c = some t := acts
    rw [List.nil_append, placeFirst, acts]
  | cons b l ih =>
    have first : placeOne held s b = none := stuck 0 b rfl
    rw [List.cons_append, placeFirst, first]
    exact ih (fun i d at_i => stuck (i + 1) d at_i) acts

theorem commandPlace_first {l r : List Cmd} (queue : placeQueue s = l ++ c :: r)
    (stuck : ∀ i b, l[i]? = some b → placeOne (keptFrom [] s (l.take i)) s b = none)
    (acts : placeOne (keptFrom [] s l) s c = some t) (runs : procRunning s 2 = true) (may : s.dev = .ready ∨ s.dev = .draining) :
    commandPlace s = t := by
  have unbarred : ¬ ((!procRunning s 2) = true ∨ (s.dev ≠ .ready ∧ s.dev ≠ .draining)) := by
    rw [runs]
    rintro (down | ⟨unready, undraining⟩)
    · exact Bool.false_ne_true down
    · exact may.elim unready undraining
  rw [commandPlace, if_neg unbarred, queue, placeFirst_append stuck acts, Option.getD_some]

theorem commandPlace_closed (closed : procRunning s 2 = false ∨ (s.dev ≠ .ready ∧ s.dev ≠ .draining)) : commandPlace s = s :=
  if_pos (closed.imp_left fun down => by rw [down]; rfl)

/-- The free clusters of a first placement: those that could take the command and on which nothing runs. -/
theorem freeClusters_openClusters_nil :
    freeClusters s (openClusters [] s c) = (List.range 32).filter (fun g => couldTake s c g && !clusterBusy s g) := by
  rw [freeClusters, openClusters, List.filter_filter]
  exact List.filter_congr fun g _ => by rw [List.contains_nil, Bool.not_false, Bool.true_and, Bool.and_comm]

theorem openClusters_none_leaving (settled : ∀ g v h, couldTake s c g = true → v ∈ s.cmds → h ∈ v.holds → h.cluster = g →
      h.paused = true → yielded h = true) : (openClusters [] s c).any (leaving s) = false := by
  rw [List.any_eq_false]
  intro g unbarred leaves
  obtain ⟨-, could⟩ := Bool.and_eq_true_iff.1 (List.mem_filter.1 unbarred).2
  obtain ⟨v, running, leaves⟩ := List.any_eq_true.1 leaves
  obtain ⟨h, held, leaves⟩ := List.any_eq_true.1 leaves
  simp only [Bool.and_eq_true, beq_iff_eq, Bool.not_eq_true'] at leaves
  obtain ⟨⟨there, paused⟩, unyielded⟩ := leaves
  exact ne_false_of_eq_true (settled g v h could running held there paused) unyielded

theorem placeNew_free {gs : List Nat} (nonempty : gs ≠ [])
    (lowest : gs = ((List.range 32).filter (fun g => couldTake s c g && !clusterBusy s g)).take (max 1 (octets s c).length))
    (awake : ∀ g ∈ gs, clusterAsleep s g = false)
    (settled : ∀ g v h, couldTake s c g = true → v ∈ s.cmds → h ∈ v.holds → h.cluster = g → h.paused = true → yielded h = true) :
    placeNew [] s c = some (placeOn s c gs) := by
  have free : (freeClusters s (openClusters [] s c)).take (max 1 (octets s c).length) = gs := by
    rw [freeClusters_openClusters_nil, lowest]
  have asleep : gs.filter (clusterAsleep s) = [] := List.filter_eq_nil_iff.2 fun g within => ne_true_of_eq_false (awake g within)
  have taken : gs.isEmpty = false := List.isEmpty_eq_false_iff.2 nonempty
  rw [placeNew]
  simp only [free, asleep, taken, openClusters_none_leaving settled, Bool.false_eq_true, false_and, if_false, List.isEmpty_nil,
    Bool.not_true]

theorem placeOne_new {held : List Nat} (free : stepsHeld s c.key = false) (goes : c.stop = none) (unplaced : c.placedAt = none)
    (compute : isCompute c.opcode = true) (ready : s.dev = .ready) : placeOne held s c = placeNew held s c := by
  have unbarred : ¬ (stepsHeld s c.key = true ∨ (c.stop.isSome = true ∧ (!c.preempting) = true)) := by
    rw [free, goes]
    rintro (held | ⟨stops, -⟩)
    · exact Bool.false_ne_true held
    · exact Bool.false_ne_true stops
  have first : c.placedAt.isNone = true := by rw [unplaced]; rfl
  rw [placeOne, if_neg unbarred, if_neg (fun held => held.2 ready)]
  split
  · next op => exact absurd (op ▸ compute) (by decide)
  · next op => exact absurd (op ▸ compute) (by decide)
  · next op => exact absurd (op ▸ compute) (by decide)
  · exact if_pos first

end

/-- Settles O36. -/
theorem commandsArePlaced : Obligations.CommandsArePlaced := by
  refine ⟨fun s => ⟨fun l r c t queue => ?_, fun closed => ?_⟩,
    fun s c r gs queue runs ready free goes unplaced compute nonempty lowest awake settled => ?_⟩
  · intro kept stuck acts runs may
    rw [exec_commandPlace, execCommandPlace, commandPlace_first queue stuck acts runs may]
  · rw [exec_commandPlace, execCommandPlace, commandPlace_closed closed]
  · have acts : placeOne (keptFrom [] s []) s c = some (placeOn s c gs) :=
      (placeOne_new free goes unplaced compute ready).trans (placeNew_free nonempty lowest awake settled)
    have queue : placeQueue s = [] ++ c :: r := queue
    have stuck (i : Nat) (b : Cmd) (at_i : ([] : List Cmd)[i]? = some b) : placeOne (keptFrom [] s ([].take i)) s b = none := by
      rw [List.getElem?_nil] at at_i
      exact absurd at_i (Option.some_ne_none b).symm
    rw [exec_commandPlace, execCommandPlace, commandPlace_first queue stuck acts runs (.inl ready)]

end Sys2Proof.Proofs
end

section
/-! Deadlines: a check of the slack notes what it found in the command's record, whatever else it does (R342, R402). -/
namespace Sys2Proof.Proofs

open Sys2Proof.Machine Sys2Proof.Laws Sys2Proof.Safety

/-- A placed command, at its deadline's tick, that is already recorded at risk, and whose slack has not been noted yet. -/
def riskyCommand : Cmd := { newCmd 5 0x0304 0 with stage := .running, steps := 1, stepsPlanned := 1, placedAt := some 0, atRisk := true }

/-- The scheduler core runs, and the command's deadline of 1,000 µs, 38,400 ticks, is now. -/
def atItsDeadline : State :=
  { setSlot State.reset 5 (setBits 0 (8 * 8) 64 1000000) with
    now := 38400
    dev := .ready
    fw := { State.reset.fw with procs := [(2, { Proc.reset with state := .running })] }
    lease := { Lease.reset with state := .held, expiry := 3840000 }
    sessions := [(0, { Session.reset with state := .opened })]
    cmds := [riskyCommand] }

theorem exec_slackCheck_atItsDeadline : exec (.slackCheck 5) atItsDeadline = .next (slackCheck atItsDeadline 5) := by
  rw [exec_slackCheck, execSlackCheck, if_pos (show procRunning atItsDeadline 2 = true by decide +kernel)]
  rfl

/-- The slack that the check finds, 0 ticks, is noted; before it none was. -/
theorem slackCheck_atItsDeadline_slack :
    (slackCheck atItsDeadline 5).cmds.map (·.slack) = [some 0] ∧ riskyCommand.slack = none := by decide +kernel

/-- Refutes O49: a SLACK_CHECK of a command that is already recorded at risk does not leave the state as it is: it notes the slack it found
in the command, which the adaptation of clocks reads (R342, R402). -/
theorem not_deadlinesAndLease : ¬ Obligations.DeadlinesAndLease := by
  intro ⟨checks, _⟩
  obtain ⟨-, -, -, early, -⟩ := checks 5 atItsDeadline riskyCommand
    (by decide +kernel) (by decide)
  have unchanged : exec (.slackCheck 5) atItsDeadline = .next atItsDeadline :=
    (early 38400 (by decide +kernel) (by decide +kernel) (by decide +kernel) (by decide +kernel)).2 (.inr rfl)
  rw [exec_slackCheck_atItsDeadline] at unchanged
  have same : slackCheck atItsDeadline 5 = atItsDeadline := Host.Outcome.next.inj unchanged
  have ⟨noted, unnoted⟩ := slackCheck_atItsDeadline_slack
  have kept : atItsDeadline.cmds.map (·.slack) = [none] := congrArg (fun x => [x]) unnoted
  rw [same, kept] at noted
  exact absurd noted (by decide)

end Sys2Proof.Proofs
end

section
/-! Firmware processors: what crashes one, what a crash contains, and what a restart finds (R357, R358, R365, R369 to R373, R378, R411). -/
namespace Sys2Proof.Proofs

open Sys2Proof.Machine Sys2Proof.Laws Sys2Proof.Safety

/-! ### A processor moved from state to state -/

section
variable {s t : State} {i j : Nat}

theorem releaseCollected_frame (s : State) (i : Nat) : RasOnly s (releaseCollected s i) := by
  have handed (xs : List Detected) : ∀ s, RasOnly s (xs.foldl handRecord s) := by
    induction xs with
    | nil => exact RasOnly.refl
    | cons x xs ih => exact fun s => (handRecord_frame s x).trans (ih _)
  unfold releaseCollected
  exact RasOnly.trans ⟨_, rfl⟩ (handed _ _)

/-- A processor as `moveProc` leaves it. -/
def movedTo (p : Proc) (st : ProcState) : Proc :=
  { p with state := st, down := if st = .running then false else p.down || st == .crashed || st == .fenced }

/-- A move changes its processor, and beside it the RAS unit and the log alone. -/
theorem moveProc_frame (s : State) (i : Nat) (st : ProcState) (cause pc : Nat) :
    ∃ r l m, moveProc s i st cause pc = { setProc s i (movedTo (procOf s i) st) with ras := r, log := l, pmem := m } := by
  have fenced (u : State) : RasOnly u (if st = .fenced then fenceSource u (0x8000 + i) else u) := by
    split
    · exact ⟨_, rfl⟩
    · exact .refl u
  have released (u : State) : RasOnly u (if st = .crashed ∨ st = .restarting then u else releaseCollected u i) := by
    split
    · exact .refl u
    · exact releaseCollected_frame u i
  obtain ⟨r, ras⟩ := (fenced (setProc s i (movedTo (procOf s i) st))).trans (released _)
  exact (logAdd_frame _ _ _ _ _).elim fun l ⟨m, logged⟩ =>
    ⟨r, l, m, logged.trans (congrArg (fun u : State => { u with log := l, pmem := m }) ras)⟩

theorem procOf_moveProc {st : ProcState} (live : st ≠ .reset) (cause pc : Nat) :
    procOf (moveProc s i st cause pc) j = if j = i then movedTo (procOf s i) st else procOf s j := by
  obtain ⟨r, l, m, moved⟩ := moveProc_frame s i st cause pc
  rw [moved]
  exact procOf_setProc s i j (fun reset => live (congrArg Proc.state reset))

theorem moveProc_dev (st : ProcState) (cause pc : Nat) : (moveProc s i st cause pc).dev = s.dev := by
  obtain ⟨r, l, m, moved⟩ := moveProc_frame s i st cause pc
  rw [moved]
  rfl

theorem moveProc_lease (st : ProcState) (cause pc : Nat) : (moveProc s i st cause pc).lease = s.lease := by
  obtain ⟨r, l, m, moved⟩ := moveProc_frame s i st cause pc
  rw [moved]
  rfl

theorem moveProc_now (st : ProcState) (cause pc : Nat) : (moveProc s i st cause pc).now = s.now := by
  obtain ⟨r, l, m, moved⟩ := moveProc_frame s i st cause pc
  rw [moved]
  rfl

/-! ### Reports -/

/-- A record that is not FATAL changes the RAS unit alone. -/
theorem report_rasOnly (s : State) {a : ErrArgs} (mild : causeSeverity a.cause ≠ 3) : RasOnly s (report s a) := by
  obtain ⟨r, d, l, reported, stands⟩ := report_frame s a
  obtain ⟨rfl, rfl⟩ := stands mild
  exact ⟨r, reported⟩

/-- A FATAL record halts the device (R411). -/
theorem report_fatal_dev {a : ErrArgs} (fatal : causeSeverity a.cause = 3) (single : coalesced a.cause = false) :
    (report s a).dev = .fwHalt := by
  have new (u : State) : takeOccurrence u a = none := by
    have stored : u.ras.store.any (takesOccurrence u.now a) = false :=
      List.any_eq_false.2 fun r _ => by simp only [takesOccurrence, single, Bool.false_and, Bool.false_eq_true, not_false_eq_true]
    rw [takeOccurrence]
    simp only [stored, single, Bool.false_and, List.any_eq_true, Bool.false_eq_true, and_false, exists_false, if_false]
  rw [report]
  simp only [new, if_pos fatal]
  rfl

/-! ### What crashes a processor (R357, R358) -/

theorem crashProc_idle (idle : ¬ ((procOf s i).state = .running ∨ (procOf s i).state = .frozen)) (cause pc : Nat) :
    crashProc s i cause pc = s := if_pos (.inr (not_or.1 idle))

/-- A crash counted in the record of its processor (R358). -/
def countedCrash (p : Proc) (now cause : Nat) : Proc :=
  { p with
    lastCause := cause
    crashes := min (p.crashes + 1) 0xFFFFFFFF
    crashTimes := (now :: p.crashTimes).take 3
    lastCrash := now }

theorem procOf_countCrash (cause : Nat) :
    procOf (countCrash s i cause) j = if j = i then countedCrash (procOf s i) s.now cause else procOf s j :=
  procOf_setProc s i j (fun reset => absurd (congrArg Proc.crashTimes reset) (List.cons_ne_nil _ _))

theorem rollBack_proven (proven : s.now ≥ tget 0 s.fw.probation (kindOf i)) (pc : Nat) : rollBack s i pc = s :=
  if_neg (Nat.not_lt.2 proven)

/-- The end of a running processor of a device that is not starting, its image not on probation: all but what the crash of its kind does
beyond it. -/
theorem stopProc_running (running : (procOf s i).state = .running) (started : s.dev ≠ .starting)
    (proven : s.now ≥ tget 0 s.fw.probation (kindOf i)) (cause pc : Nat) :
    ∃ u, stopProc s i cause pc = containCrash u i ∧ u.dev = s.dev ∧ u.lease = s.lease ∧ u.now = s.now ∧
      ∀ j, procOf u j = if j = i then
        movedTo (countedCrash (procOf s i) s.now cause) (if (procOf s i).kicked then .crashed else .fenced) else procOf s j := by
  let counted : State :=
    { countCrash s i cause with ras := { s.ras with handlers := tset Handler.reset s.ras.handlers i Handler.reset } }
  have goes : (if (procOf s i).state = .running ∧ (!(procOf s i).kicked) = true then ProcState.fenced else .crashed) =
      if (procOf s i).kicked then .crashed else .fenced := by
    rw [running]
    cases (procOf s i).kicked <;> rfl
  have out : (if (procOf s i).kicked then ProcState.crashed else .fenced) ≠ .reset := by
    cases (procOf s i).kicked <;> decide
  obtain ⟨r, l, m, moved⟩ := moveProc_frame counted i (if (procOf s i).kicked then .crashed else .fenced) cause pc
  refine ⟨moveProc counted i (if (procOf s i).kicked then .crashed else .fenced) cause pc, ?_, moveProc_dev .., moveProc_lease ..,
    moveProc_now .., fun j => ?_⟩
  · have unrolled : rollBack (moveProc counted i (if (procOf s i).kicked then .crashed else .fenced) cause pc) i pc =
        moveProc counted i (if (procOf s i).kicked then .crashed else .fenced) cause pc :=
      rollBack_proven (by rw [moved]; exact proven) pc
    have thawed : ¬ (procOf s i).state = .frozen := by rw [running]; decide
    rw [stopProc]
    refine (if_neg started).trans ?_
    simp only [goes, if_neg thawed]
    exact congrArg (containCrash · i) unrolled
  · rw [procOf_moveProc out]
    have own (j : Nat) : procOf counted j = _ := procOf_countCrash cause
    rw [own, own, if_pos rfl]
    split <;> rfl

theorem crashProc_running (listed : i < 35) (running : (procOf s i).state = .running) (started : s.dev ≠ .starting)
    (proven : s.now ≥ tget 0 s.fw.probation (kindOf i)) (cause pc : Nat) :
    ∃ u, crashProc s i cause pc = containCrash u i ∧ u.dev = s.dev ∧ u.lease = s.lease ∧ u.now = s.now ∧
      ∀ j, procOf u j = if j = i then
        movedTo (countedCrash (procOf s i) s.now cause) (if (procOf s i).kicked then .crashed else .fenced) else procOf s j := by
  obtain ⟨r, recorded⟩ : RasOnly s (crashRecord s i cause pc) := report_rasOnly s (show causeSeverity 0x1F ≠ 3 by decide)
  have live : ¬ (i ≥ 35 ∨ ((procOf s i).state ≠ .running ∧ (procOf s i).state ≠ .frozen)) :=
    not_or.2 ⟨Nat.not_le.2 listed, fun idle => idle.1 running⟩
  have stopped : crashProc s i cause pc = stopProc { s with ras := r } i cause pc := by
    rw [crashProc, ← recorded]
    exact if_neg live
  rw [stopped]
  exact stopProc_running (s := { s with ras := r }) running started proven cause pc

/-! ### What a crash contains (R369 to R373) -/

/-- A change of the power state alone. -/
def PowerOnly (s t : State) : Prop := ∃ x, t = { s with pwr := x }

theorem PowerOnly.refl (s : State) : PowerOnly s s := ⟨s.pwr, rfl⟩

theorem PowerOnly.trans {a b c : State} (first : PowerOnly a b) (second : PowerOnly b c) : PowerOnly a c := by
  obtain ⟨x, rfl⟩ := first
  obtain ⟨y, rfl⟩ := second
  exact ⟨y, rfl⟩

theorem foldl_powerOnly {α : Type} {f : State → α → State} (step : ∀ s x, PowerOnly s (f s x)) (xs : List α) (s : State) :
    PowerOnly s (xs.foldl f s) := by
  induction xs generalizing s with
  | nil => exact .refl s
  | cons x xs ih => exact (step s x).trans (ih (f s x))

theorem setCluster_powerOnly (s : State) (g : Nat) (c : ClusterPower) : PowerOnly s (setCluster s g c) := ⟨_, rfl⟩

theorem capAll_powerOnly (s : State) : PowerOnly s (capAll s) := foldl_powerOnly (fun s g => setCluster_powerOnly s g _) _ s

theorem containCrash_scheduler (s : State) : containCrash s 2 =
    if s.dev = .fwHalt then s else if (procOf s 2).state = .fenced then halt s else { s with dev := .restarting } := rfl

theorem procOf_containCrash (s : State) (i j : Nat) : procOf (containCrash s i) j = procOf s j := by
  match i with
  | 0 => rfl
  | 1 =>
    obtain ⟨x, capped⟩ := capAll_powerOnly { s with pwr := { s.pwr with entering := [] } }
    rw [containCrash, capped]
    rfl
  | 2 =>
    rw [containCrash_scheduler]
    split
    · rfl
    · split <;> rfl
  | _ + 3 => rfl

theorem containCrash_halts (ready : s.dev = .ready) (halts : i = 0 ∨ (i = 2 ∧ (procOf s 2).state = .fenced)) :
    containCrash s i = halt s := by
  have up : ¬ s.dev = .fwHalt := by rw [ready]; decide
  rcases halts with rfl | ⟨rfl, fenced⟩
  · rfl
  · exact (if_neg up).trans (if_pos fenced)

theorem containCrash_goesOn (ready : s.dev = .ready) (goesOn : ¬ (i = 0 ∨ (i = 2 ∧ (procOf s 2).state = .fenced))) :
    (containCrash s i).dev = (if i = 2 then .restarting else .ready) ∧ (containCrash s i).lease = s.lease := by
  match i with
  | 0 => exact absurd (.inl rfl) goesOn
  | 1 =>
    obtain ⟨x, capped⟩ := capAll_powerOnly { s with pwr := { s.pwr with entering := [] } }
    rw [containCrash, capped]
    exact ⟨ready, rfl⟩
  | 2 =>
    have up : ¬ s.dev = .fwHalt := by rw [ready]; decide
    have restarts : containCrash s 2 = { s with dev := .restarting } :=
      (if_neg up).trans (if_neg fun fenced => goesOn (.inr ⟨rfl, fenced⟩))
    rw [restarts]
    exact ⟨rfl, rfl⟩
  | _ + 3 => exact ⟨ready.trans (if_neg (by omega)).symm, rfl⟩

end

/-- A live processor: what its own events do (R357). -/
theorem exec_ofLive (proc : BitVec 6) (pc : BitVec 64) (s : State) :
    let i := proc.toNat
    let p := procOf s i
    i < 35 → (p.state = .running ∨ p.state = .frozen) →
      exec (.watchdogKick proc) s = .next (setProc s i { p with lastKick := s.now, kicked := true }) ∧
        exec (.localMemoryUe proc pc) s =
          .next (crashProc (report s ⟨0x02, 0x8000 + i, none, 0xFF, 0xFF, 0, 6 * 65536, 0⟩) i 4 pc.toNat) := by
  intro i p listed live
  rw [exec_watchdogKick, execWatchdogKick, exec_localMemoryUe, execLocalMemoryUe]
  exact ⟨congrArg Host.Outcome.next ((if_neg (Nat.not_le.2 listed)).trans (if_pos live)), congrArg Host.Outcome.next (if_pos ⟨listed, live⟩)⟩

theorem exec_watchdogExpiry_late {proc : BitVec 6} {s : State}
    (late : (procOf s proc.toNat).lastKick + ticksCeil (watchdogNs proc.toNat) ≤ s.now) (pc : BitVec 64) :
    exec (.watchdogExpiry proc pc) s = .next (crashProc s proc.toNat 1 pc.toNat) := by
  rw [exec_watchdogExpiry, execWatchdogExpiry]
  exact congrArg Host.Outcome.next (if_pos late)

theorem exec_watchdogExpiry_early {proc : BitVec 6} {s : State}
    (early : s.now < (procOf s proc.toNat).lastKick + ticksCeil (watchdogNs proc.toNat)) (pc : BitVec 64) :
    exec (.watchdogExpiry proc pc) s = .next s := by
  rw [exec_watchdogExpiry, execWatchdogExpiry]
  exact congrArg Host.Outcome.next (if_neg (Nat.not_le.2 early))

/-- A processor that is not live: a kick is counted, the rest is ignored (R357, R358). -/
theorem exec_ofIdle (proc : BitVec 6) (pc : BitVec 64) (inHandler : Bool) (s : State) :
    let i := proc.toNat
    let p := procOf s i
    i < 35 → ¬ (p.state = .running ∨ p.state = .frozen) →
      exec (.watchdogKick proc) s = .next (setProc s i { p with stray := min (p.stray + 1) 0xFF }) ∧
        exec (.trap proc pc inHandler) s = .next s ∧ exec (.haltWrite proc pc) s = .next s ∧
        exec (.localMemoryUe proc pc) s = .next s ∧ exec (.watchdogExpiry proc pc) s = .next s := by
  intro i p listed idle
  have ignored (cause : Nat) : crashProc s i cause pc.toNat = s := crashProc_idle idle cause _
  refine ⟨?_, ?_, ?_, ?_, ?_⟩
  · rw [exec_watchdogKick, execWatchdogKick]
    exact congrArg Host.Outcome.next ((if_neg (Nat.not_le.2 listed)).trans (if_neg idle))
  · rw [exec_trap, execTrap, ignored]
  · rw [exec_haltWrite, execHaltWrite, ignored]
  · rw [exec_localMemoryUe, execLocalMemoryUe]
    exact congrArg Host.Outcome.next (if_neg fun live => idle live.2)
  · rw [exec_watchdogExpiry, execWatchdogExpiry, ignored, ite_self]

/-- Settles O51. -/
theorem processorCrashes : Obligations.ProcessorCrashes := by
  refine ⟨fun proc pc inHandler s => ?_, fun s i cause pc listed running ready _ proven => ?_⟩
  · intro i p live listed
    refine ⟨fun live => ?_, exec_ofIdle proc pc inHandler s listed⟩
    obtain ⟨kicked, erred⟩ := exec_ofLive proc pc s listed live
    exact ⟨kicked, rfl, rfl, erred, fun late => exec_watchdogExpiry_late late pc, fun early => exec_watchdogExpiry_early early pc⟩
  · have started : s.dev ≠ .starting := by rw [ready]; decide
    obtain ⟨u, crashed, dev, lease, now, procs⟩ := crashProc_running listed running started proven cause pc
    intro t halts
    have contained : t = containCrash u i := crashed
    have own : procOf t i = movedTo (countedCrash (procOf s i) s.now cause) (if (procOf s i).kicked then .crashed else .fenced) := by
      rw [contained, procOf_containCrash, procs, if_pos rfl]
    have fences : halts ↔ i = 0 ∨ (i = 2 ∧ (procOf u 2).state = .fenced) := by
      refine or_congr_right (and_congr_right fun at2 => ?_)
      subst at2
      rw [procs, if_pos rfl]
      show (procOf s 2).kicked = false ↔ (if (procOf s 2).kicked then ProcState.crashed else .fenced) = .fenced
      cases (procOf s 2).kicked <;> decide
    refine ⟨by rw [own]; rfl, by rw [own]; rfl, by rw [own]; rfl, by rw [own]; rfl, ?_, ?_, fun j other => ?_⟩
    · by_cases down : halts
      · rw [if_pos down, contained, containCrash_halts (dev.trans ready) (fences.1 down)]
        rfl
      · rw [if_neg down, contained, (containCrash_goesOn (dev.trans ready) (mt fences.2 down)).1]
    · by_cases down : halts
      · rw [if_pos down, contained, containCrash_halts (dev.trans ready) (fences.1 down), halt, lease, now]
      · rw [if_neg down, contained, (containCrash_goesOn (dev.trans ready) (mt fences.2 down)).2, lease]
    · rw [contained, procOf_containCrash, procs, if_neg other]

end Sys2Proof.Proofs
end

section
/-! Restarts: what the restart rows do, and what a restart leaves of its processor and of the device (R358, R362, R369 to R373, R411). -/
namespace Sys2Proof.Proofs

open Sys2Proof.Machine Sys2Proof.Laws Sys2Proof.Safety

/-! ### A processor restarted, or fenced (R358, R373) -/

/-- A processor fenced for good; what it does when it is the scheduler or the security core. -/
def fencedFor (s : State) (i cause : Nat) : State :=
  let t := moveProc (setProc s i { procOf s i with lastCause := cause }) i .fenced cause 0
  if i = 0 ∨ i = 2 then halt t else t

section
variable {s : State} {i : Nat}

theorem procOf_fencedFor (cause : Nat) :
    procOf (fencedFor s i cause) i = movedTo (procOf (setProc s i { procOf s i with lastCause := cause }) i) .fenced := by
  have own := procOf_moveProc (s := setProc s i { procOf s i with lastCause := cause }) (i := i) (j := i) (st := .fenced) (by decide) cause 0
  rw [if_pos rfl] at own
  rw [fencedFor, ← own]
  dsimp only
  split <;> rfl

theorem fencedFor_dev (cause : Nat) (needed : i = 0 ∨ i = 2) : (fencedFor s i cause).dev = .fwHalt := by
  rw [fencedFor]
  exact (congrArg State.dev (if_pos needed)).trans rfl

theorem restartProc_third (third : thirdCrash (procOf s i) = true) : restartProc s i = fencedFor s i (procOf s i).lastCause :=
  if_pos third

theorem restartProc_bad (apart : thirdCrash (procOf s i) = false) (bad : retainedGood (moveProc s i .restarting 0 0) i = false) :
    restartProc s i = fencedFor (countCrash (crashRecord (moveProc s i .restarting 0 0) i 6 0) i 6) i 6 := by
  have bad : (!retainedGood (moveProc s i .restarting 0 0) i) = true := by rw [bad]; rfl
  exact (if_neg (ne_true_of_eq_false apart)).trans (if_pos bad)

/-- A restarting processor released with its image. -/
def released (s : State) (i : Nat) : State :=
  let t := moveProc (loadLocal s i) i .running 0 0
  setProc t i { procOf t i with lastKick := t.now, kicked := false }

theorem restartProc_good (apart : thirdCrash (procOf s i) = false) (good : retainedGood (moveProc s i .restarting 0 0) i = true) :
    restartProc s i = released (moveProc s i .restarting 0 0) i := by
  have good : ¬ (!retainedGood (moveProc s i .restarting 0 0) i) = true := by rw [good]; exact Bool.false_ne_true
  exact (if_neg (ne_true_of_eq_false apart)).trans (if_neg good)

theorem released_runs : (procOf (released s i) i).state = .running ∧ (procOf (released s i) i).lastKick = s.now ∧
    (procOf (released s i) i).kicked = false ∧ (released s i).dev = s.dev := by
  have moved : procOf (moveProc (loadLocal s i) i .running 0 0) i = movedTo (procOf (loadLocal s i) i) .running := by
    rw [procOf_moveProc (by decide), if_pos rfl]
  have own : procOf (released s i) i =
      { movedTo (procOf (loadLocal s i) i) .running with lastKick := s.now, kicked := false } := by
    rw [released, moved, moveProc_now]
    refine (procOf_setProc _ i i fun reset => absurd (congrArg Proc.state reset) ?_).trans (if_pos rfl)
    exact fun running : ProcState.running = .reset => ProcState.noConfusion running
  rw [own]
  exact ⟨rfl, rfl, rfl, moveProc_dev ..⟩

/-! ### The restart rows -/

theorem cccMayRestart_iff {g : Nat} :
    cccMayRestart s g = true ↔ mayRestart s (3 + g) = true ∧ ∀ j, j < g → (procOf s (3 + j)).state ≠ .crashed := by
  simp only [cccMayRestart, Bool.and_eq_true, List.all_eq_true, List.mem_range, decide_eq_true_eq]

theorem exec_schRestart_may (may : mayRestart s 2 = true) : exec .schRestart s = .next (settle (schRestart s)) := by
  rw [exec_schRestart, execSchRestart, if_pos may]

theorem schRestart_stops (down : procRunning (restartProc s 2) 2 = false) : schRestart s = restartProc s 2 :=
  if_pos (by rw [down]; rfl)

theorem schRestart_runs (runs : procRunning (restartProc s 2) 2 = true) :
    schRestart s = if (readJournal (restartProc s 2)).dev = .restarting
      then { readJournal (restartProc s 2) with dev := returnState (readJournal (restartProc s 2)) } else readJournal (restartProc s 2) :=
  if_neg (by rw [runs]; exact Bool.false_ne_true)

theorem readJournal_whole (whole : journalLost s = false) : readJournal s = s := if_neg (ne_true_of_eq_false whole)

theorem readJournal_lost (lost : journalLost s = true) :
    readJournal s = report s { cause := 0x31, source := 0x8002, addr := fwBase 0 + 0x2F00000, info0 := 1 } := if_pos lost

/-- The lease's timer goes on from where a suspension left it (R372). -/
def timerOn (s : State) : State :=
  match s.lease.suspendedAt with
  | some t => { s with lease := { s.lease with expiry := s.lease.expiry + (s.now - t), suspendedAt := none } }
  | none => s

/-- The device state returns unless a FATAL record or a fenced scheduler core holds the device halted (R372, R411). -/
def unhalted (s : State) : State :=
  if s.ras.fatals > 0 ∨ (procOf s 2).state = .fenced then s
  else { s with dev := if procRunning s 2 then returnState s else .restarting }

theorem timerOn_suspended {t : Nat} (stood : s.lease.suspendedAt = some t) :
    timerOn s = { s with lease := { s.lease with expiry := s.lease.expiry + (s.now - t), suspendedAt := none } } := by
  rw [timerOn, stood]

theorem unhalted_halted (held : s.ras.fatals ≠ 0 ∨ (procOf s 2).state = .fenced) : unhalted s = s :=
  if_pos (held.imp_left Nat.pos_of_ne_zero)

theorem unhalted_free (sound : s.ras.fatals = 0) (unfenced : (procOf s 2).state ≠ .fenced) :
    unhalted s = { s with dev := if procRunning s 2 then returnState s else .restarting } :=
  if_neg (by rw [sound]; exact fun held => held.elim (Nat.lt_irrefl 0) unfenced)

theorem exec_secRestart_may (may : mayRestart s 0 = true) : exec .secRestart s =
    .next (if !procRunning (restartProc s 0) 0 then restartProc s 0 else unhalted (timerOn (restartProc s 0))) := by
  rw [exec_secRestart, execSecRestart]
  exact congrArg Host.Outcome.next ((if_pos may).trans rfl)

theorem exec_secRestart_runs {t : Nat} (may : mayRestart s 0 = true) (runs : procRunning (restartProc s 0) 0 = true)
    (stood : (restartProc s 0).lease.suspendedAt = some t) :
    let u := restartProc s 0
    exec .secRestart s =
      .next (unhalted { u with lease := { u.lease with expiry := u.lease.expiry + (u.now - t), suspendedAt := none } }) := by
  rw [exec_secRestart_may may, timerOn_suspended stood, runs]
  rfl

end

/-- A restart row of a processor that may not be restarted. -/
theorem exec_restart_not (cluster : BitVec 5) (s : State) :
    (mayRestart s (3 + cluster.toNat) = false → exec (.cccRestart cluster) s = .next s) ∧
      (mayRestart s 2 = false → exec .schRestart s = .next s) ∧ (mayRestart s 1 = false → exec .pwrRestart s = .next s) ∧
      (mayRestart s 0 = false → exec .secRestart s = .next s) := by
  refine ⟨fun no => ?_, fun no => ?_, fun no => ?_, fun no => ?_⟩
  · have waits : ¬ cccMayRestart s cluster.toNat = true := fun may => ne_true_of_eq_false no (cccMayRestart_iff.1 may).1
    rw [exec_cccRestart, execCccRestart, if_neg waits]
  · rw [exec_schRestart, execSchRestart, if_neg (ne_true_of_eq_false no)]
  · rw [exec_pwrRestart, execPwrRestart, if_neg (ne_true_of_eq_false no)]
  · rw [exec_secRestart, execSecRestart]
    exact congrArg Host.Outcome.next (if_neg (ne_true_of_eq_false no))

/-- Settles O52. -/
theorem processorRestarts : Obligations.ProcessorRestarts := by
  refine ⟨fun cluster s => ⟨fun may => ?_, cccMayRestart_iff, fun may => ⟨fun down => ?_, fun runs whole halted => ?_,
    fun runs whole up => ?_, fun runs lost => ?_⟩, fun may => ?_, fun may => ⟨fun down => ?_, fun t runs stood => ?_⟩,
    exec_restart_not cluster s⟩, fun s i _ _ => ⟨fun third => ?_, fun apart bad => ?_, fun apart good => ?_⟩, fun kind s => ?_⟩
  · rw [exec_cccRestart, execCccRestart, if_pos may]
    rfl
  · rw [exec_schRestart_may may, schRestart_stops down]
  · rw [exec_schRestart_may may, schRestart_runs runs, readJournal_whole whole, if_pos halted]
  · rw [exec_schRestart_may may, schRestart_runs runs, readJournal_whole whole, if_neg up]
  · intro u
    have halts : u.dev = .fwHalt := report_fatal_dev rfl rfl
    have up : ¬ u.dev = .restarting := by rw [halts]; decide
    refine ⟨?_, halts⟩
    rw [exec_schRestart_may may, schRestart_runs runs, readJournal_lost lost]
    exact congrArg (fun t => Host.Outcome.next (settle t)) (if_neg up)
  · rw [exec_pwrRestart, execPwrRestart, if_pos may]
  · rw [exec_secRestart_may may, down]
    rfl
  · intro v
    have done : exec .secRestart s = .next (unhalted v) := exec_secRestart_runs may runs stood
    refine ⟨fun sound running => ?_, fun sound stopped unfenced => ?_, fun held => ?_⟩
    · have unfenced : (procOf v 2).state ≠ .fenced := by rw [show (procOf v 2).state = .running from running]; decide
      have runs : procRunning v 2 = true := beq_iff_eq.2 running
      rw [done, unhalted_free (s := v) sound unfenced, runs]
      rfl
    · have down : procRunning v 2 = false := beq_eq_false_iff_ne.2 stopped
      rw [done, unhalted_free (s := v) sound unfenced, down]
      rfl
    · rw [done, unhalted_halted (s := v) held]
  · rw [restartProc_third third]
    exact ⟨by rw [procOf_fencedFor]; rfl, fencedFor_dev _⟩
  · have listed (u : State) : procOf (setProc u i { procOf u i with lastCause := 6 }) i = { procOf u i with lastCause := 6 } :=
      (procOf_setProc u i i fun reset => Nat.succ_ne_zero 5 (congrArg Proc.lastCause reset)).trans (if_pos rfl)
    rw [restartProc_bad apart bad]
    exact ⟨by rw [procOf_fencedFor]; rfl, by rw [procOf_fencedFor, listed]; rfl, fencedFor_dev _⟩
  · obtain ⟨running, kicked, unkicked, dev⟩ := released_runs (s := moveProc s i .restarting 0 0) (i := i)
    rw [restartProc_good apart good]
    exact ⟨running, kicked.trans (moveProc_now ..), unkicked, dev.trans (moveProc_dev ..)⟩
  · intro e
    refine ⟨fun armed late => ?_, fun kept => ?_, rfl⟩
    · rw [exec_probationEnd, execProbationEnd]
      exact congrArg Host.Outcome.next (if_pos ⟨armed, late⟩)
    · rw [exec_probationEnd, execProbationEnd]
      exact congrArg Host.Outcome.next (if_neg fun ended => kept.elim ended.1 (Nat.not_lt.2 ended.2))

end Sys2Proof.Proofs
end

section
/-! Power states: entries chosen, completed and refused, and wakes (R389 to R395, R404). -/
namespace Sys2Proof.Proofs

open Sys2Proof.Machine Sys2Proof.Laws Sys2Proof.Safety

/-! ### Entries (R390, R393) -/

section
variable {s : State} {g target : Nat}

/-- The step of a cluster's entry is over. -/
def entryEnded (s : State) (g : Nat) : State := { s with pwr := { s.pwr with entering := tset (0, 0) s.pwr.entering g (0, 0) } }

theorem stepEntry_refused (refused : clusterHeld s g = true ∨ clusterFenced s g = true) :
    stepEntry s g target = illegalPower (entryEnded s g) g (clusterPower s g).k target := if_pos refused

theorem stepEntry_last (unheld : clusterHeld s g = false) (unfenced : clusterFenced s g = false) (last : target ≤ (clusterPower s g).k + 1) :
    let u := if min target ((clusterPower s g).k + 1) = 3 then loseCluster (entryEnded s g) g else entryEnded s g
    stepEntry s g target = { u with pwr := { u.pwr with
      clusters := tset ClusterPower.reset s.pwr.clusters g { clusterPower s g with k := min target ((clusterPower s g).k + 1) } } } := by
  have allowed : ¬ (clusterHeld s g = true ∨ clusterFenced s g = true) := by
    rw [unheld, unfenced]
    exact fun refused => refused.elim Bool.false_ne_true Bool.false_ne_true
  refine ((if_neg allowed).trans (if_pos last)).trans ?_
  by_cases off : min target ((clusterPower s g).k + 1) = 3
  · simp only [if_pos off]
    rfl
  · simp only [if_neg off]
    rfl

theorem stepEntry_onward (unheld : clusterHeld s g = false) (unfenced : clusterFenced s g = false) (more : (clusterPower s g).k + 1 < target) :
    stepEntry s g target =
      setCluster (if (clusterPower s g).k + 1 = 3 then loseCluster s g else s) g { clusterPower s g with k := (clusterPower s g).k + 1 } := by
  have allowed : ¬ (clusterHeld s g = true ∨ clusterFenced s g = true) := by
    rw [unheld, unfenced]
    exact fun refused => refused.elim Bool.false_ne_true Bool.false_ne_true
  refine ((if_neg allowed).trans (if_neg (Nat.not_le.2 more))).trans ?_
  rw [Nat.min_eq_right (Nat.le_of_lt more)]

end

section
variable {s : State} {target old : Nat}

/-- Whether the device may enter K4 or K5 (R390). -/
def mayEnter (s : State) (target : Nat) : Prop := mayK4 s = true ∧ (target = 5 → mayK5 s = true)

theorem mayEnter_iff : mayEnter s target ↔ ¬ ((!mayK4 s) = true ∨ (target = 5 ∧ (!mayK5 s) = true)) := by
  simp only [mayEnter, not_or, Bool.not_eq_true', Bool.not_eq_false, not_and]

theorem completeDevice_ungranted (deep : target = 5) (ungranted : s.pwr.selfRefresh = false) : completeDevice s target old = s :=
  if_pos ⟨deep, by rw [ungranted]; rfl⟩

theorem granted_iff : (target ≠ 5 ∨ s.pwr.selfRefresh = true) ↔ ¬ (target = 5 ∧ (!s.pwr.selfRefresh) = true) := by
  simp only [not_and_or, Bool.not_eq_true', Bool.not_eq_false, ne_eq]

theorem completeDevice_refused (granted : target ≠ 5 ∨ s.pwr.selfRefresh = true) (refused : ¬ mayEnter s target) :
    completeDevice s target old = illegalPower
      { s with pwr := { s.pwr with entering := tset (0, 0) s.pwr.entering 32 (0, 0), selfRefresh := false } } 0xFF (shallowest s) target :=
  (if_neg (granted_iff.1 granted)).trans (if_pos (not_not.1 (mt mayEnter_iff.2 refused)))

/-- The device as an entry leaves it, but for what K5 loses. -/
def deviceEntered (s : State) (target old : Nat) : State :=
  let t := if old = 4 then s else (List.range 32).foldl (fun s g => loseCluster (spillCluster s g) g) s
  let u := (List.range 32).foldl (fun s g => setCluster s g { clusterPower s g with k := 3 }) t
  { u with pwr := { u.pwr with device := target, entering := [] } }

theorem completeDevice_entered (granted : target ≠ 5 ∨ s.pwr.selfRefresh = true) (may : mayEnter s target) :
    completeDevice s target old = if target = 5 then loseCaches (deviceEntered s target old) else deviceEntered s target old :=
  (if_neg (granted_iff.1 granted)).trans (if_neg (mayEnter_iff.1 may))

theorem completeDevice_power (granted : target ≠ 5 ∨ s.pwr.selfRefresh = true) (may : mayEnter s target) :
    let t := completeDevice s target old
    t.pwr.device = target ∧ t.pwr.entering = [] ∧
      (target = 5 → t.xlt.coreCache = [] ∧ t.xlt.dieCache = [] ∧ t.xlt.walkCache = [] ∧ t.xlt.hamper = []) := by
  intro t
  have entered : t = _ := completeDevice_entered granted may
  by_cases deep : target = 5
  · rw [if_pos deep] at entered
    rw [entered]
    exact ⟨rfl, rfl, fun _ => ⟨rfl, rfl, rfl, rfl⟩⟩
  · rw [if_neg deep] at entered
    rw [entered]
    exact ⟨rfl, rfl, fun five => absurd five deep⟩

end

section
variable {cluster : BitVec 5} {s : State}

theorem exec_stateEntryComplete_cluster (entering : tget (0, 0) s.pwr.entering cluster.toNat ≠ (0, 0)) :
    exec (.stateEntryComplete cluster) s = .next (stepEntry s cluster.toNat (tget (0, 0) s.pwr.entering cluster.toNat).1) := by
  rw [exec_stateEntryComplete, execStateEntryComplete]
  exact congrArg Host.Outcome.next (if_pos entering)

theorem exec_stateEntryComplete_device (still : tget (0, 0) s.pwr.entering cluster.toNat = (0, 0))
    (entering : tget (0, 0) s.pwr.entering 32 ≠ (0, 0)) :
    exec (.stateEntryComplete cluster) s =
      .next (completeDevice s (tget (0, 0) s.pwr.entering 32).1 (tget (0, 0) s.pwr.entering 32).2) := by
  rw [exec_stateEntryComplete, execStateEntryComplete]
  exact congrArg Host.Outcome.next ((if_neg (not_not.2 still)).trans (if_pos entering))

theorem exec_stateEntryComplete_none (still : tget (0, 0) s.pwr.entering cluster.toNat = (0, 0))
    (awake : tget (0, 0) s.pwr.entering 32 = (0, 0)) : exec (.stateEntryComplete cluster) s = .next s := by
  rw [exec_stateEntryComplete, execStateEntryComplete]
  exact congrArg Host.Outcome.next ((if_neg (not_not.2 still)).trans (if_neg (not_not.2 awake)))

theorem exec_stateChoice_awake (firmware : procRunning s 1 = true) (still : tget (0, 0) s.pwr.entering 32 = (0, 0))
    (unwoken : s.pwr.wakeDevice = false) (awake : s.pwr.device = 0) :
    let next := nextEvent s
    let k := chooseState s next
    exec .stateChoice s = .next (armWake (if 4 ≤ k then startEntry s 32 k 0
      else (sleepers s k).foldl (fun s g => startEntry s g k (clusterPower s g).k) s) next k) := by
  intro next k
  have held : ¬ ((!procRunning s 1 || decide (tget (0, 0) s.pwr.entering 32 ≠ (0, 0)) || s.pwr.wakeDevice) = true) := by
    rw [firmware, still, unwoken]
    decide
  have shallow : ¬ (s.pwr.device = 4 ∧ k = 5) ∧ ¬ s.pwr.device ≥ 4 := by omega
  rw [exec_stateChoice, execStateChoice]
  refine congrArg Host.Outcome.next (((if_neg held).trans (if_neg shallow.1)).trans ((if_neg shallow.2).trans ?_))
  by_cases deep : 4 ≤ k
  · rw [if_pos deep, if_pos deep]
  · rw [if_neg deep, if_neg deep]

theorem exec_stateChoice_down (down : procRunning s 1 = false) : exec .stateChoice s = .next s := by
  rw [exec_stateChoice, execStateChoice]
  exact congrArg Host.Outcome.next (if_pos (by rw [down]; rfl))

/-- Power-management firmware is not down: it runs, or is fenced (R371, R373). -/
theorem firmware_iff : (procRunning s 1 = true ∨ (procOf s 1).state = .fenced) ↔
    (!(!procRunning s 1 && decide ((procOf s 1).state ≠ .fenced))) = true := by
  simp only [Bool.not_and, Bool.not_not, Bool.or_eq_true, Bool.not_eq_true', decide_eq_false_iff_not, not_not, ne_eq]

theorem exec_clusterIdle_eq : exec (.clusterIdle cluster) s =
    .next (if (clusterPower s cluster.toNat).powered = true ∧ (clusterPower s cluster.toNat).k = 0 ∧ s.pwr.device = 0 ∧
        (procRunning s 1 = true ∨ (procOf s 1).state = .fenced) ∧ clusterIdleNow s cluster.toNat = true
      then setCluster s cluster.toNat { clusterPower s cluster.toNat with k := 1 } else s) := by
  rw [exec_clusterIdle, execClusterIdle]
  exact congrArg Host.Outcome.next (if_congr (by rw [firmware_iff]) rfl rfl)

end

/-- Settles O53. -/
theorem powerStatesAreEntered : Obligations.PowerStatesAreEntered := by
  intro cluster s g c e d ended firmware may
  refine ⟨fun powered k0 on up idle => ?_, fun stays => ?_, fun entering => ⟨fun refused => ?_, fun unheld unfenced last => ?_,
    fun unheld unfenced more => ?_⟩, exec_stateEntryComplete_none, fun still entering => ⟨fun deep ungranted => ?_, fun granted allowed => ?_,
    fun granted refused => ?_⟩, fun shallow granted => ?_, fun deep => ⟨?_, ?_⟩, exec_stateChoice_awake, exec_stateChoice_down⟩
  · rw [exec_clusterIdle_eq, if_pos ⟨powered, k0, on, up, idle⟩]
  · have no : ¬ (c.powered = true ∧ c.k = 0 ∧ s.pwr.device = 0 ∧ firmware ∧ clusterIdleNow s g = true) := by
      rintro ⟨powered, k0, on, up, idle⟩
      rcases stays with unpowered | deep | off | down | busy
      · exact ne_false_of_eq_true powered unpowered
      · exact deep k0
      · exact off on
      · exact down up
      · exact ne_false_of_eq_true idle busy
    rw [exec_clusterIdle_eq, if_neg no]
  · rw [exec_stateEntryComplete_cluster entering, stepEntry_refused refused]
    rfl
  · rw [exec_stateEntryComplete_cluster entering, stepEntry_last unheld unfenced last]
    rfl
  · rw [exec_stateEntryComplete_cluster entering, stepEntry_onward unheld unfenced more]
  · rw [exec_stateEntryComplete_device still entering, completeDevice_ungranted deep ungranted]
  · exact ⟨exec_stateEntryComplete_device still entering, completeDevice_power granted allowed⟩
  · rw [exec_stateEntryComplete_device still entering, completeDevice_refused granted refused]
  · rw [exec_selfRefreshGrant, execSelfRefreshGrant]
    exact congrArg Host.Outcome.next (if_pos shallow)
  · rw [exec_selfRefreshGrant, execSelfRefreshGrant]
    exact congrArg Host.Outcome.next (if_neg (not_not.2 deep))
  · rw [exec_selfRefreshGrant, execSelfRefreshGrant]
    exact congrArg Host.Outcome.next ((if_neg (not_not.2 deep)).trans rfl)

end Sys2Proof.Proofs
end

section
/-! Wakes: requested, started at the armed time, completed (R391, R393 to R395, R404). -/
namespace Sys2Proof.Proofs

open Sys2Proof.Machine Sys2Proof.Laws Sys2Proof.Safety

section
variable {s : State}

/-! ### Requests -/

/-- What a request for clusters does, by the fenced ones among them. -/
theorem exec_wakeRequest_eq (clusters : BitVec 32) (dieCommonOnly : Bool) :
    let cs : BitVec 32 := if dieCommonOnly then 0 else clusters
    let fenced := (List.range 32).filter (fun g => cs.getLsbD g && clusterFenced s g)
    let kept := fenced.foldl (fun (m : BitVec 32) g => m &&& ~~~((1 : BitVec 32) <<< g)) cs
    exec (.wakeRequest clusters dieCommonOnly) s = .next (requestWake
      (reverseEntries (fenced.foldl (fun s g => illegalPower s g (clusterPower s g).k 0) s) kept true) kept (!dieCommonOnly)) := rfl

theorem exec_wakeRequest_unfenced (clusters : BitVec 32) (dieCommonOnly : Bool) (unfenced : ∀ g, g < 32 → clusterFenced s g = false) :
    let cs : BitVec 32 := if dieCommonOnly then 0 else clusters
    exec (.wakeRequest clusters dieCommonOnly) s = .next (requestWake (reverseEntries s cs true) cs (!dieCommonOnly)) := by
  intro cs
  have none : (List.range 32).filter (fun g => cs.getLsbD g && clusterFenced s g) = [] :=
    List.filter_eq_nil_iff.2 fun g within => by rw [unfenced g (List.mem_range.1 within), Bool.and_false]; exact Bool.false_ne_true
  rw [exec_wakeRequest_eq]
  simp only [show (List.range 32).filter (fun g => (if dieCommonOnly then (0 : BitVec 32) else clusters).getLsbD g && clusterFenced s g) = []
    from none, List.foldl_nil]
  rfl

theorem getLsbD_one_shift {g i : Nat} (within : i < 32) : (1#32 <<< g).getLsbD i = decide (i = g) := by
  rw [BitVec.getLsbD_shiftLeft, BitVec.getLsbD_one, decide_eq_true within, Bool.eq_iff_iff]
  simp only [Bool.and_eq_true, Bool.not_eq_true', decide_eq_true_eq, decide_eq_false_iff_not, true_and]
  omega

theorem exec_wakeRequest_fenced {g : Nat} (within : g < 32) (fenced : clusterFenced s g = true) :
    exec (.wakeRequest (1#32 <<< g) false) s =
      .next (requestWake (reverseEntries (illegalPower s g (clusterPower s g).k 0) 0 true) 0 true) := by
  have only : (List.range 32).filter (fun i => (1#32 <<< g).getLsbD i && clusterFenced s i) = [g] := by
    have named : ∀ i ∈ List.range 32, ((1#32 <<< g).getLsbD i && clusterFenced s i) = (i == g) := by
      intro i listed
      rw [getLsbD_one_shift (List.mem_range.1 listed)]
      by_cases same : i = g
      · rw [same, fenced, decide_eq_true rfl, beq_self_eq_true]
        rfl
      · rw [decide_eq_false same, beq_eq_false_iff_ne.2 same, Bool.false_and]
    rw [List.filter_congr named, List.filter_beq, List.count_eq_one_of_mem List.nodup_range (List.mem_range.2 within)]
    rfl
  rw [exec_wakeRequest_eq]
  simp only [Bool.false_eq_true, if_false, only, List.foldl_cons, List.foldl_nil]
  rw [show 1#32 <<< g &&& ~~~((1 : BitVec 32) <<< g) = 0 from BitVec.and_not_self _]
  rfl

theorem requestWake_wakeFull (clusters : BitVec 32) (full : Bool) : (requestWake s clusters full).pwr.wakeFull = true ↔
    s.pwr.wakeFull = true ∨ (4 ≤ s.pwr.device ∧ (full = true ∨ clusters ≠ 0)) := by
  simp only [requestWake, Bool.or_eq_true, Bool.and_eq_true, decide_eq_true_eq, ge_iff_le]

theorem requestWake_wakeDevice (clusters : BitVec 32) (full : Bool) (off : s.pwr.device = 5) :
    (requestWake s clusters full).pwr.wakeDevice = true := by
  simp only [requestWake, off, decide_true, Bool.or_true, Bool.true_or]

/-! ### The armed time and the end of a wake -/

theorem exec_wakeStart_unarmed (unarmed : s.pwr.wakeStart = none) : exec .wakeStart s = .next s := by
  rw [exec_wakeStart, execWakeStart, unarmed]

theorem exec_wakeStart_armed {t : Nat} (armed : s.pwr.wakeStart = some t) : exec .wakeStart s =
    .next (if s.now ≥ t then beginWake { s with pwr := { s.pwr with wakeStart := none } } (dueClusters s) true else s) := by
  rw [exec_wakeStart, execWakeStart, armed]

/-- The wake asked for is over. -/
def wakeTaken (s : State) : State := { s with pwr := { s.pwr with waking := 0, wakeDevice := false, wakeFull := false } }

/-- The device out of K4 or K5. -/
def deviceUp (s : State) : State := { wakeTaken s with pwr := { (wakeTaken s).pwr with device := 0, selfRefresh := false } }

theorem exec_wakeComplete_none (unasked : s.pwr.waking = 0) (off : s.pwr.wakeDevice = false) : exec .wakeComplete s = .next s := by
  rw [exec_wakeComplete, execWakeComplete]
  exact congrArg Host.Outcome.next (if_pos ⟨unasked, by rw [off]; rfl⟩)

theorem exec_wakeComplete_asked (asked : s.pwr.waking ≠ 0 ∨ s.pwr.wakeDevice = true) : exec .wakeComplete s =
    .next (if s.pwr.device ≥ 4 ∧ (!s.pwr.wakeFull) = true then
        releaseHeld { wakeTaken s with pwr := { (wakeTaken s).pwr with device := 4, selfRefresh := false } }
      else releaseHeld (raiseClusters (if s.pwr.device ≥ 4 then (List.range 32).foldl unspillCluster (deviceUp s) else deviceUp s)
        s.pwr.waking)) := by
  have nonempty : ¬ (s.pwr.waking = 0 ∧ (!s.pwr.wakeDevice) = true) := by
    rintro ⟨unasked, off⟩
    rcases asked with asked | on
    · exact asked unasked
    · rw [on] at off
      exact Bool.false_ne_true off
  rw [exec_wakeComplete, execWakeComplete]
  exact congrArg Host.Outcome.next ((if_neg nonempty).trans rfl)

end

/-- Settles O54. -/
theorem wakesComplete : Obligations.WakesComplete := by
  intro clusters s
  refine ⟨fun unfenced => ⟨exec_wakeRequest_unfenced clusters false unfenced, exec_wakeRequest_unfenced clusters true unfenced⟩,
    fun g within fenced only => ?_, fun u full => ⟨rfl, requestWake_wakeDevice clusters full, requestWake_wakeFull clusters full⟩,
    exec_wakeStart_unarmed, fun t armed => ⟨fun early => ?_, fun due => ?_⟩, ⟨exec_wakeComplete_none, fun asked => ⟨fun off part => ?_,
    fun off full => ?_, fun on => ?_⟩⟩, ⟨_, rfl⟩⟩
  · rw [only, exec_wakeRequest_fenced within fenced]
  · rw [exec_wakeStart_armed armed, if_neg (Nat.not_le.2 early)]
  · rw [exec_wakeStart_armed armed, if_pos due]
  · rw [exec_wakeComplete_asked asked, if_pos ⟨off, by rw [part]; rfl⟩]
    rfl
  · rw [exec_wakeComplete_asked asked, if_neg (fun part => by rw [full] at part; exact Bool.false_ne_true part.2), if_pos off]
    rfl
  · rw [exec_wakeComplete_asked asked, if_neg (fun off => Nat.not_le.2 on off.1), if_neg (Nat.not_le.2 on)]
    rfl

end Sys2Proof.Proofs
end

section
/-! Clock steps: power samples, adaptation and the thermal limiter (R399 to R402). -/
namespace Sys2Proof.Proofs

open Sys2Proof.Machine Sys2Proof.Laws Sys2Proof.Safety

section
variable {s : State}

/-! ### Power samples and adaptation (R399, R400, R402) -/

theorem exec_powerSample_runs (avg100us avg1ms projected : Nat) (busiest : BitVec 32) (firmware : procRunning s 1 = true) :
    let env := envelopeWatts s.pwr.envEff
    let u : State := { s with pwr := { s.pwr with watts := avg1ms } }
    exec (.powerSample avg100us avg1ms projected busiest) s = .next (if avg100us * 100 > env * 98 then (maskClusters busiest).foldl slower u
      else if projected * 100 < env * 90 then
        (maskClusters busiest).foldl (fun s g => if (clusterPower s g).step > (clusterPower s g).cap then faster s g else s) u
      else u) := by
  rw [exec_powerSample, execPowerSample]
  exact congrArg Host.Outcome.next (if_neg (by rw [firmware]; exact Bool.false_ne_true))

theorem exec_powerSample_down (avg100us avg1ms projected : Nat) (busiest : BitVec 32) (down : procRunning s 1 = false) :
    exec (.powerSample avg100us avg1ms projected busiest) s = .next s := by
  rw [exec_powerSample, execPowerSample]
  exact congrArg Host.Outcome.next (if_pos (by rw [down]; rfl))

theorem exec_adaptation_down (busy stall cycles : Nat) (cluster : BitVec 5) (down : procRunning s 1 = false) :
    exec (.adaptation busy stall cycles cluster) s = .next s := by
  rw [exec_adaptation, execAdaptation]
  exact congrArg Host.Outcome.next (if_pos (by rw [down]; rfl))

theorem exec_adaptation_runs (busy stall cycles : Nat) (cluster : BitVec 5) (firmware : procRunning s 1 = true) :
    let g := cluster.toNat
    let en := cfgVal s 0x8002 0
    let v := adaptThresholds (adaptStep s g busy stall cycles (en.testBit 0)) (g / 4) (en.testBit 2)
    exec (.adaptation busy stall cycles cluster) s = .next (if en.testBit 3 then adaptReceivers v g else v) := by
  rw [exec_adaptation, execAdaptation]
  exact congrArg Host.Outcome.next (if_neg (by rw [firmware]; exact Bool.false_ne_true))

theorem adaptStep_eq (g busy stall cycles : Nat) (on : Bool) : adaptStep s g busy stall cycles on =
    if on = false then (if s.pwr.watts * 100 < envelopeWatts s.pwr.envEff * 90 then faster s g else s)
    else if busy * 100 < cycles * 60 ∧ busy * 30 < stall * 100 then (if tightCluster s g then s else slower s g)
    else if cycles * 90 < busy * 100 then faster s g else s := by
  cases on <;> rfl

/-- Thresholds that firmware has not raised stay as the driver committed them. -/
theorem adaptThresholds_off {d : Nat} (unraised : tget (0, 0, 0) s.pwr.demoteBase d = (0, 0, 0)) : adaptThresholds s d false = s := by
  rw [adaptThresholds]
  simp only [unraised, ne_eq, not_true_eq_false, false_and, if_false, Bool.not_false, if_true, ite_self]

/-! ### A cluster's power state set -/

theorem clusterPower_setCluster {g : Nat} {c : ClusterPower} (listed : c ≠ ClusterPower.reset)
    (fenced : c.powered = true → clusterFenced s g = true → c.k = 1) : clusterPower (setCluster s g c) g = c := by
  have own : tget ClusterPower.reset (setCluster s g c).pwr.clusters g = c := (tget_tset_listed _ g g listed).trans (if_pos rfl)
  rw [clusterPower, own]
  split
  · next both =>
    obtain ⟨powered, shut⟩ := Bool.and_eq_true_iff.1 both
    rw [← fenced powered shut]
  · rfl

theorem clusterPower_fenced {g : Nat} (powered : (clusterPower s g).powered = true) (fenced : clusterFenced s g = true) :
    (clusterPower s g).k = 1 := by
  unfold clusterPower at powered ⊢
  dsimp only at powered ⊢
  split
  · rfl
  · next apart =>
    rw [if_neg apart] at powered
    exact absurd (Bool.and_eq_true_iff.2 ⟨powered, fenced⟩) apart

theorem clusterPower_slower (s : State) (g : Nat) :
    clusterPower (slower s g) g = { clusterPower s g with step := min 3 ((clusterPower s g).step + 1) } := by
  refine clusterPower_setCluster (fun reset => ?_) clusterPower_fenced
  have stepped : min 3 ((clusterPower s g).step + 1) = 0 := congrArg ClusterPower.step reset
  omega

/-! ### The limiter (R401) -/

/-- A change of the clusters' power states alone. -/
def ClustersOnly (s t : State) : Prop := ∃ x, t = { s with pwr := { s.pwr with clusters := x } }

theorem foldl_clustersOnly {α : Type} {f : State → α → State} (step : ∀ s x, ClustersOnly s (f s x)) (xs : List α) (s : State) :
    ClustersOnly s (xs.foldl f s) := by
  induction xs generalizing s with
  | nil => exact ⟨s.pwr.clusters, rfl⟩
  | cons x xs ih =>
    obtain ⟨a, first⟩ := step s x
    obtain ⟨b, rest⟩ := ih (f s x)
    exact ⟨b, rest.trans (by rw [first])⟩

theorem setCluster_clustersOnly (s : State) (g : Nat) (c : ClusterPower) : ClustersOnly s (setCluster s g c) := ⟨_, rfl⟩

theorem limitCluster_clustersOnly (s : State) (g : Nat) (temps : List Nat) : ClustersOnly s (limitCluster s g temps) := by
  unfold limitCluster
  dsimp only
  split
  · split <;> split <;> exact setCluster_clustersOnly ..
  · split
    · split
      · exact setCluster_clustersOnly ..
      · split <;> exact setCluster_clustersOnly ..
    · exact setCluster_clustersOnly ..

theorem limitCluster_hot {g : Nat} {temps : List Nat} (hot : ∃ t ∈ temps, s.pwr.tjEff ≤ t) (first : (clusterPower s g).hotSince = none) :
    limitCluster s g temps = setCluster s g { clusterPower s g with
      cap := min 3 (clockStep (clusterPower s g) + 1), hotSince := some s.now, coolSince := none } := by
  have hot : temps.any (fun t => decide (t ≥ s.pwr.tjEff)) = true := by
    simpa only [List.any_eq_true, decide_eq_true_eq, ge_iff_le] using hot
  rw [limitCluster]
  refine (if_pos hot).trans ?_
  simp only [first]
  rfl

theorem limitDie_critical {d : Nat} {temps : List Nat} (critical : ∃ t ∈ temps, 115 ≤ t)
    (running : ∀ i, i < 4 → (clusterPower s (4 * d + i)).stopped = false) :
    ∃ i t, temps[i]? = some t ∧ 115 ≤ t ∧ limitDie s d temps = report
      (((List.range 4).map (fun i => 4 * d + i)).foldl (fun s g => setCluster s g { clusterPower s g with stopped := true }) s)
      ⟨0x23, 0xC0A0, none, 0xFF, 0xFF, 0, i, t⟩ := by
  obtain ⟨t, listed, hot⟩ := critical
  have nonempty : (temps.zipIdx.find? (fun e => decide (e.1 ≥ 115))).isSome = true := by
    obtain ⟨i, at_i⟩ := List.mem_iff_getElem?.1 listed
    exact List.find?_isSome.2 ⟨(t, i), List.mem_zipIdx_iff_getElem?.2 at_i, decide_eq_true hot⟩
  obtain ⟨⟨t, i⟩, found⟩ := Option.isSome_iff_exists.1 nonempty
  have clocked : ((List.range 4).map (fun i => 4 * d + i)).any (fun g => (clusterPower s g).stopped) = false := by
    rw [List.any_map, List.any_eq_false]
    exact fun i within => ne_true_of_eq_false (running i (List.mem_range.1 within))
  have late : decide ((t, i).1 ≥ 115) = true := List.find?_some (p := fun e : Nat × Nat => decide (e.1 ≥ 115)) found
  refine ⟨i, t, List.mem_zipIdx_iff_getElem?.1 (List.mem_of_find?_eq_some found), of_decide_eq_true late, ?_⟩
  rw [limitDie, found]
  exact if_neg (ne_true_of_eq_false clocked)

/-- The four sensors of a cluster among those of all. -/
def sensorsOf (cluster : List Nat) (g : Nat) : List Nat := (cluster.drop (4 * g)).take 4

/-- What the 1 µs average of the power does at a time, under an envelope: a trip caps every cluster, and holds the caps for 100 µs. -/
def powerTripped (s : State) (env now power1us : Nat) : State :=
  if power1us * 100 > envelopeWatts env * 110 then capAll { s with pwr := { s.pwr with powerTrip := some (now + ticksCeil 100000) } }
  else match s.pwr.powerTrip with
    | some t => if now < t then capAll s else { s with pwr := { s.pwr with powerTrip := none } }
    | none => s

theorem powerTripped_powerOnly (s : State) (env now power1us : Nat) : PowerOnly s (powerTripped s env now power1us) := by
  unfold powerTripped
  split
  · exact .trans ⟨_, rfl⟩ (capAll_powerOnly _)
  · split
    · split
      · exact capAll_powerOnly s
      · exact ⟨_, rfl⟩
    · exact .refl s

/-- Every cluster is capped while power-management firmware does not run. -/
def firmwareCapped (s : State) : State := if procRunning s 1 then s else capAll s

/-- What the sensors of the die slices do, then that of the island. -/
def slicesLimited (cluster die : List Nat) (island : Nat) (s : State) : State :=
  let t := (List.range 8).foldl (fun s d => limitDie s d ((cluster.drop (16 * d)).take 16 ++ (die.drop (4 * d)).take 4)) s
  if island ≥ 115 then report t { cause := 0x23, source := 0xC0A0, info0 := 20, info1 := island } else t

theorem exec_limiterSample_eq (cluster die : List Nat) (island power1us : Nat) :
    let t := (List.range 32).foldl (fun s g => limitCluster s g (sensorsOf cluster g)) s
    exec (.limiterSample cluster die island power1us) s =
      .next (slicesLimited cluster die island (firmwareCapped (powerTripped t t.pwr.envEff t.now power1us))) := rfl

end

/-- Settles O55. -/
theorem clocksFollowSamplesAndLimits : Obligations.ClocksFollowSamplesAndLimits := by
  refine ⟨fun avg100us avg1ms projected busy stall cycles busiest cluster s => ?_, fun cluster die island power1us s => ?_⟩
  · intro env u g
    refine ⟨fun down => ⟨exec_powerSample_down _ _ _ _ down, exec_adaptation_down _ _ _ _ down⟩,
      fun firmware => ⟨fun above => ?_, fun within full => ?_, fun within room => ?_, ?_, fun u d => adaptThresholds_off⟩,
      fun c => clusterPower_slower s c⟩
    · rw [exec_powerSample_runs _ _ _ _ firmware]
      exact congrArg Host.Outcome.next (if_pos above)
    · rw [exec_powerSample_runs _ _ _ _ firmware]
      exact congrArg Host.Outcome.next ((if_neg (Nat.not_lt.2 within)).trans (if_neg (Nat.not_lt.2 full)))
    · rw [exec_powerSample_runs _ _ _ _ firmware]
      exact congrArg Host.Outcome.next ((if_neg (Nat.not_lt.2 within)).trans (if_pos room))
    · rw [exec_adaptation_runs _ _ _ _ firmware, adaptStep_eq]
  · intro t1 t2 t3 t4
    refine ⟨?_, fun g temps hot first => limitCluster_hot hot first, fun d temps critical running => limitDie_critical critical running⟩
    obtain ⟨x, limited⟩ : ClustersOnly s t1 := foldl_clustersOnly (fun s g => limitCluster_clustersOnly s g _) _ s
    have now : t1.now = s.now := by rw [limited]
    have env : t1.pwr.envEff = s.pwr.envEff := by rw [limited]
    have tripped : powerTripped t1 t1.pwr.envEff t1.now power1us = t2 := by rw [now, env]; rfl
    obtain ⟨y, changed⟩ := powerTripped_powerOnly t1 t1.pwr.envEff t1.now power1us
    have runs : procRunning t2 1 = procRunning s 1 := by rw [← tripped, changed, limited]; rfl
    have capped : firmwareCapped t2 = t3 := by rw [firmwareCapped, runs]
    calc exec (.limiterSample cluster die island power1us) s
        = .next (slicesLimited cluster die island (firmwareCapped (powerTripped t1 t1.pwr.envEff t1.now power1us))) :=
          exec_limiterSample_eq cluster die island power1us
      _ = .next (slicesLimited cluster die island t3) := by rw [tripped, capped]

end Sys2Proof.Proofs
end

section
/-! ERR_FETCH and ERR_CLEAR (R420 to R422), by what the host bridge accepts of a long reply (R315): `Config.hostAccepts`, which the model leaves
free (log 11). ErrorRecordsAreFetchedAndCleared holds where the bridge accepts every reply whole, and fails where it refuses one byte of a
fetched record: its result word counts the records after the long reply is written, the model's before (R420), and a refusal is itself
recorded. So no proof without a value of `Config.hostAccepts` decides it. -/
namespace Sys2Proof.Proofs

open Sys2Proof.Machine Sys2Proof.Laws Sys2Proof.Safety

section
variable {s : State} {k : Nat}

theorem errFetch_body_counters (counters : paramBit (slotAt s k) 2 0 = true) :
    let l := longReply s k (errBlock s)
    (errFetchDef.body k).run s = .ok { longWritten := l.1.1, trunc := l.1.2 } l.2 := by
  simp only [errFetchDef]
  rw [run_get_bind]
  simp only [counters, if_true]
  rfl

/-- The result counts what is left unfetched before the long reply is written. -/
theorem errFetch_body_records (records : paramBit (slotAt s k) 2 0 = false) :
    let rs := fetchRecords s (param (slotAt s k) 0 16)
    let l := longReply (markFetched s rs) k (rs.flatMap errBytes)
    (errFetchDef.body k).run s =
      .ok { result := BitVec.ofNat 64 (fetchResult (markFetched s rs) rs.length), longWritten := l.1.1, trunc := l.1.2 } l.2 := by
  simp only [errFetchDef]
  rw [run_get_bind]
  simp only [records, Bool.false_eq_true, if_false]
  rfl

/-- The store as an ERR_CLEAR up to a serial number leaves it. -/
def clearedRas (r : Ras) (upto : Nat) (counts lost : Bool) : Ras :=
  let r := { r with store := r.store.filter (fun x => !(x.fetched && decide (x.serial ≤ upto))) }
  let r := if counts then { r with counts := [] } else r
  if lost then { r with lost := 0 } else r

theorem errClear_body (k : Nat) (s : State) :
    let p := slotAt s k
    let t : State := { s with ras := clearedRas s.ras (param p 0 48) (paramBit p 8 0) (paramBit p 8 1) }
    (errClearDef.body k).run s = .ok { result := BitVec.ofNat 64 (s.ras.store.length -
      (s.ras.store.filter (fun x => !(x.fetched && decide (x.serial ≤ param p 0 48)))).length) } t := rfl

theorem clearedRas_store (r : Ras) (upto : Nat) (counts lost : Bool) :
    (clearedRas r upto counts lost).store = r.store.filter (fun x => !(x.fetched && decide (x.serial ≤ upto))) := by
  cases counts <;> cases lost <;> rfl

theorem clearedRas_rest (r : Ras) (upto : Nat) (counts lost : Bool) :
    let t := clearedRas r upto counts lost
    t.counts = (if counts then [] else r.counts) ∧ t.lost = (if lost then 0 else r.lost) ∧ t.fenced = r.fenced ∧ t.fatals = r.fatals := by
  cases counts <;> cases lost <;> exact ⟨rfl, rfl, rfl, rfl⟩

theorem atWork_ras (h : Handed) (k : Nat) (cl : List ClampEntry) (s : State) : (atWork h k cl s).ras = s.ras := by
  obtain ⟨g, e, c, n, work⟩ := atWork_frame h k cl s
  rw [work]

/-- A long reply that the bridge accepts whole reports nothing. -/
theorem longReply_ras (bs : List Byte) (whole : ∀ c a n, n ≤ Config.hostAccepts c a n) : (longReply s k bs).2.ras = s.ras := by
  rw [longReply]
  dsimp only
  rw [if_neg (by rw [Nat.min_eq_left (whole _ _ _)]; exact Nat.lt_irrefl _)]

end

/-- Where the host bridge accepts every long reply whole, no record is added between the two counts. -/
theorem errorRecordsAreFetchedAndCleared_of_whole (whole : ∀ c a n, n ≤ Config.hostAccepts c a n) :
    Obligations.ErrorRecordsAreFetchedAndCleared := by
  refine ⟨fun port slot hdr h k cl s i rows row accepts => ?_, fun port slot hdr h k cl s row accepts => ?_⟩
  · intro a p
    have op : h.op = 0x0903 := by rcases rows with rfl | rfl <;> cases row <;> rfl
    have unplaced : (opDef h.op).placed = false := by rw [op]; rfl
    refine ⟨fun counters => exec_accepted accepts row unplaced (by rw [op]; exact errFetch_body_counters counters), fun records => ?_⟩
    intro rs l t
    have same : fetchResult t rs.length = fetchResult (markFetched a rs) rs.length := by
      have ras : t.ras = (markFetched a rs).ras := longReply_ras _ whole
      rw [fetchResult, fetchResult, ras]
    rw [same]
    exact exec_accepted accepts row unplaced (by rw [op]; exact errFetch_body_records records)
  · obtain rfl := Option.some.inj row
    let a := atWork ⟨port, slot, hdr, 0x0904, id⟩ k cl s
    let p := slotAt a k
    have ras : a.ras = s.ras := atWork_ras ..
    refine ⟨{ a with ras := clearedRas a.ras (param p 0 48) (paramBit p 8 0) (paramBit p 8 1) }, ?_, fun r => ?_, ?_, ?_, ?_, ?_⟩
    · rw [clearedRas_store, ← ras]
      exact exec_accepted accepts row rfl (errClear_body k a)
    · rw [clearedRas_store, ras, List.mem_filter]
      simp only [Bool.not_eq_true', Bool.and_eq_false_iff, decide_eq_false_iff_not, Nat.not_le, and_congr_right_iff]
      intro _
      cases r.fetched <;> simp [p, a]
    · exact (clearedRas_rest ..).1.trans (by rw [ras])
    · exact (clearedRas_rest ..).2.1.trans (by rw [ras])
    · exact (clearedRas_rest ..).2.2.1.trans (by rw [ras])
    · exact (clearedRas_rest ..).2.2.2.trans (by rw [ras])

/-! ### A refused byte -/

/-- A long reply of which the host bridge would accept so many bytes. -/
def repliedUpTo (accepts : Nat) (s : State) (k : Nat) (bs : List Byte) : (Nat × Bool) × State :=
  let want := bs.take (hdrField (slotAt s k) 0x18 32)
  let got := min want.length accepts
  let t := { s with freeCtr := s.freeCtr + 1, hostMem := s.hostMem.write (hdrField (slotAt s k) 0x10 64) (want.take got) false }
  ((got, decide (hdrField (slotAt s k) 0x18 32 < bs.length)), if got < want.length then report t
    { cause := 0x25, source := 0xC0A1, key := some k, addr := hdrField (slotAt s k) 0x10 64, info0 := got } else t)

theorem longReply_eq (s : State) (k : Nat) (bs : List Byte) : longReply s k bs = repliedUpTo
    (Config.hostAccepts s.freeCtr (hdrField (slotAt s k) 0x10 64) (bs.take (hdrField (slotAt s k) 0x18 32)).length) s k bs := rfl

/-- An ERR_FETCH of one record in slot 5, with a long reply of 64 bytes at host address 0x10000. -/
def fetchOne : Handed := ⟨.host, 5, BitVec.ofNat 64 (2 ^ 56), 0x0903, forceParam 2 0 1 0⟩

/-- A READY device with one stored record, and the packet of `fetchOne`. -/
def oneRecord : State :=
  { setSlot State.reset 5 (setBits (setBits (setBits 0 (8 * 0x40) 16 1) (8 * 0x10) 64 0x10000) (8 * 0x18) 32 64) with
    dev := .ready
    fw := { State.reset.fw with procs := [(0, { Proc.reset with state := .running }), (2, { Proc.reset with state := .running })] }
    lease := { Lease.reset with state := .held, expiry := 3840000 }
    ras := { State.reset.ras with store := [⟨1, 0, 2, 1, 0, 0, 0, 0, 0, 0, 0, 0, 0, 0, 0, 0, 1, false, false⟩], serial := 1 } }

theorem oneRecord_accepted : accepted fetchOne 5 [] oneRecord := by
  have checks : ends ((opDef fetchOne.op).check 5) (taken 5 (offered fetchOne 5 oneRecord)) = some ([], taken 5 (offered fetchOne 5 oneRecord)) := by
    decide +kernel
  exact ⟨by decide +kernel, by decide +kernel, ends_elim checks, by decide +kernel⟩

/-- The state in which `fetchOne` runs, its record marked fetched. -/
def oneFetched : State := markFetched (atWork fetchOne 5 [] oneRecord) (fetchRecords (atWork fetchOne 5 [] oneRecord) 1)

/-- The bytes of the record that `fetchOne` copies. -/
def oneRecordBytes : List Byte := (fetchRecords (atWork fetchOne 5 [] oneRecord) 1).flatMap errBytes

/-- Slot 5 after a completion of `fetchOne` that counts what is left unfetched in a state. -/
def slotAfter (counted : State) (l : (Nat × Bool) × State) : SlotWord :=
  slotAt (settle (completeCmd l.2 5 { result := BitVec.ofNat 64 (fetchResult counted 1), longWritten := l.1.1, trunc := l.1.2 })) 5

/-- Whichever byte is the first refused, the result words of the two counts differ. -/
theorem slotAfter_refused : ∀ accepts < 64,
    let l := repliedUpTo accepts oneFetched 5 oneRecordBytes
    slotAfter l.2 l ≠ slotAfter oneFetched l := by decide +kernel

/-- Where the host bridge refuses a byte of the record that `fetchOne` copies, the record of the refusal comes between the two counts. -/
theorem not_errorRecordsAreFetchedAndCleared_of_refusal (refuses : Config.hostAccepts 0 0x10000 64 < 64) :
    ¬ Obligations.ErrorRecordsAreFetchedAndCleared := by
  intro ⟨fetches, _⟩
  have row : handed (.errFetch .host 5 (BitVec.ofNat 64 (2 ^ 56))) = some fetchOne := rfl
  have records : paramBit (slotAt (atWork fetchOne 5 [] oneRecord) 5) 2 0 = false := by decide +kernel
  have one : param (slotAt (atWork fetchOne 5 [] oneRecord) 5) 0 16 = 1 := by decide +kernel
  have count : (fetchRecords (atWork fetchOne 5 [] oneRecord) 1).length = 1 := by decide +kernel
  have replied : longReply oneFetched 5 oneRecordBytes = repliedUpTo (Config.hostAccepts 0 0x10000 64) oneFetched 5 oneRecordBytes := by
    rw [longReply_eq, show oneFetched.freeCtr = 0 by decide +kernel, show hdrField (slotAt oneFetched 5) 0x10 64 = 0x10000 by decide +kernel,
      show (oneRecordBytes.take (hdrField (slotAt oneFetched 5) 0x18 32)).length = 64 by decide +kernel]
  have stated := (fetches .host 5 _ fetchOne 5 [] oneRecord _ (.inl rfl) row oneRecord_accepted).2 records
  have ran := exec_accepted oneRecord_accepted row rfl (errFetch_body_records records)
  simp only [one, count] at stated ran
  have same := Host.Outcome.next.inj (stated.symm.trans ran)
  have seen : slotAfter (longReply oneFetched 5 oneRecordBytes).2 (longReply oneFetched 5 oneRecordBytes) =
      slotAfter oneFetched (longReply oneFetched 5 oneRecordBytes) := congrArg (slotAt · 5) same
  rw [replied] at seen
  exact slotAfter_refused _ refuses seen

end Sys2Proof.Proofs
end
